-- ==== Sys2Proof/Word.lean ====
section
/-! DEFINITION. The word types of the model: bytes, 32-bit words and 64-bit registers, little-endian (R6). -/

namespace Sys2Proof

/-- One byte of a memory, a packet or a record. -/
abbrev Byte := BitVec 8

/-- One word of a command packet or a record (R334, R341). -/
abbrev W32 := BitVec 32

/-- One register of the hub window, a Station or a Tap (R35, R70). -/
abbrev W64 := BitVec 64

/-- A map of the 256 partitions, bit p for partition p (R139). -/
abbrev PartMap := BitVec 256

end Sys2Proof
end

