-- ==== Sys2Proof/Syntax.lean ====
section
/-! DEFINITION. The commands of the block: one constructor per row of opcode_table.json, with the operands that its
rule names. A host command carries its packet; an event carries the unit it happens to and what arrives there. -/

namespace Sys2Proof

/-- The four ways a command reaches the hub: the submission rings, the scan port, the I3C sideband (R314), and
firmware's own authority (R90). -/
inductive Port where
  | host
  | scan
  | sideband
  | firmware
  deriving DecidableEq, Repr

/-- A command packet (Table 10.14) whose length field is 4 plus the words of its body. -/
structure Pkt where
  port : Port
  session : W32
  cookie : W64
  body : List W32
  deriving DecidableEq, Repr

/-- A Spine frame: the fields of header word 0 (Table 2.2), word 1 and the payload (R42). -/
structure Frame where
  ftype : Nat
  dir : Nat := 0
  wrapped : Bool := false
  routine : Bool := false
  fenced : Bool := false
  dest : Nat
  src : Nat
  part : Nat := 0
  len : Nat := 0
  force : Bool := false
  tag : Nat := 0
  word1 : W64
  payload : List Byte := []
  deriving DecidableEq, Repr

/-- How a frame ends at a receiver (R45). -/
inductive FrameEnd where
  | good
  | crcBad
  | eofBad
  deriving DecidableEq, Repr

/-- A frame as a receiver has it, with its end (R45). -/
structure Arrival where
  frame : Frame
  fin : FrameEnd := .good
  deriving DecidableEq, Repr

/-- How a HUBPKT frame ends at the hub (R357). -/
inductive ScanEnd where
  | good
  | crcBad
  deriving DecidableEq, Repr

/-- What an engine stands at when it reaches a boundary (R99, R112): the next command-list entry, whether the boundary
is internal to a long entry, whether an atomic or locked sequence is open there and whether it holds a lock. -/
structure Boundary where
  clid : Nat
  entry : Nat
  midEntry : Bool
  inSequence : Bool
  lockHeld : Bool
  deriving DecidableEq, Repr

/-- A BIND message of the Composer (Table 16.7). -/
structure BindMsg where
  unit : W32
  ch : Nat
  bound : Bool
  part : Nat
  epoch : W32
  leftValid : Bool
  left : Nat
  leftEpoch : W32
  digest : List Byte
  deriving DecidableEq, Repr

/-- One element of a write-back (R236): its bits, its scale byte and address, and whether the conversion clamped it. -/
structure Element where
  bits : Nat
  addr : W64
  saturated : Bool
  scale : Nat
  deriving DecidableEq, Repr

/-- A write-back of a Sentinel engine (R236, R237): format, the elements that the Sentinel examines, the entry that they belong
to, and the engine cycles since the latest edge of the GTC clock (R238). -/
structure WriteBack where
  format : Nat
  elems : List Element
  clid : Nat
  entry : Nat
  privileged : Bool
  cycles : Nat
  deriving DecidableEq, Repr

/-- One transaction at a core's port (R252, R254-R256), with the engine cycles since the latest edge of the GTC clock (R238). -/
structure Transaction where
  engine : Nat
  ttype : Nat
  addr : W64
  bytes : Nat
  err : Bool
  privileged : Bool
  secure : Bool
  cycles : Nat
  deriving DecidableEq, Repr

/-- One packet at a link endpoint (R252, R257, R261): its size and the header bytes that a record holds, at most 8. -/
structure LinkHeader where
  outgoing : Bool
  vc : Nat
  bytes : Nat
  err : Bool
  secure : Bool
  header : List Byte
  deriving DecidableEq, Repr

/-- What a DMA failure hit (R508). -/
inductive DmaFailure where
  | commandAccess
  | fetch
  | record
  deriving DecidableEq, Repr

/-- An MCTP packet's header as the target sees it (R375). -/
structure MctpHeader where
  srcEid : Nat
  dstEid : Nat
  tag : Nat
  mctpInstance : Nat
  deriving DecidableEq, Repr

/-- The arrays of Table 15.3 whose errors the block handles by itself. -/
inductive EccArray where
  | policyProcessor
  | mergeBuffer
  | sessionSlot
  | routineSlot
  | traceFrame
  | cutBuffer
  | bindingShadow
  | stationRegister
  | tapRegister
  | notebook
  deriving DecidableEq, Repr

/-- A SECDED or parity error (R491): the array, its die (unused for the hub's own arrays), the place in it (a slot, a frame,
a port, a Tap, a shadow entry or a notebook word) and a second index (the record of a Cut Buffer). -/
structure Ecc where
  array : EccArray
  die : Nat
  place : Nat
  sub : Nat
  uncorrectable : Bool
  deriving DecidableEq, Repr

/-- What a Station's Wear Collector reads at a sample (R493): oscillator counts and drifts of the clusters, temperature,
VDBG, and the HBM corrections of each channel in the last hour and since the last sample. -/
structure WearReading where
  counts : List Nat
  drifts : List Nat
  temp : Nat
  vdbg : Nat
  ceHour : List Nat
  ceNew : List Nat
  deriving DecidableEq, Repr

/-- The dates that firmware's wear model gives for a die, and the signal that sets the first (R494, Table 15.6). -/
structure WearDates where
  p50 : Nat
  p90 : Nat
  limit : Nat
  deriving DecidableEq, Repr

/-- One entry of a core's State Directory (Table 4.8). -/
structure DirEntry where
  region : Nat
  cls : Nat
  secure : Bool
  rs : Bool
  volatile : Bool
  engine : Nat
  engValid : Bool
  size : Nat
  grain : Nat
  deriving DecidableEq, Repr

/-- What a link endpoint or HBM channel does when it is trained (R401, R402): whether a saved record trains it, the width,
speed and eye that it then or otherwise reaches (width 0: it trains at no width), and the PHY settings. -/
structure TrainResult where
  die : Nat
  place : Nat
  chan : Bool
  fromRecord : Bool
  width : Nat
  speed : Nat
  eyeH : Nat
  eyeV : Nat
  params : List Byte
  deriving DecidableEq, Repr

/-- A chunk that a core misses (R396): die, core, chunk and how many passes in a row failed (1 the main pass, 2-4 the
repair rounds, 5-6 the unicasts). -/
structure BootMiss where
  die : Nat
  core : Nat
  chunk : Nat
  passes : Nat
  deriving DecidableEq, Repr

/-- A window of bus addresses that an HBM channel serves. -/
structure ChanWindow where
  die : Nat
  chan : Nat
  base : Nat
  size : Nat
  deriving DecidableEq, Repr

/-- A ledger entry (Table 12.6), without its CRC; `good` tells that the CRC of the copy holds. -/
structure LedgerEntry where
  unit : W32
  cause : Nat
  revoked : Bool := false
  detail : Nat := 0
  seconds : Nat := 0
  good : Bool := true
  deriving DecidableEq, Repr

/-- A training record (Table 12.5), without its CRC; `good` tells that the CRC of the copy holds. -/
structure TrainRecord where
  unit : W32
  chan : Bool
  ch : Nat
  width : Nat
  speed : Nat
  seconds : Nat
  temp : Nat
  eyeH : Nat
  eyeV : Nat
  params : List Byte
  gen : Nat
  good : Bool := true
  deriving DecidableEq, Repr

/-- The expected-topology seed: the fitted dies, cores (die × 128 + core), stacks, fabric ports and the nominal width and
speed codes. -/
structure Seed where
  dies : Nat := 2 ^ 100 - 1
  unfittedCores : List Nat := []
  hbms : Nat := 2 ^ 32 - 1
  ext : Nat := 2 ^ 32 - 1
  nominal : Nat := 15
  deriving DecidableEq, Repr

/-- The regions of an anchor flash that the hub reads (Table 12.2): the directory's preferred firmware copy and the copies that
it marks as failed (bit 0 copy A, bit 1 copy B), core boot image, training records, the two licence copies, seed and ledger
summary. -/
structure Flash where
  preferB : Bool := false
  failed : Nat := 0
  image : List Byte := []
  training : List TrainRecord := []
  lic0 : List Byte := []
  lic1 : List Byte := []
  seed : Seed := { }
  ledger : List LedgerEntry := []
  erased : Bool := false
  deriving DecidableEq, Repr

/-- What the surroundings show the hub at a start (Tables 12.1, 12.3): which firmware copies are good (bits 0 and 1 copies A and
B of A0, bits 2 and 3 those of A2), what both anchor flashes hold if something outside the block has written them since the
last start, which regions of theirs fail their CRC (bit r region r of A0's in the order of Table 12.2, bit 8 + r of A2's), what firmware
writes to GTC_TOD_NEXT from the tray's time message if one comes before step 8 (an edge of PPS_IN follows it), the Stations that come up on the Spine, boot, training and test results, the address map, the State Directories, the values that firmware
gives its registers, the fabric ports of the job fabric, the steps that exceed their budgets and the time taken. -/
structure StartEnv where
  fwGood : Nat
  flashes : Option (Flash × Flash)
  badRegions : Nat
  tod : Option W64
  present : Nat
  wires : List Nat
  trunks : List Nat
  temps : List Nat
  bootSilent : Nat
  bootMiss : List BootMiss
  training : List TrainResult
  failing : List (W32 × Nat)
  hampers : List Nat
  chans : List ChanWindow
  dirs : List (Nat × List DirEntry)
  regs : List (Nat × Nat)
  jobPorts : Nat
  overBudget : Nat
  ms : Nat
  warmMs : Nat
  deriving DecidableEq, Repr

/-- The commands: one constructor for each row of opcode_table.json. -/
inductive Instr where
  /-- OPEN_SESSION (R328). -/
  | openSession (p : Pkt)
  /-- CLOSE_SESSION (R331). -/
  | closeSession (p : Pkt)
  /-- FENCE (R339). -/
  | fence (p : Pkt)
  /-- NOP (R332). -/
  | nopCmd (p : Pkt)
  /-- QUERY (R346). -/
  | query (p : Pkt)
  /-- HALT (R107). -/
  | haltCmd (p : Pkt)
  /-- RESUME (R115). -/
  | resumeCmd (p : Pkt)
  /-- STEP (R117). -/
  | stepCmd (p : Pkt)
  /-- PEEK (R128). -/
  | peek (p : Pkt)
  /-- POKE (R128). -/
  | poke (p : Pkt)
  /-- SET_BREAK (R522). -/
  | setBreak (p : Pkt)
  /-- CLEAR_BREAK (R522). -/
  | clearBreak (p : Pkt)
  /-- SET_FREEZE (R124). -/
  | setFreeze (p : Pkt)
  /-- HEADCOUNT (R135). -/
  | headcount (p : Pkt)
  /-- STITCH (R138). -/
  | stitch (p : Pkt)
  /-- DUMP_PLAN (R174). -/
  | dumpPlan (p : Pkt)
  /-- PRESS (R176). -/
  | press (p : Pkt)
  /-- EXPORT (R178). -/
  | exportDump (p : Pkt)
  /-- RELEASE_HAMPER (R181). -/
  | releaseHamper (p : Pkt)
  /-- MIGRATE_CORE (R182). -/
  | migrateCore (p : Pkt)
  /-- ENCODE (R210). -/
  | encodeCmd (p : Pkt)
  /-- DECODE (R211). -/
  | decodeCmd (p : Pkt)
  /-- TALLY (R228). -/
  | tally (p : Pkt)
  /-- COMPARE (R234). -/
  | compare (p : Pkt)
  /-- SENTINEL_CONFIG (R241). -/
  | sentinelConfig (p : Pkt)
  /-- FIRST_FAULT (R243). -/
  | firstFault (p : Pkt)
  /-- TRACE_CONFIG (R284). -/
  | traceConfig (p : Pkt)
  /-- TRACE_START (R275). -/
  | traceStart (p : Pkt)
  /-- TRACE_STOP (R275). -/
  | traceStop (p : Pkt)
  /-- TRACE_DRAIN (R277). -/
  | traceDrain (p : Pkt)
  /-- LOAD_ROUTINE (R298). -/
  | loadRoutine (p : Pkt)
  /-- UNLOAD_ROUTINE (R313). -/
  | unloadRoutine (p : Pkt)
  /-- ARM_TRIGGER (R306). -/
  | armTrigger (p : Pkt)
  /-- DISARM_TRIGGER (R312). -/
  | disarmTrigger (p : Pkt)
  /-- RUN_ROUTINE (R300). -/
  | runRoutine (p : Pkt)
  /-- ROLL_CALL (R414). -/
  | rollCall (p : Pkt)
  /-- INSTALL_LICENCE (R392). -/
  | installLicence (p : Pkt)
  /-- READ_LEDGER (R410). -/
  | readLedger (p : Pkt)
  /-- STAGE_MODE (R415). -/
  | stageMode (p : Pkt)
  /-- COMMIT_MODE (R416). -/
  | commitMode (p : Pkt)
  /-- SAVE_TRAINING (R403). -/
  | saveTraining (p : Pkt)
  /-- RESET_SCOPE (R452). -/
  | resetScope (p : Pkt)
  /-- ABORT_JOB (R440). -/
  | abortJob (p : Pkt)
  /-- SET_WATCHDOG (R421). -/
  | setWatchdog (p : Pkt)
  /-- REQUEST_POWER_CYCLE (R453). -/
  | requestPowerCycle (p : Pkt)
  /-- AUTH_CHALLENGE (R473). -/
  | authChallenge (p : Pkt)
  /-- AUTH_RESPONSE (R476). -/
  | authResponse (p : Pkt)
  /-- LC_TRANSITION (R459). -/
  | lcTransition (p : Pkt)
  /-- LC_READ (R482). -/
  | lcRead (p : Pkt)
  /-- LEDGER_REVOKE (R467). -/
  | ledgerRevoke (p : Pkt)
  /-- HEALTH_READ (R495). -/
  | healthRead (p : Pkt)
  /-- EOL_READ (R495). -/
  | eolRead (p : Pkt)
  /-- DOORBELL (R335). -/
  | doorbell (size : Nat) (v : W64)
  /-- IF_CTL_ENABLE (R321). -/
  | ifCtlEnable (v : W64)
  /-- TOD_ARM (R76). -/
  | todArm (v : W64)
  /-- RTN_DOORBELL (R306). -/
  | rtnDoorbell (v : W64)
  /-- TAP_SNT_FIRST_CLEAR (R239). -/
  | tapSntFirstClear (die tap j : Nat) (v : W64)
  /-- TAP_TRC_MARK (R265). -/
  | tapTrcMark (die tap : Nat) (v : W64)
  /-- RC_READ (R9). -/
  | rcRead (off size : Nat)
  /-- REGISTER_WRITE (R10). -/
  | registerWrite (off size : Nat) (v : W64)
  /-- PPS_EDGE (R75). -/
  | ppsEdge
  /-- REF_LOSS (R79). -/
  | refLoss
  /-- PPS_LOSS (R79). -/
  | ppsLoss
  /-- REF_RETURN (R82). -/
  | refReturn
  /-- GTC_VOID (R81). -/
  | gtcVoid
  /-- SYNC_SEND (R84). -/
  | syncSend
  /-- SYNC (R85). -/
  | syncFrame (die : Nat) (f : Frame) (fin : FrameEnd) (sample : W64)
  /-- ECHO_REQ (R87). -/
  | echoReq (die : Nat) (f : Frame) (turnaround : Nat)
  /-- ECHO_RSP (R87). -/
  | echoRsp (die : Nat) (f : Frame) (t4 : W64)
  /-- CALIBRATION (R88). -/
  | calibration (ring : Nat)
  /-- RD_REQ (R49). -/
  | rdReq (die : Nat) (f : Frame) (fin : FrameEnd)
  /-- WR_REQ (R49). -/
  | wrReq (die : Nat) (f : Frame) (fin : FrameEnd)
  /-- RD_RSP (R51). -/
  | rdRsp (die : Nat) (f : Frame) (fin : FrameEnd)
  /-- WR_RSP (R51). -/
  | wrRsp (die : Nat) (f : Frame) (fin : FrameEnd)
  /-- RESPONSE_TIMEOUT (R52). -/
  | responseTimeout (ring tag : Nat)
  /-- BCAST_WR (R54). -/
  | bcastWr (die : Nat) (f : Frame) (fin : FrameEnd)
  /-- GATHER (R56). -/
  | gather (die : Nat) (f : Frame) (fin : FrameEnd)
  /-- GATHER_RETURN (R57). -/
  | gatherReturn (ring : Nat) (f : Arrival)
  /-- HEARTBEAT (R58); bit p of `alive` tells that the Station at position p is there to take its turn. -/
  | heartbeat (ring : Nat) (alive : Nat)
  /-- BULK (R396). -/
  | bulkFrame (die : Nat) (f : Frame) (fin : FrameEnd)
  /-- EVENT (R59). -/
  | eventFrame (die : Nat)
  /-- SEGMENT_DOWN (R60). -/
  | segmentDown (ring pos : Nat) (lanesLo lanesHi : Nat)
  /-- TRUNK_DOWN (R39). -/
  | trunkDown (trunk : Nat)
  /-- RETRAIN (R64). -/
  | retrain (ring pos : Nat) (passed : Bool)
  /-- SHARE_RELEASE (R67). -/
  | shareRelease (ring dir : Nat)
  /-- CANCEL (R96). -/
  | cancel (die : Nat) (f : Frame) (fin : FrameEnd)
  /-- ARM_STITCH (R139). -/
  | armStitch (die : Nat) (f : Frame) (fin : FrameEnd)
  /-- ARM (R525). -/
  | armFrame (die : Nat) (f : Frame) (fin : FrameEnd)
  /-- HALT_STROBE (R108). -/
  | haltStrobe (die armId : Nat)
  /-- TAP_COUNTDOWN (R108). -/
  | tapCountdown (die tap armId : Nat)
  /-- WAYPOINT_FIRE (R89). -/
  | waypointFire (die : Nat)
  /-- ENGINE_BOUNDARY (R102). -/
  | engineBoundary (die tap e : Nat) (b : Boundary)
  /-- ATOMIC_BOUND (R109). -/
  | atomicBound (die tap e : Nat)
  /-- CORE_SLEEP (R264). -/
  | coreSleep (die tap : Nat)
  /-- CORE_WAKE (R111). -/
  | coreWake (die tap : Nat)
  /-- ENTRY_BREAKPOINT (R121). -/
  | entryBreakpoint (die tap e : Nat) (clid entry : Nat)
  /-- WATCHPOINT (R121). -/
  | watchpoint (die tap e : Nat) (addr : W64) (ttype : Nat) (privileged : Bool)
  /-- HALT_COMPLETION (R114). -/
  | haltCompletion (cmd : Nat)
  /-- STEP_LIMIT (R118). -/
  | stepLimit (die tap e : Nat)
  /-- STEP_STUCK (R118). -/
  | stepStuck (cmd : Nat)
  /-- ORPHAN_POLICY (R134). -/
  | orphanPolicy (index : Nat)
  /-- BIND (R31). -/
  | bindMsg (b : BindMsg)
  /-- OWNER (R330). -/
  | ownerMsg (part : Nat) (digest : List Byte) (port : Port)
  /-- JOB (R439). -/
  | jobMsg (job : W32) (parts : PartMap)
  /-- FABRIC (R27). -/
  | fabricMsg (pkg : Nat) (joined : Bool)
  /-- CUT_POINT (R141). -/
  | cutPoint (die : Nat)
  /-- CUT_BUFFER_RECORD (R144). -/
  | cutBufferRecord (die port : Nat) (bytes : List Byte) (vc : Nat) (err : Bool)
  /-- CUT_MARKER (R144). -/
  | cutMarker (die port : Nat)
  /-- CUT_DEADLINE (R146). -/
  | cutDeadline (die : Nat)
  /-- CAPTURE_DONE (R155). -/
  | captureDone (die : Nat)
  /-- STITCH_PROGRESS (R156). -/
  | stitchProgress (slot : Nat)
  /-- STITCH_DEADLINE (R157). -/
  | stitchDeadline (slot : Nat)
  /-- HAMPER_CLAIM (R161). -/
  | hamperClaim (stack folio : Nat)
  /-- TALLY_PART_END (R228). -/
  | tallyPartEnd (cmd part : Nat) (readErr : Bool)
  /-- SENTINEL_MATCH (R237). -/
  | sentinelMatch (die tap e : Nat) (w : WriteBack)
  /-- FIRST_FAULT_COLLECT (R243). -/
  | firstFaultCollect (die : Nat)
  /-- TAP_TRACE_RECORD (R253). -/
  | tapTraceRecord (die tap : Nat) (x : Transaction)
  /-- LINK_TRACE_RECORD (R252). -/
  | linkTraceRecord (die port : Nat) (x : LinkHeader)
  /-- HORIZON_CLOSE (R276). -/
  | horizonClose (die slot : Nat)
  /-- SPILL_BURST (R274). -/
  | spillBurst (die slot : Nat)
  /-- MERGE_DISCARD (R279). -/
  | mergeDiscard (slot : Nat)
  /-- ROUTINE_RUN_START (R301). -/
  | routineRunStart
  /-- ROUTINE_COMMAND_STEP (R293). -/
  | routineCommandStep (run : Nat)
  /-- END (R294). -/
  | rtnEnd (run : Nat)
  /-- WAIT_TICK (R294). -/
  | waitTick (run : Nat)
  /-- WAIT_TICK_DONE (R294). -/
  | waitTickDone (run : Nat)
  /-- BCAST_WRITE (R294). -/
  | bcastWrite (run : Nat)
  /-- PEEK_TO_SCRATCH (R294). -/
  | peekToScratch (run : Nat)
  /-- SET_COUNTER (R295). -/
  | setCounter (run : Nat)
  /-- DEC_SKIP (R295). -/
  | decSkip (run : Nat)
  /-- SKIP_IF (R296). -/
  | skipIf (run : Nat)
  /-- JUMP (R295). -/
  | jump (run : Nat)
  /-- ROUTINE_EVENT (R294). -/
  | routineEvent (run : Nat)
  /-- TRACE_CTL (R294). -/
  | traceCtl (run : Nat)
  /-- ROUTINE_STEP_DONE (R301). -/
  | routineStepDone (run : Nat)
  /-- PERIODIC_FIRING (R308). -/
  | periodicFiring (trigger : Nat)
  /-- TRIG_IN (R381). -/
  | trigIn (pin : Nat) (level : Bool)
  /-- PENDING_FIRING (R309). -/
  | pendingFiring (trigger : Nat)
  /-- TRIG_OUT_END (R311). -/
  | trigOutEnd (pin : Nat)
  /-- SESSION_TIMEOUT (R332). -/
  | sessionTimeout (port : Port) (session : W32)
  /-- EQ_RETRY (R340). -/
  | eqRetry (session : W32)
  /-- COALESCE_END (R343). -/
  | coalesceEnd (session : W32)
  /-- DMA_FAILURE (R508). -/
  | dmaFailure (failure : DmaFailure) (session : W32)
  /-- INSTRUCTION_LOAD (R352). -/
  | instructionLoad (ir : Nat)
  /-- TEST_LOGIC_RESET (R356). -/
  | testLogicReset
  /-- CMD (R358). -/
  | scanCmd (fseq : Nat) (payload : List Byte) (fin : ScanEnd)
  /-- HELLO (R370). -/
  | scanHello (fseq : Nat) (payload : List Byte) (fin : ScanEnd)
  /-- RESEND (R360). -/
  | scanResend (fseq : Nat) (payload : List Byte) (fin : ScanEnd)
  /-- BYE (R369). -/
  | scanBye (fseq : Nat) (payload : List Byte) (fin : ScanEnd)
  /-- TRST_N (R369). -/
  | trstN
  /-- KEEPALIVE_EXPIRY (R369). -/
  | keepaliveExpiry
  /-- FAILOVER_HELLO_TIMEOUT (R372). -/
  | failoverHelloTimeout
  /-- ENTDAA (R373). -/
  | entdaa (address : Nat)
  /-- RSTDAA (R373). -/
  | rstdaa
  /-- ENEC (R373). -/
  | enec (events : Nat)
  /-- DISEC (R373). -/
  | disec (events : Nat)
  /-- GETPID (R374). -/
  | getpid
  /-- GETBCR (R374). -/
  | getbcr
  /-- GETDCR (R374). -/
  | getdcr
  /-- GETSTATUS (R373). -/
  | getstatus
  /-- GETMWL (R374). -/
  | getmwl
  /-- SETMWL (R374). -/
  | setmwl (length : Nat)
  /-- GETMRL (R374). -/
  | getmrl
  /-- SETMRL (R374). -/
  | setmrl (length : Nat)
  /-- SET_ENDPOINT_ID (R375). -/
  | setEndpointId (hdr : MctpHeader) (data : List Byte)
  /-- GET_ENDPOINT_ID (R375). -/
  | getEndpointId (hdr : MctpHeader)
  /-- GET_MCTP_VERSION_SUPPORT (R375). -/
  | getMctpVersionSupport (hdr : MctpHeader) (mtype : Nat)
  /-- GET_MESSAGE_TYPE_SUPPORT (R375). -/
  | getMessageTypeSupport (hdr : MctpHeader)
  /-- GET_VENDOR_DEFINED_MESSAGE_SUPPORT (R375). -/
  | getVendorDefinedMessageSupport (hdr : MctpHeader) (selector : Nat)
  /-- ERROR_UNSUPPORTED_CMD (R375). -/
  | errorUnsupportedCmd (hdr : MctpHeader) (code : Nat)
  /-- MCTP_COMMAND (R376). -/
  | mctpCommand (hdr : MctpHeader) (data : List Byte)
  /-- HOLDUP_DROP (R460). -/
  | holdupDrop
  /-- POWER_ON_RESET (R502). -/
  | powerOnReset (env : StartEnv)
  /-- DBG_RESET (R503). -/
  | dbgReset (env : StartEnv)
  /-- WARM_START (R384). -/
  | warmStart (env : StartEnv)
  /-- MODE_GATHER (R416). -/
  | modeGather (cmd : Nat)
  /-- WATCHDOG_EXPIRED (R423). -/
  | watchdogExpired (die entry : Nat)
  /-- DRAIN_END (R432). -/
  | drainEnd (part : Nat)
  /-- RUNG_END (R424). -/
  | rungEnd (part : Nat)
  /-- RUNG_BOUND (R425). -/
  | rungBound (part : Nat)
  /-- WARM_DONE (R436). -/
  | warmDone (env : StartEnv)
  /-- EPOCH_ARRIVAL_DROP (R433). -/
  | epochArrivalDrop (die recv part epoch : Nat)
  /-- ABORT_TOKEN (R441). -/
  | abortToken (die port : Nat) (token : List Byte)
  /-- JOB_CMD_TOKEN (R166). -/
  | jobCmdToken (die port : Nat) (token : List Byte)
  /-- RESULT_TOKEN (R443). -/
  | resultToken (die port : Nat) (token : List Byte)
  /-- PWR_CYCLE_ASSERT (R383). -/
  | pwrCycleAssert
  /-- HUB_HEARTBEAT_LOSS (R446). -/
  | hubHeartbeatLoss
  /-- ISOLATE (R447). -/
  | isolate
  /-- PEER_LOST (R450). -/
  | peerLost
  /-- INTERNAL_WATCHDOG (R446). -/
  | internalWatchdog
  /-- LOCKSTEP_MISMATCH (R446). -/
  | lockstepMismatch
  /-- STATION_FAULT (R487). -/
  | stationFault (die : Nat)
  /-- TAP_FAULT (R488). -/
  | tapFault (die tap : Nat)
  /-- TAP_ALIVE_POLL (R488). -/
  | tapAlivePoll (die : Nat) (dead : Nat)
  /-- SECDED_ERROR (R491). -/
  | secdedError (array : Ecc)
  /-- SCRUB (R492). -/
  | scrub (die : Option Nat) (fixes : Nat)
  /-- WEAR_SAMPLE (R493). -/
  | wearSample (die : Nat) (x : WearReading)
  /-- WEAR_FIT (R494). -/
  | wearFit (die : Nat) (x : WearDates)
  /-- CREDENTIAL_EXPIRY (R478). -/
  | credentialExpiry
  /-- LINK_LAYER_ERROR (R306). -/
  | linkLayerError (die port : Nat)
  /-- PEER_HEARTBEAT (R446). -/
  | peerHeartbeat (gtc : W64)
  /-- TRUNK_RESTORED (R39). -/
  | trunkRestored (trunk : Nat)
  /-- VDBG_LOSS (R502). -/
  | vdbgLoss
  /-- ENTRY_COMPLETED (R420). -/
  | entryCompleted (die tap e : Nat) (more : Bool)
  /-- BAD_TYPE_FRAME (R46). -/
  | badTypeFrame (die : Nat) (f : Frame)
  /-- BAD_HEADER_FRAME (R358). -/
  | badHeaderFrame (bytes : List Byte)
  /-- HEALTH_FAULT (R486). -/
  | healthFault (code : Nat) (unit : W32)
  /-- TRIG_OUT_START (R382). -/
  | trigOutStart (pin : Nat)
  deriving DecidableEq, Repr

end Sys2Proof
end

