-- ==== Sys2Proof/Machine/Bits.lean ====
section
/-! DEFINITION. Bit fields, little-endian bytes and words (R6), saturating counters and bitmaps. -/

namespace Sys2Proof.Machine

/-- Bits [lo + n − 1 : lo] of a register as a number. -/
def fld (w : W64) (lo n : Nat) : Nat := (w.toNat >>> lo) % 2 ^ n

/-- A register with bits [lo + n − 1 : lo] replaced. -/
def setFld (w : W64) (lo n v : Nat) : W64 :=
  (w &&& ~~~ (BitVec.ofNat 64 ((2 ^ n - 1) <<< lo))) ||| BitVec.ofNat 64 ((v % 2 ^ n) <<< lo)

/-- Bits [lo + n − 1 : lo] of a number. -/
def nfld (v lo n : Nat) : Nat := (v >>> lo) % 2 ^ n

/-- Bits [lo + n − 1 : lo] of a packet word. -/
def wfld (w : W32) (lo n : Nat) : Nat := (w.toNat >>> lo) % 2 ^ n

/-- A truth value as a one-bit field. -/
def b2n (b : Bool) : Nat := if b then 1 else 0

/-- v held at the all-ones value of n bits: a counter that saturates. -/
def satN (n v : Nat) : Nat := if v < 2 ^ n then v else 2 ^ n - 1

/-- The n low bytes of v, least significant first (R6). -/
def leBytes : Nat → Nat → List Byte
  | 0, _ => []
  | n + 1, v => BitVec.ofNat 8 v :: leBytes n (v / 256)

/-- The number that bytes spell, least significant first (R6). -/
def leNat : List Byte → Nat
  | [] => 0
  | b :: r => b.toNat + 256 * leNat r

/-- Bytes [a, a + n) of a list as a number; bytes past the end count as zero. -/
def bytesAt (l : List Byte) (a n : Nat) : Nat := leNat ((l.drop a).take n)

/-- The 32-bit words of a number, least significant first. -/
def leWords : Nat → Nat → List W32
  | 0, _ => []
  | n + 1, v => BitVec.ofNat 32 v :: leWords n (v / 2 ^ 32)

/-- The number that words spell, least significant first. -/
def wordsNat : List W32 → Nat
  | [] => 0
  | w :: r => w.toNat + 2 ^ 32 * wordsNat r

/-- The bytes of words, little-endian. -/
def wordsBytes : List W32 → List Byte
  | [] => []
  | w :: r => leBytes 4 w.toNat ++ wordsBytes r

/-- The words of bytes, little-endian, the last word filled with zero bytes. -/
def bytesWords : List Byte → List W32
  | [] => []
  | [a] => [BitVec.ofNat 32 (leNat [a])]
  | [a, b] => [BitVec.ofNat 32 (leNat [a, b])]
  | [a, b, c] => [BitVec.ofNat 32 (leNat [a, b, c])]
  | a :: b :: c :: d :: r => BitVec.ofNat 32 (leNat [a, b, c, d]) :: bytesWords r

/-- Word i of a word list, zero past its end. -/
def wAt (l : List W32) (i : Nat) : W32 := (l[i]?).getD 0

/-- The 64-bit value in words i and i + 1, least significant first (R518). -/
def w64At (l : List W32) (i : Nat) : Nat := (wAt l i).toNat + 2 ^ 32 * (wAt l (i + 1)).toNat

/-- One word holding v. -/
def w1 (v : Nat) : List W32 := [BitVec.ofNat 32 v]

/-- Two words holding v, least significant first (R518). -/
def w2 (v : Nat) : List W32 := leWords 2 v

/-- Bit i of a bitmap held as a number. -/
def nbit (v i : Nat) : Bool := (v >>> i) % 2 == 1

/-- A bitmap with bit i set. -/
def setBit (v i : Nat) : Nat := v ||| (1 <<< i)

/-- A bitmap with bit i clear. -/
def clrBit (v i : Nat) : Nat := if nbit v i then v - (1 <<< i) else v

/-- The bitmap of a list of positions. -/
def bitmapOf (l : List Nat) : Nat := l.foldl setBit 0

/-- The positions below n at which a bitmap holds a one, ascending. -/
def bitsOf (v n : Nat) : List Nat := (List.range n).filter (nbit v)

/-- v rounded up to a multiple of k. -/
def roundUp (v k : Nat) : Nat := (v + k - 1) / k * k

/-- A number of n bits read as two's complement. -/
def signed (n v : Nat) : Int := if 2 * (v % 2 ^ n) < 2 ^ n then (v % 2 ^ n : Nat) else ((v % 2 ^ n : Nat) : Int) - (2 ^ n : Nat)

/-- An integer as n bits of two's complement. -/
def unsignedOf (n : Nat) (i : Int) : Nat := (i % ((2 ^ n : Nat) : Int)).toNat

/-- An integer held at the limits of n bits of two's complement. -/
def satInt (n : Nat) (i : Int) : Int :=
  if i < -((2 ^ (n - 1) : Nat) : Int) then -((2 ^ (n - 1) : Nat) : Int)
  else if ((2 ^ (n - 1) : Nat) : Int) ≤ i then ((2 ^ (n - 1) : Nat) : Int) - 1 else i

/-- Replace the bytes of l from position a on by new bytes. -/
def patch (l : List Byte) (a : Nat) (new : List Byte) : List Byte :=
  l.take a ++ new ++ l.drop (a + new.length)

/-- n zero bytes. -/
def zeros (n : Nat) : List Byte := List.replicate n 0

/-- l cut or filled with zero bytes to n bytes. -/
def padTo (n : Nat) (l : List Byte) : List Byte := (l ++ zeros (n - l.length)).take n

/-- Put an element into a sorted list, behind its equals. -/
def insertBy {α : Type} (lt : α → α → Bool) (x : α) : List α → List α
  | [] => [x]
  | y :: r => if lt x y then x :: y :: r else y :: insertBy lt x r

/-- Sort a list, keeping the order of equal elements. -/
def sortBy {α : Type} (lt : α → α → Bool) (l : List α) : List α := l.foldl (fun acc x => insertBy lt x acc) []

/-- The sum of a list. -/
def sumBy {α : Type} (f : α → Nat) (l : List α) : Nat := l.foldl (fun n x => n + f x) 0

/-- Replace element i of a list. -/
def setAt {α : Type} (l : List α) (i : Nat) (v : α) : List α := l.set i v

end Sys2Proof.Machine
end

