-- ==== Sys2Proof/Machine/Flags.lean ====
section
/-! DEFINITION. Status codes (Table 10.11), event codes and the order relations on SEQ values and stamps. -/

namespace Sys2Proof.Machine.St

/-! The status codes of Table 10.11. -/

def ok : Nat := 0x0000
def malformed : Nat := 0x0001
def lengthMismatch : Nat := 0x0002
def unknownOpcode : Nat := 0x0003
def notAuthorised : Nat := 0x0004
def staleHandle : Nat := 0x0005
def noSlot : Nat := 0x0006
def doesNotFit : Nat := 0x0007
def busy : Nat := 0x0008
def timeout : Nat := 0x0009
def aborted : Nat := 0x000A
def lifecycleDenied : Nat := 0x000B
def haltLate : Nat := 0x0101
def unitDark : Nat := 0x0102
def bindingMoved : Nat := 0x0103
def sideEffectRefused : Nat := 0x0104
def cutIncomplete : Nat := 0x0201
def hamperFull : Nat := 0x0202
def incompressible : Nat := 0x0203
def selfcheckFail : Nat := 0x0204
def crcMismatch : Nat := 0x0205
def formatUnsupported : Nat := 0x0301
def traceOverrun : Nat := 0x0401
def stepBudgetExceeded : Nat := 0x0501
def topologyMismatch : Nat := 0x0601
def licenceInvalid : Nat := 0x0602
def trainingStale : Nat := 0x0603

end Sys2Proof.Machine.St

namespace Sys2Proof.Machine

/-! Event codes, each with the rule that names it. -/

namespace EvCode

def doorbellBad : Nat := 0x0101
def eventsLost : Nat := 0x0102
def sessionLost : Nat := 0x0103
def sessionTimeout : Nat := 0x0104
def authorityRevoked : Nat := 0x0105
def hubFailover : Nat := 0x0106
def gtcHoldover : Nat := 0x0110
def gtcVoid : Nat := 0x0111
def gtcLocked : Nat := 0x0112
def stnTimeStep : Nat := 0x0113
def stnTimeAligned : Nat := 0x0114
def wptExpired : Nat := 0x0115
def segmentDown : Nat := 0x0120
def breakHit : Nat := 0x0201
def orphanHalt : Nat := 0x0202
def lateJoin : Nat := 0x0203
def haltRebound : Nat := 0x0204
def haltLateWiden : Nat := 0x0205
def cutOpenClosed : Nat := 0x0301
def hamperClaim : Nat := 0x0302
def jobStitchRefused : Nat := 0x0303
def cdcSelfcheck : Nat := 0x0401
def sentinelFirst : Nat := 0x0501
def traceOverrun : Nat := 0x0601
def traceCorrupt : Nat := 0x0602
def traceStopped : Nat := 0x0603
def routineEvent : Nat := 0x0701
def routineEnd : Nat := 0x0702
def triggerDropped : Nat := 0x0703
def triggerFired : Nat := 0x0704
def bringupDone : Nat := 0x0801
def modeSplit : Nat := 0x0802
def watchdogExpired : Nat := 0x0901
def escalation : Nat := 0x0902
def rcvStuck : Nat := 0x0904
def jobAbort : Nat := 0x0905
def powerCycleRequest : Nat := 0x0906
def peerLost : Nat := 0x0907
def jobResult : Nat := 0x0908
def lcChanged : Nat := 0x0A01
def lcTorn : Nat := 0x0A02
def dieLcLost : Nat := 0x0A03
def testUnlocked : Nat := 0x0A04
def healthFault : Nat := 0x0B01
def stationFault : Nat := 0x0B02
def tapFault : Nat := 0x0B03
def promiseLapsed : Nat := 0x0B04
def wearThreshold : Nat := 0x0B05

end EvCode

/-- SEQ a is later than b (R342). -/
def seqLater (a b : Nat) : Bool :=
  let d := (a + 2 ^ 32 - b % 2 ^ 32) % 2 ^ 32
  decide (1 ≤ d) && decide (d < 2 ^ 31)

/-- Epoch or SEQ a is equal to or later than b, compared as R342 gives. -/
def seqGe (a b : Nat) : Bool := a % 2 ^ 32 == b % 2 ^ 32 || seqLater a b

/-- The first status of a list of conditions that holds, in order. -/
def firstStatus : List (Bool × Nat) → Nat → Nat
  | [], d => d
  | (c, st) :: r, d => if c then st else firstStatus r d

end Sys2Proof.Machine
end

