-- ==== Sys2Proof/Machine/Fields.lean ====
section
/-! DEFINITION. The fields of every register of the hub window, the Stations and the Taps, as the register tables of
chapters 01-15 place them (Tables 1.9, 2.7; R34, R68, R69). -/

namespace Sys2Proof.Machine

/-- One field: the offset of its register (of instance 0), the distance to the next instance, its low bit and width. -/
structure Fld where
  base : Nat
  stride : Nat
  lo : Nat
  width : Nat
  deriving DecidableEq, Repr

/-- The register that holds instance i of a field. -/
def Fld.off (f : Fld) (i : Nat) : Nat := f.base + f.stride * i

end Sys2Proof.Machine

namespace Sys2Proof.Machine.R

def HUB_ID_BLOCK_CODE : Fld := ⟨0x0, 0x0, 0, 32⟩
def HUB_ID_STEP : Fld := ⟨0x0, 0x0, 32, 4⟩
def HUB_ID_INST_DIE : Fld := ⟨0x0, 0x0, 40, 7⟩
def HUB_IANA_PEN : Fld := ⟨0x8, 0x0, 0, 32⟩
def HUB_PARAM_DIES : Fld := ⟨0x10, 0x0, 0, 8⟩
def HUB_PARAM_CORES_PER_DIE : Fld := ⟨0x10, 0x0, 8, 9⟩
def HUB_PARAM_ENGINES : Fld := ⟨0x10, 0x0, 17, 3⟩
def HUB_PARAM_RINGS : Fld := ⟨0x10, 0x0, 20, 4⟩
def HUB_PARAM_STN_PER_RING : Fld := ⟨0x10, 0x0, 24, 6⟩
def HUB_PARAM_TRACE_MIB : Fld := ⟨0x10, 0x0, 30, 5⟩
def HUB_STATUS_RSVD_WRITE : Fld := ⟨0x18, 0x0, 0, 1⟩
def HUB_STATUS_SERVING : Fld := ⟨0x18, 0x0, 1, 1⟩
def HUB_STATUS_PEER_OK : Fld := ⟨0x18, 0x0, 2, 1⟩
def HUB_STATUS_BAD_ACCESS : Fld := ⟨0x18, 0x0, 3, 1⟩
def HUB_STATUS_BRINGUP : Fld := ⟨0x18, 0x0, 4, 3⟩
def HUB_STATUS_FW_IMAGE : Fld := ⟨0x18, 0x0, 7, 1⟩
def HUB_STATUS_FW_IN_SERVICE : Fld := ⟨0x18, 0x0, 8, 1⟩
def HUB_STATUS_TAKEN_OVER : Fld := ⟨0x18, 0x0, 9, 1⟩
def HUB_STATUS_DBG_RESET_SEEN : Fld := ⟨0x18, 0x0, 10, 1⟩
def HUB_STATUS_SCAN_ATTACHED : Fld := ⟨0x18, 0x0, 11, 1⟩
def HUB_PKG_PKG_NUM : Fld := ⟨0x20, 0x0, 0, 8⟩
def HUB_PKG_IN_JOB : Fld := ⟨0x20, 0x0, 8, 1⟩
def HUB_SERIAL_SERIAL : Fld := ⟨0x28, 0x0, 0, 64⟩
def HUB_PRESENT_LO_PRESENT : Fld := ⟨0x30, 0x0, 0, 64⟩
def HUB_PRESENT_HI_PRESENT : Fld := ⟨0x38, 0x0, 0, 36⟩
def HUB_HIDDEN_LO_HIDDEN : Fld := ⟨0x40, 0x0, 0, 64⟩
def HUB_HIDDEN_HI_HIDDEN : Fld := ⟨0x48, 0x0, 0, 36⟩
def HUB_COUNTS_COMPUTE_DIES : Fld := ⟨0x50, 0x0, 0, 7⟩
def HUB_COUNTS_CORES_UP : Fld := ⟨0x50, 0x0, 7, 14⟩
def HUB_COUNTS_CORES_HIDDEN : Fld := ⟨0x50, 0x0, 21, 14⟩
def HUB_COUNTS_HBM_STACKS : Fld := ⟨0x50, 0x0, 35, 6⟩
def HUB_SCRATCH_SCRATCH : Fld := ⟨0x58, 0x0, 0, 64⟩
def STN_ID_DIE : Fld := ⟨0x0, 0x0, 0, 7⟩
def STN_ID_KIND : Fld := ⟨0x0, 0x0, 8, 2⟩
def STN_ID_RING : Fld := ⟨0x0, 0x0, 10, 2⟩
def STN_ID_TAPS : Fld := ⟨0x0, 0x0, 16, 9⟩
def STN_ID_PORTS : Fld := ⟨0x0, 0x0, 32, 5⟩
def SPN_CTL_TIMEOUT_US : Fld := ⟨0x200, 0x0, 0, 16⟩
def SPN_CTL_RETRIES : Fld := ⟨0x200, 0x0, 16, 4⟩
def SPN_STATUS_RING_UP : Fld := ⟨0x208, 0x0, 0, 4⟩
def SPN_STATUS_MASKED : Fld := ⟨0x208, 0x0, 4, 4⟩
def SPN_STATUS_SPLIT : Fld := ⟨0x208, 0x0, 8, 4⟩
def SPN_SHARE_SHARE : Fld := ⟨0x210, 0x0, 0, 7⟩
def SPN_TRUNK_TRUNK_UP : Fld := ⟨0x218, 0x0, 0, 4⟩
def SPN_TRUNK_TRUNK_BREAKS : Fld := ⟨0x218, 0x0, 8, 8⟩
def SPN_RING_STAT_BREAK_POS : Fld := ⟨0x220, 0x20, 0, 5⟩
def SPN_RING_STAT_REACH : Fld := ⟨0x220, 0x20, 8, 25⟩
def SPN_RING_STAT_BREAK_HI : Fld := ⟨0x220, 0x20, 33, 5⟩
def SPN_RING_ERR_CRC_ERR : Fld := ⟨0x228, 0x20, 0, 16⟩
def SPN_RING_ERR_RESENDS : Fld := ⟨0x228, 0x20, 16, 16⟩
def SPN_RING_ERR_TIMEOUTS : Fld := ⟨0x228, 0x20, 32, 16⟩
def SPN_RING_ERR_BREAKS : Fld := ⟨0x228, 0x20, 48, 8⟩
def SPN_RING_LOAD_STALL_US : Fld := ⟨0x230, 0x20, 0, 32⟩
def STN_SPN_STAT_POS : Fld := ⟨0x8, 0x0, 0, 5⟩
def STN_SPN_STAT_SEG_CW_OK : Fld := ⟨0x8, 0x0, 5, 1⟩
def STN_SPN_STAT_SEG_CCW_OK : Fld := ⟨0x8, 0x0, 6, 1⟩
def STN_SPN_STAT_WRAP_CW : Fld := ⟨0x8, 0x0, 7, 1⟩
def STN_SPN_STAT_WRAP_CCW : Fld := ⟨0x8, 0x0, 8, 1⟩
def STN_SPN_ERR_CRC_ERR : Fld := ⟨0x10, 0x0, 0, 16⟩
def STN_SPN_ERR_DUP_TAG : Fld := ⟨0x10, 0x0, 16, 8⟩
def STN_SPN_ERR_EVT_LOST : Fld := ⟨0x10, 0x0, 24, 8⟩
def STN_SPN_ERR_BAD_TYPE : Fld := ⟨0x10, 0x0, 32, 8⟩
def GTC_NOW_NOW : Fld := ⟨0x100, 0x0, 0, 64⟩
def GTC_STATUS_REF_OK : Fld := ⟨0x108, 0x0, 0, 1⟩
def GTC_STATUS_PPS_OK : Fld := ⟨0x108, 0x0, 1, 1⟩
def GTC_STATUS_LOCKED : Fld := ⟨0x108, 0x0, 2, 1⟩
def GTC_STATUS_HOLDOVER : Fld := ⟨0x108, 0x0, 3, 1⟩
def GTC_STATUS_VOID : Fld := ⟨0x108, 0x0, 4, 1⟩
def GTC_STATUS_TOD_VALID : Fld := ⟨0x108, 0x0, 5, 1⟩
def GTC_STATUS_SLEWING : Fld := ⟨0x108, 0x0, 6, 1⟩
def GTC_STATUS_TOD_REFUSED : Fld := ⟨0x108, 0x0, 7, 1⟩
def GTC_STATUS_HOLD_MS : Fld := ⟨0x108, 0x0, 16, 32⟩
def GTC_TOD_NEXT_SECONDS : Fld := ⟨0x110, 0x0, 0, 34⟩
def GTC_TOD_NEXT_ARM : Fld := ⟨0x110, 0x0, 63, 1⟩
def GTC_PPS_PPS_ERR : Fld := ⟨0x118, 0x0, 0, 32⟩
def GTC_PPS_PPS_COUNT : Fld := ⟨0x118, 0x0, 32, 32⟩
def GTC_LEAD_LEAD_DIE_US : Fld := ⟨0x120, 0x0, 0, 8⟩
def GTC_LEAD_LEAD_PKG_US : Fld := ⟨0x120, 0x0, 8, 8⟩
def GTC_LEAD_LEAD_JOB_US : Fld := ⟨0x120, 0x0, 16, 8⟩
def GTC_LEAD_NOW_GRAN : Fld := ⟨0x120, 0x0, 24, 8⟩
def GTC_RING_LOOP_NS : Fld := ⟨0x140, 0x8, 0, 16⟩
def GTC_RING_AGE_MS : Fld := ⟨0x140, 0x8, 16, 16⟩
def STN_GTC_NOW_NOW : Fld := ⟨0x1000, 0x0, 0, 64⟩
def STN_GTC_STAT_ALIGNED : Fld := ⟨0x1008, 0x0, 0, 1⟩
def STN_GTC_STAT_LAST_ERR : Fld := ⟨0x1008, 0x0, 16, 16⟩
def STN_GTC_STAT_STEPS : Fld := ⟨0x1008, 0x0, 32, 16⟩
def STN_GTC_STAT_WPT_PENDING : Fld := ⟨0x1008, 0x0, 48, 5⟩
def STN_GTC_PATH_PATH_CW : Fld := ⟨0x1010, 0x0, 0, 16⟩
def STN_GTC_PATH_PATH_CCW : Fld := ⟨0x1010, 0x0, 16, 16⟩
def STN_GTC_PATH_WIRE_CW : Fld := ⟨0x1010, 0x0, 32, 16⟩
def STN_GTC_TRUNK_TRUNK_UP : Fld := ⟨0x1018, 0x0, 0, 16⟩
def STN_GTC_TRUNK_TRUNK_DOWN : Fld := ⟨0x1018, 0x0, 16, 16⟩
def RUN_CTL_WDT_GRACE_US : Fld := ⟨0x800, 0x0, 0, 32⟩
def RUN_ORPHAN_POLICY : Fld := ⟨0x808, 0x0, 0, 2⟩
def RUN_ORPHAN_AFTER_MS : Fld := ⟨0x808, 0x0, 8, 32⟩
def RUN_STATUS_HALTED : Fld := ⟨0x810, 0x0, 0, 16⟩
def RUN_STATUS_LATE : Fld := ⟨0x810, 0x0, 16, 16⟩
def RUN_STATUS_PART_HALTS : Fld := ⟨0x810, 0x0, 32, 9⟩
def RUN_STATUS_PKG_HALT : Fld := ⟨0x810, 0x0, 41, 1⟩
def RUN_STATUS_JOB_HALT : Fld := ⟨0x810, 0x0, 42, 1⟩
def RUN_STATUS_ORPHANS : Fld := ⟨0x810, 0x0, 48, 8⟩
def RUN_FRZ_SEL_PART : Fld := ⟨0x818, 0x0, 0, 8⟩
def RUN_FRZ_VAL_CLASSES : Fld := ⟨0x820, 0x0, 0, 5⟩
def RUN_EVT_CNT_HALT_LATE : Fld := ⟨0x828, 0x0, 0, 16⟩
def RUN_EVT_CNT_LATE_JOIN : Fld := ⟨0x828, 0x0, 16, 16⟩
def RUN_EVT_CNT_SE_REFUSED : Fld := ⟨0x828, 0x0, 32, 16⟩
def RUN_EVT_CNT_ORPHANS : Fld := ⟨0x828, 0x0, 48, 8⟩
def STN_RUN_PHALT_PHALT : Fld := ⟨0x2000, 0x8, 0, 64⟩
def STN_RUN_CTL_PKG_HALT : Fld := ⟨0x2020, 0x0, 0, 1⟩
def STN_RUN_CTL_JOB_HALT : Fld := ⟨0x2020, 0x0, 1, 1⟩
def TAP_RUN_STATE_STATE : Fld := ⟨0x0, 0x0, 0, 16⟩
def TAP_RUN_STATE_HALT_ON_WAKE : Fld := ⟨0x0, 0x0, 16, 1⟩
def TAP_RUN_STATE_LOCK_HELD : Fld := ⟨0x0, 0x0, 17, 1⟩
def TAP_RUN_HREC_T_STAMP : Fld := ⟨0x10, 0x10, 0, 64⟩
def TAP_RUN_HREC_REASON : Fld := ⟨0x18, 0x10, 0, 4⟩
def TAP_RUN_HREC_LATE : Fld := ⟨0x18, 0x10, 4, 1⟩
def TAP_RUN_HREC_LOCK_HELD : Fld := ⟨0x18, 0x10, 5, 1⟩
def TAP_RUN_HREC_MID_ENTRY : Fld := ⟨0x18, 0x10, 6, 1⟩
def TAP_RUN_HREC_CLID : Fld := ⟨0x18, 0x10, 16, 16⟩
def TAP_RUN_HREC_ENTRY : Fld := ⟨0x18, 0x10, 32, 32⟩
def TAP_RUN_RETIRED_RETIRED : Fld := ⟨0x50, 0x0, 0, 64⟩
def TAP_BRK_CTL_EN : Fld := ⟨0x400, 0x10, 0, 1⟩
def TAP_BRK_CTL_ENGINE : Fld := ⟨0x400, 0x10, 1, 2⟩
def TAP_BRK_CTL_ACTION : Fld := ⟨0x400, 0x10, 3, 2⟩
def TAP_BRK_CTL_TRIG_EN : Fld := ⟨0x400, 0x10, 5, 1⟩
def TAP_BRK_CTL_TRIGGER : Fld := ⟨0x400, 0x10, 6, 6⟩
def TAP_BRK_CTL_SKIP : Fld := ⟨0x400, 0x10, 16, 16⟩
def TAP_BRK_CTL_CLID : Fld := ⟨0x400, 0x10, 32, 16⟩
def TAP_BRK_ENTRY_ENTRY : Fld := ⟨0x408, 0x10, 0, 32⟩
def TAP_WP_BASE_VAL : Fld := ⟨0x480, 0x18, 0, 64⟩
def TAP_WP_LIMIT_VAL : Fld := ⟨0x488, 0x18, 0, 64⟩
def TAP_WP_CTL_EN : Fld := ⟨0x490, 0x18, 0, 1⟩
def TAP_WP_CTL_TYPES : Fld := ⟨0x490, 0x18, 1, 3⟩
def TAP_WP_CTL_ACTION : Fld := ⟨0x490, 0x18, 4, 2⟩
def TAP_WP_CTL_TRIG_EN : Fld := ⟨0x490, 0x18, 6, 1⟩
def TAP_WP_CTL_TRIGGER : Fld := ⟨0x490, 0x18, 7, 6⟩
def TAP_WP_CTL_SKIP : Fld := ⟨0x490, 0x18, 16, 16⟩
def TAP_WP_CTL_ENGMASK : Fld := ⟨0x490, 0x18, 32, 4⟩
def TAP_BRK_HIT_BRK : Fld := ⟨0x4e0, 0x0, 0, 8⟩
def TAP_BRK_HIT_WP : Fld := ⟨0x4e0, 0x0, 8, 4⟩
def TAP_WP_LAST_ADDR : Fld := ⟨0x4e8, 0x0, 0, 64⟩
def TAP_FRZ_SET : Fld := ⟨0x1400, 0x0, 0, 5⟩
def TAP_FRZ_ASSERTED : Fld := ⟨0x1400, 0x0, 8, 5⟩
def STH_STATUS_USED : Fld := ⟨0x900, 0x0, 0, 8⟩
def STH_STATUS_CAPTURING : Fld := ⟨0x900, 0x0, 8, 8⟩
def STH_STATUS_PINNING : Fld := ⟨0x900, 0x0, 16, 8⟩
def STH_SEL_SLOT : Fld := ⟨0x908, 0x0, 0, 3⟩
def STH_SEL_STACK : Fld := ⟨0x908, 0x0, 8, 5⟩
def STH_SLOT_STATE : Fld := ⟨0x910, 0x0, 0, 4⟩
def STH_SLOT_KIND : Fld := ⟨0x910, 0x0, 4, 3⟩
def STH_SLOT_COMPOSER : Fld := ⟨0x910, 0x0, 7, 1⟩
def STH_SLOT_PART : Fld := ⟨0x910, 0x0, 8, 8⟩
def STH_SLOT_QUIRES : Fld := ⟨0x910, 0x0, 32, 7⟩
def STH_SLOT_T_T : Fld := ⟨0x918, 0x0, 0, 64⟩
def STH_STACK_CAP_RUN : Fld := ⟨0x920, 0x0, 0, 18⟩
def STH_STACK_PRS_RUN : Fld := ⟨0x920, 0x0, 18, 18⟩
def STH_STACK_OVF_FREE : Fld := ⟨0x920, 0x0, 36, 13⟩
def STH_STACK_TRAINED : Fld := ⟨0x920, 0x0, 49, 1⟩
def STH_CNT_STITCHES : Fld := ⟨0x928, 0x0, 0, 16⟩
def STH_CNT_CUT_INCOMPLETE : Fld := ⟨0x928, 0x0, 16, 16⟩
def STH_CNT_CLAIMS : Fld := ⟨0x928, 0x0, 32, 16⟩
def STH_CNT_IN_PLACE : Fld := ⟨0x928, 0x0, 48, 16⟩
def STN_CAP_STAT_STATE : Fld := ⟨0x4000, 0x0, 0, 3⟩
def STN_CAP_STAT_SLOT : Fld := ⟨0x4000, 0x0, 8, 3⟩
def STN_CAP_STAT_FOLIOS_DONE : Fld := ⟨0x4000, 0x0, 32, 32⟩
def STN_CAP_HBASE_BASE : Fld := ⟨0x4008, 0x0, 0, 64⟩
def STN_CUT_STAT_STATE : Fld := ⟨0x200000, 0x100, 0, 3⟩
def STN_CUT_STAT_MARKER : Fld := ⟨0x200000, 0x100, 3, 1⟩
def STN_CUT_STAT_FULL : Fld := ⟨0x200000, 0x100, 4, 1⟩
def STN_CUT_STAT_RECORDS : Fld := ⟨0x200000, 0x100, 8, 24⟩
def STN_CUT_STAT_FILL : Fld := ⟨0x200000, 0x100, 32, 21⟩
def CDC_ID_VERSIONS : Fld := ⟨0xa00, 0x0, 0, 16⟩
def CDC_ID_CLASSES : Fld := ⟨0xa00, 0x0, 16, 3⟩
def CDC_ID_MAX_ENC_MIB : Fld := ⟨0xa00, 0x0, 32, 8⟩
def CDC_STATUS_BUSY : Fld := ⟨0xa08, 0x0, 0, 1⟩
def CDC_STATUS_QUEUED : Fld := ⟨0xa08, 0x0, 8, 8⟩
def CDC_ENC_CNT_ENCODED : Fld := ⟨0xa10, 0x0, 0, 32⟩
def CDC_ENC_CNT_INCOMPRESSIBLE : Fld := ⟨0xa10, 0x0, 32, 16⟩
def CDC_ENC_CNT_SELFCHECK : Fld := ⟨0xa10, 0x0, 48, 16⟩
def CDC_DEC_CNT_DECODED : Fld := ⟨0xa18, 0x0, 0, 32⟩
def CDC_DEC_CNT_FAILED : Fld := ⟨0xa18, 0x0, 32, 16⟩
def CDC_DEC_CNT_STUBS : Fld := ⟨0xa18, 0x0, 48, 16⟩
def STN_CDC_CNT_ENCODED : Fld := ⟨0x5000, 0x0, 0, 32⟩
def STN_CDC_CNT_INCOMPRESSIBLE : Fld := ⟨0x5000, 0x0, 32, 16⟩
def STN_CDC_CNT_SELFCHECK : Fld := ⟨0x5000, 0x0, 48, 16⟩
def STN_CDC_LAST_SEQ : Fld := ⟨0x5008, 0x0, 0, 32⟩
def STN_CDC_LAST_USE : Fld := ⟨0x5008, 0x0, 32, 2⟩
def STN_CDC_LAST_SLOT : Fld := ⟨0x5008, 0x0, 36, 3⟩
def TLY_STATUS_BUSY : Fld := ⟨0xb00, 0x0, 0, 1⟩
def TLY_STATUS_QUEUED : Fld := ⟨0xb00, 0x0, 8, 8⟩
def TLY_STATUS_PARTS_ACTIVE : Fld := ⟨0xb00, 0x0, 16, 16⟩
def TLY_CNT_TALLIES : Fld := ⟨0xb08, 0x0, 0, 16⟩
def TLY_CNT_COMPARES : Fld := ⟨0xb08, 0x0, 16, 16⟩
def TLY_CNT_MISMATCHES : Fld := ⟨0xb08, 0x0, 32, 16⟩
def TLY_CNT_FIRST_FAULTS : Fld := ⟨0xb08, 0x0, 48, 16⟩
def TLY_BYTES_BYTES : Fld := ⟨0xb10, 0x0, 0, 64⟩
def TLY_ERR_READ_ERR : Fld := ⟨0xb18, 0x0, 0, 16⟩
def TLY_ERR_MOVED : Fld := ⟨0xb18, 0x0, 16, 16⟩
def STN_TLY_STAT_STATE : Fld := ⟨0x6000, 0x0, 0, 2⟩
def STN_TLY_STAT_FORMAT : Fld := ⟨0x6000, 0x0, 8, 4⟩
def STN_TLY_STAT_KIB_DONE : Fld := ⟨0x6000, 0x0, 32, 32⟩
def STN_SNT_SUM_COUNT : Fld := ⟨0x6010, 0x0, 0, 10⟩
def STN_SNT_SUM_LISTED : Fld := ⟨0x6010, 0x0, 16, 7⟩
def STN_SNT_LIST_WORD : Fld := ⟨0x6100, 0x8, 0, 64⟩
def TAP_SNT_CTL_KINDS : Fld := ⟨0x800, 0x40, 0, 4⟩
def TAP_SNT_CTL_EVT_EN : Fld := ⟨0x800, 0x40, 4, 1⟩
def TAP_SNT_CTL_TRIG_EN : Fld := ⟨0x800, 0x40, 5, 1⟩
def TAP_SNT_CTL_TRIGGER : Fld := ⟨0x800, 0x40, 6, 6⟩
def TAP_SNT_CTL_EXP_THR : Fld := ⟨0x800, 0x40, 12, 9⟩
def TAP_SNT_FIRST_VALID : Fld := ⟨0x808, 0x40, 0, 1⟩
def TAP_SNT_FIRST_PRIV : Fld := ⟨0x808, 0x40, 1, 1⟩
def TAP_SNT_FIRST_KIND : Fld := ⟨0x808, 0x40, 8, 4⟩
def TAP_SNT_FIRST_FORMAT : Fld := ⟨0x808, 0x40, 12, 4⟩
def TAP_SNT_FIRST_CLID : Fld := ⟨0x808, 0x40, 16, 16⟩
def TAP_SNT_FIRST_ENTRY : Fld := ⟨0x808, 0x40, 32, 32⟩
def TAP_SNT_FIRST_T_STAMP : Fld := ⟨0x810, 0x40, 0, 64⟩
def TAP_SNT_ADDR_ADDR : Fld := ⟨0x818, 0x40, 0, 64⟩
def TAP_SNT_CNT_NAN : Fld := ⟨0x820, 0x40, 0, 16⟩
def TAP_SNT_CNT_INF : Fld := ⟨0x820, 0x40, 16, 16⟩
def TAP_SNT_CNT_SAT : Fld := ⟨0x820, 0x40, 32, 16⟩
def TAP_SNT_CNT_EXP : Fld := ⟨0x820, 0x40, 48, 16⟩
def TRC_STATUS_CONFIGURED : Fld := ⟨0xc00, 0x0, 0, 8⟩
def TRC_STATUS_RUNNING : Fld := ⟨0xc00, 0x0, 8, 8⟩
def TRC_STATUS_DRAINING : Fld := ⟨0xc00, 0x0, 16, 8⟩
def TRC_STATUS_MERGE_KIB : Fld := ⟨0xc00, 0x0, 24, 15⟩
def TRC_SEL_SLOT : Fld := ⟨0xc08, 0x0, 0, 3⟩
def TRC_SLOT_STATE : Fld := ⟨0xc10, 0x0, 0, 3⟩
def TRC_SLOT_MODE : Fld := ⟨0xc10, 0x0, 3, 2⟩
def TRC_SLOT_KIND : Fld := ⟨0xc10, 0x0, 5, 3⟩
def TRC_SLOT_CLASS : Fld := ⟨0xc10, 0x0, 8, 4⟩
def TRC_SLOT_LINKS : Fld := ⟨0xc10, 0x0, 12, 1⟩
def TRC_SLOT_PART : Fld := ⟨0xc10, 0x0, 16, 8⟩
def TRC_SLOT_FRAMES : Fld := ⟨0xc10, 0x0, 24, 11⟩
def TRC_SLOT_H_HORIZON : Fld := ⟨0xc18, 0x0, 0, 64⟩
def TRC_CNT_MERGED : Fld := ⟨0xc20, 0x0, 0, 32⟩
def TRC_CNT_OVERRUNS : Fld := ⟨0xc20, 0x0, 32, 16⟩
def TRC_CNT_CORRUPT : Fld := ⟨0xc20, 0x0, 48, 16⟩
def TRC_LOST_LOST : Fld := ⟨0xc28, 0x0, 0, 48⟩
def TRC_BURST_GAP_NS : Fld := ⟨0xc30, 0x0, 0, 16⟩
def STN_TRC_STAT_FREE_FRAMES : Fld := ⟨0x7000, 0x0, 0, 11⟩
def STN_TRC_STAT_RUNNING : Fld := ⟨0x7000, 0x0, 16, 8⟩
def STN_TRC_STAT_STOPPED : Fld := ⟨0x7000, 0x0, 24, 8⟩
def STN_TRC_SLOT_FRAMES : Fld := ⟨0x7100, 0x10, 0, 11⟩
def STN_TRC_SLOT_FILLED : Fld := ⟨0x7100, 0x10, 11, 11⟩
def STN_TRC_SLOT_SEQ : Fld := ⟨0x7100, 0x10, 32, 32⟩
def STN_TRC_LOST_LOST : Fld := ⟨0x7108, 0x10, 0, 32⟩
def STN_TRC_LOST_OVERRUNS : Fld := ⟨0x7108, 0x10, 32, 16⟩
def STN_TRC_LOST_CORRUPT : Fld := ⟨0x7108, 0x10, 48, 16⟩
def STN_TRC_LINK_EN : Fld := ⟨0x7200, 0x8, 0, 1⟩
def STN_TRC_LINK_DIR : Fld := ⟨0x7200, 0x8, 1, 2⟩
def STN_TRC_LINK_PRIV_OK : Fld := ⟨0x7200, 0x8, 3, 1⟩
def STN_TRC_LINK_VC : Fld := ⟨0x7200, 0x8, 4, 8⟩
def STN_TRC_LINK_SLOT : Fld := ⟨0x7200, 0x8, 12, 3⟩
def TAP_TRC_CTL_EN : Fld := ⟨0xc00, 0x0, 0, 1⟩
def TAP_TRC_CTL_SLOT : Fld := ⟨0xc00, 0x0, 1, 3⟩
def TAP_TRC_CTL_TYPES : Fld := ⟨0xc00, 0x0, 4, 4⟩
def TAP_TRC_CTL_ENGMASK : Fld := ⟨0xc00, 0x0, 8, 4⟩
def TAP_TRC_CTL_SAMPLE : Fld := ⟨0xc00, 0x0, 12, 4⟩
def TAP_TRC_CTL_RANGE_EN : Fld := ⟨0xc00, 0x0, 16, 4⟩
def TAP_TRC_CTL_PRIV_OK : Fld := ⟨0xc00, 0x0, 20, 1⟩
def TAP_TRC_BASE_VAL : Fld := ⟨0xc10, 0x10, 0, 64⟩
def TAP_TRC_LIMIT_VAL : Fld := ⟨0xc18, 0x10, 0, 64⟩
def TAP_TRC_MARK_VALUE : Fld := ⟨0xc50, 0x0, 0, 64⟩
def TAP_TRC_STAT_QUEUE : Fld := ⟨0xc58, 0x0, 0, 6⟩
def TAP_TRC_STAT_LOST : Fld := ⟨0xc58, 0x0, 16, 32⟩
def RTN_STATUS_RESIDENT : Fld := ⟨0xd00, 0x0, 0, 6⟩
def RTN_STATUS_PINNED : Fld := ⟨0xd00, 0x0, 6, 6⟩
def RTN_STATUS_RUNNING : Fld := ⟨0xd00, 0x0, 12, 4⟩
def RTN_STATUS_ARMED : Fld := ⟨0xd00, 0x0, 16, 7⟩
def RTN_STATUS_QUEUED : Fld := ⟨0xd00, 0x0, 24, 7⟩
def RTN_ARMED_ARMED : Fld := ⟨0xd08, 0x0, 0, 64⟩
def RTN_PENDING_PENDING : Fld := ⟨0xd10, 0x0, 0, 64⟩
def RTN_DOORBELL_RING : Fld := ⟨0xd18, 0x0, 0, 64⟩
def RTN_TRIG_SEL_TRIGGER : Fld := ⟨0xd20, 0x0, 0, 6⟩
def RTN_TRIG_SOURCE : Fld := ⟨0xd28, 0x0, 0, 4⟩
def RTN_TRIG_ACTION : Fld := ⟨0xd28, 0x0, 4, 2⟩
def RTN_TRIG_ONESHOT : Fld := ⟨0xd28, 0x0, 6, 1⟩
def RTN_TRIG_OUT_EN : Fld := ⟨0xd28, 0x0, 7, 1⟩
def RTN_TRIG_PART : Fld := ⟨0xd28, 0x0, 8, 8⟩
def RTN_TRIG_FIRES : Fld := ⟨0xd28, 0x0, 16, 32⟩
def RTN_TRIG_DROPPED : Fld := ⟨0xd28, 0x0, 48, 16⟩
def RTN_CNT_RUNS : Fld := ⟨0xd30, 0x0, 0, 32⟩
def RTN_CNT_BUDGET : Fld := ⟨0xd30, 0x0, 32, 8⟩
def RTN_CNT_FOREIGN : Fld := ⟨0xd30, 0x0, 40, 8⟩
def RTN_CNT_DROPPED : Fld := ⟨0xd30, 0x0, 48, 16⟩
def RTN_STEPS_STEPS : Fld := ⟨0xd38, 0x0, 0, 64⟩
def RTN_LIMITS_MAX_STEPS : Fld := ⟨0xd40, 0x0, 0, 10⟩
def RTN_LIMITS_SLOTS : Fld := ⟨0xd40, 0x0, 10, 7⟩
def RTN_LIMITS_TRIGGERS : Fld := ⟨0xd40, 0x0, 17, 7⟩
def RTN_LIMITS_RUNS : Fld := ⟨0xd40, 0x0, 24, 8⟩
def RTN_LIMITS_BUDGET : Fld := ⟨0xd40, 0x0, 32, 17⟩
def SLOT_STAT_SESSION : Fld := ⟨0x400, 0x20, 0, 32⟩
def SLOT_STAT_STATE : Fld := ⟨0x400, 0x20, 32, 2⟩
def SLOT_STAT_PINNED : Fld := ⟨0x400, 0x20, 34, 1⟩
def SLOT_STAT_OPEN : Fld := ⟨0x400, 0x20, 35, 1⟩
def SLOT_STAT_HELD : Fld := ⟨0x400, 0x20, 40, 5⟩
def SLOT_SQ_SQ_PROD : Fld := ⟨0x408, 0x20, 0, 32⟩
def SLOT_SQ_SQ_CONS : Fld := ⟨0x408, 0x20, 32, 32⟩
def SLOT_EQ_EQ_PROD : Fld := ⟨0x410, 0x20, 0, 32⟩
def SLOT_EQ_NEXT_SEQ : Fld := ⟨0x410, 0x20, 32, 32⟩
def IF_CTL_ENABLE : Fld := ⟨0x418, 0x0, 0, 1⟩
def IF_CTL_VECTOR : Fld := ⟨0x418, 0x0, 8, 6⟩
def IF_CTL_VEC_EN : Fld := ⟨0x418, 0x0, 14, 1⟩
def IF_ROOT_BASE : Fld := ⟨0x438, 0x0, 12, 52⟩
def DOORBELL_SESSION : Fld := ⟨0x458, 0x0, 0, 32⟩
def DOORBELL_SQ_PROD : Fld := ⟨0x458, 0x0, 32, 32⟩
def IF_STATUS_ENABLED : Fld := ⟨0x478, 0x0, 0, 1⟩
def IF_STATUS_ROOT_BAD : Fld := ⟨0x478, 0x0, 1, 1⟩
def IF_STATUS_RESIDENT : Fld := ⟨0x478, 0x0, 8, 6⟩
def IF_STATUS_PINNED : Fld := ⟨0x478, 0x0, 14, 6⟩
def IF_LIMITS_DESCRIPTORS : Fld := ⟨0x498, 0x0, 0, 16⟩
def IF_LIMITS_SLOTS : Fld := ⟨0x498, 0x0, 16, 8⟩
def IF_LIMITS_MAX_LEN : Fld := ⟨0x498, 0x0, 24, 16⟩
def IF_LIMITS_PEEK_MAX : Fld := ⟨0x498, 0x0, 40, 16⟩
def IF_LIMITS_VECTORS : Fld := ⟨0x498, 0x0, 56, 8⟩
def IF_ERR_BAD_DOORBELL : Fld := ⟨0x4b8, 0x0, 0, 16⟩
def IF_ERR_BAD_DESC : Fld := ⟨0x4b8, 0x0, 16, 16⟩
def IF_ERR_NO_SLOT : Fld := ⟨0x4b8, 0x0, 32, 16⟩
def IF_ERR_EVENTS_LOST : Fld := ⟨0x4b8, 0x0, 48, 16⟩
def IF_CNT_PACKETS : Fld := ⟨0x4d8, 0x0, 0, 32⟩
def IF_CNT_PAGE_INS : Fld := ⟨0x4d8, 0x0, 32, 16⟩
def IF_CNT_EVICTIONS : Fld := ⟨0x4d8, 0x0, 48, 16⟩
def BUP_STATUS_STEP : Fld := ⟨0xe00, 0x0, 0, 4⟩
def BUP_STATUS_PATH : Fld := ⟨0xe00, 0x0, 4, 2⟩
def BUP_STATUS_WAIT_LICENCE : Fld := ⟨0xe00, 0x0, 6, 1⟩
def BUP_STATUS_LIC_PENDING : Fld := ⟨0xe00, 0x0, 7, 1⟩
def BUP_STATUS_STALE : Fld := ⟨0xe00, 0x0, 8, 1⟩
def BUP_STATUS_DIFFS : Fld := ⟨0xe00, 0x0, 16, 10⟩
def BUP_STATUS_BAD_ENTRIES : Fld := ⟨0xe00, 0x0, 26, 10⟩
def BUP_STATUS_OVER : Fld := ⟨0xe00, 0x0, 36, 10⟩
def BUP_TIME_LAST_MS : Fld := ⟨0xe08, 0x0, 0, 32⟩
def BUP_BOOT_CHUNKS : Fld := ⟨0xe10, 0x0, 0, 10⟩
def BUP_BOOT_ROUNDS : Fld := ⟨0xe10, 0x0, 10, 2⟩
def BUP_BOOT_UNICASTS : Fld := ⟨0xe10, 0x0, 12, 14⟩
def BUP_BOOT_DEFECT_BOOT : Fld := ⟨0xe10, 0x0, 26, 14⟩
def BUP_TRAIN_REUSED : Fld := ⟨0xe18, 0x0, 0, 10⟩
def BUP_TRAIN_RETRAINED : Fld := ⟨0xe18, 0x0, 10, 10⟩
def BUP_TRAIN_DEAD : Fld := ⟨0xe18, 0x0, 20, 10⟩
def BUP_LIC_LICENCE_ID : Fld := ⟨0xe20, 0x0, 0, 32⟩
def BUP_LIC_PART_MAX : Fld := ⟨0xe20, 0x0, 32, 9⟩
def BUP_LIC_COMPUTE_DIES : Fld := ⟨0xe20, 0x0, 41, 7⟩
def BUP_LIC_STACKS : Fld := ⟨0xe20, 0x0, 48, 6⟩
def BUP_LIC_EXT_PORTS : Fld := ⟨0xe20, 0x0, 54, 6⟩
def BUP_TOL_SPARE_LINKS : Fld := ⟨0xe28, 0x0, 0, 8⟩
def BUP_TOL_SPARE_CORES : Fld := ⟨0xe28, 0x0, 8, 14⟩
def BUP_TOL_SPARE_CHANNELS : Fld := ⟨0xe28, 0x0, 22, 8⟩
def BUP_MODE_SEL_CLASS : Fld := ⟨0xe30, 0x0, 0, 2⟩
def BUP_MODE_EPOCH : Fld := ⟨0xe38, 0x0, 0, 32⟩
def BUP_MODE_STAGED : Fld := ⟨0xe38, 0x0, 32, 1⟩
def BUP_MODE_COMMITTING : Fld := ⟨0xe38, 0x0, 33, 1⟩
def BUP_MODE_SPLIT : Fld := ⟨0xe38, 0x0, 34, 1⟩
def STN_BIND_EPOCH : Fld := ⟨0x8000, 0x8, 0, 32⟩
def STN_BIND_PART : Fld := ⟨0x8000, 0x8, 32, 8⟩
def STN_BIND_BOUND : Fld := ⟨0x8000, 0x8, 40, 1⟩
def STN_BIND_HIDDEN : Fld := ⟨0x8000, 0x8, 41, 1⟩
def STN_BUP_STAT_BOOT : Fld := ⟨0x8500, 0x0, 0, 3⟩
def STN_BUP_STAT_TABLE_OK : Fld := ⟨0x8500, 0x0, 3, 1⟩
def STN_BUP_STAT_CHUNKS_OK : Fld := ⟨0x8500, 0x0, 4, 10⟩
def STN_BUP_STAT_CORES_SHORT : Fld := ⟨0x8500, 0x0, 14, 8⟩
def STN_BUP_STAT_CORES_BOOTED : Fld := ⟨0x8500, 0x0, 22, 8⟩
def STN_BUP_STAT_TEMP : Fld := ⟨0x8500, 0x0, 30, 16⟩
def STN_BUP_SEL_CORE : Fld := ⟨0x8508, 0x0, 0, 7⟩
def STN_BUP_TAB_TCRC : Fld := ⟨0x8510, 0x0, 0, 32⟩
def STN_BUP_TAB_CHUNKS : Fld := ⟨0x8510, 0x0, 32, 10⟩
def STN_BUP_SHORT_SHORT : Fld := ⟨0x8520, 0x8, 0, 64⟩
def STN_BUP_MISS_MISS : Fld := ⟨0x8540, 0x8, 0, 64⟩
def STN_BUP_PORT_WIDTH : Fld := ⟨0x8580, 0x8, 0, 2⟩
def STN_BUP_PORT_SPEED : Fld := ⟨0x8580, 0x8, 2, 2⟩
def STN_BUP_PORT_UP : Fld := ⟨0x8580, 0x8, 4, 1⟩
def STN_BUP_PORT_REUSED : Fld := ⟨0x8580, 0x8, 5, 1⟩
def STN_BUP_PORT_DEAD : Fld := ⟨0x8580, 0x8, 6, 1⟩
def STN_BUP_PORT_REASON : Fld := ⟨0x8580, 0x8, 8, 3⟩
def STN_BUP_PORT_EYE_H : Fld := ⟨0x8580, 0x8, 16, 16⟩
def STN_BUP_PORT_EYE_V : Fld := ⟨0x8580, 0x8, 32, 16⟩
def STN_MODE_EPOCH : Fld := ⟨0x8680, 0x8, 0, 32⟩
def STN_MODE_STAGED : Fld := ⟨0x8680, 0x8, 32, 32⟩
def RCV_STATUS_ACTIVE : Fld := ⟨0xf00, 0x0, 0, 9⟩
def RCV_STATUS_HIGHEST : Fld := ⟨0xf00, 0x0, 9, 3⟩
def RCV_STATUS_PWR_REQ : Fld := ⟨0xf00, 0x0, 12, 1⟩
def RCV_STATUS_PEER_ISOLATED : Fld := ⟨0xf00, 0x0, 13, 1⟩
def RCV_POLICY_START_RUNG : Fld := ⟨0xf08, 0x0, 0, 3⟩
def RCV_POLICY_CEILING : Fld := ⟨0xf08, 0x0, 3, 3⟩
def RCV_BOUNDS_TEARDOWN_US : Fld := ⟨0xf10, 0x0, 0, 10⟩
def RCV_BOUNDS_ENGINE_US : Fld := ⟨0xf10, 0x0, 10, 10⟩
def RCV_BOUNDS_PART_US : Fld := ⟨0xf10, 0x0, 20, 12⟩
def RCV_BOUNDS_WARM_MS : Fld := ⟨0xf10, 0x0, 32, 8⟩
def RCV_BOUNDS_DRAIN_US : Fld := ⟨0xf10, 0x0, 40, 10⟩
def RCV_WDT_DEF_PERIOD_MS : Fld := ⟨0xf18, 0x0, 0, 64⟩
def RCV_ESC_SEL_PART : Fld := ⟨0xf20, 0x0, 0, 9⟩
def RCV_ESC_RUNG : Fld := ⟨0xf28, 0x0, 0, 3⟩
def RCV_ESC_CAUSE : Fld := ⟨0xf28, 0x0, 3, 3⟩
def RCV_ESC_ENGINES : Fld := ⟨0xf28, 0x0, 6, 10⟩
def RCV_ESC_CONTEXT_EPOCH : Fld := ⟨0xf28, 0x0, 16, 16⟩
def RCV_ESC_START : Fld := ⟨0xf28, 0x0, 32, 32⟩
def RCV_PWR_REASON : Fld := ⟨0xf30, 0x0, 0, 8⟩
def RCV_PWR_DETAIL : Fld := ⟨0xf30, 0x0, 32, 32⟩
def RCV_FAILOVER_COUNT : Fld := ⟨0xf38, 0x0, 0, 8⟩
def RCV_FAILOVER_AT : Fld := ⟨0xf38, 0x0, 8, 56⟩
def RCV_CNT_EXPIRIES : Fld := ⟨0xf40, 0x0, 0, 16⟩
def RCV_CNT_TEARDOWNS : Fld := ⟨0xf40, 0x0, 16, 16⟩
def RCV_CNT_ENGINE_RESETS : Fld := ⟨0xf40, 0x0, 32, 16⟩
def RCV_CNT_PART_RESETS : Fld := ⟨0xf40, 0x0, 48, 8⟩
def RCV_CNT_WARM_RESETS : Fld := ⟨0xf40, 0x0, 56, 8⟩
def RCV_JOB_SENT : Fld := ⟨0xf48, 0x0, 0, 16⟩
def RCV_JOB_RECEIVED : Fld := ⟨0xf48, 0x0, 16, 16⟩
def RCV_JOB_LATE : Fld := ⟨0xf48, 0x0, 32, 16⟩
def RCV_JOB_BAD : Fld := ⟨0xf48, 0x0, 48, 16⟩
def STN_WDT_SEL_ENTRY : Fld := ⟨0x3000, 0x0, 0, 9⟩
def STN_WDT_ENTRY_REMAIN_US : Fld := ⟨0x3008, 0x0, 0, 32⟩
def STN_WDT_ENTRY_STATE : Fld := ⟨0x3008, 0x0, 32, 3⟩
def STN_WDT_EXP_EXP : Fld := ⟨0x3040, 0x8, 0, 64⟩
def STN_RST_STAT_RUNG : Fld := ⟨0x3100, 0x0, 0, 3⟩
def STN_RST_STAT_PART : Fld := ⟨0x3100, 0x0, 3, 8⟩
def STN_RST_STAT_NOT_IDLE : Fld := ⟨0x3100, 0x0, 11, 10⟩
def STN_RST_STAT_PENDING : Fld := ⟨0x3100, 0x0, 21, 8⟩
def STN_RCV_DROP_DROPPED : Fld := ⟨0x3108, 0x0, 0, 32⟩
def STN_RCV_DROP_DRAIN_LATE : Fld := ⟨0x3108, 0x0, 32, 16⟩
def STN_CTX_EPOCH : Fld := ⟨0x3200, 0x8, 0, 64⟩
def LCY_STATE_STATE : Fld := ⟨0x1000, 0x0, 0, 3⟩
def LCY_STATE_UNLOCKED : Fld := ⟨0x1000, 0x0, 3, 1⟩
def LCY_STATE_TORN_DONE : Fld := ⟨0x1000, 0x0, 4, 1⟩
def LCY_STATE_IN_TRANSITION : Fld := ⟨0x1000, 0x0, 5, 1⟩
def LCY_STATE_TOKENS_USED : Fld := ⟨0x1000, 0x0, 8, 5⟩
def LCY_STATE_HOLDUP_OK : Fld := ⟨0x1000, 0x0, 16, 1⟩
def LCY_STATE_HOLDUP_DROP : Fld := ⟨0x1000, 0x0, 17, 1⟩
def LCY_KEYS_MFG_ROOT : Fld := ⟨0x1008, 0x0, 0, 1⟩
def LCY_KEYS_OPERATOR_ROOT : Fld := ⟨0x1008, 0x0, 1, 1⟩
def LCY_KEYS_LICENCE_ROOT : Fld := ⟨0x1008, 0x0, 2, 1⟩
def LCY_KEYS_DIE_ATTEST : Fld := ⟨0x1008, 0x0, 3, 1⟩
def LCY_KEYS_ANALYSIS : Fld := ⟨0x1008, 0x0, 4, 1⟩
def LCY_KEYS_FW_SIGNING : Fld := ⟨0x1008, 0x0, 5, 1⟩
def LCY_KEYS_OPERATOR_SET : Fld := ⟨0x1008, 0x0, 8, 1⟩
def LCY_FUSE_MARGINAL_CELLS : Fld := ⟨0x1010, 0x0, 0, 8⟩
def LCY_FUSE_COPIES : Fld := ⟨0x1010, 0x0, 8, 2⟩
def LCY_FUSE_REPAIRED : Fld := ⟨0x1010, 0x0, 10, 1⟩
def LCY_FUSE_DIES_LOST : Fld := ⟨0x1010, 0x0, 16, 7⟩
def LCY_TRANS_TARGET : Fld := ⟨0x1018, 0x0, 0, 4⟩
def LCY_TRANS_PHASE : Fld := ⟨0x1018, 0x0, 4, 3⟩
def LCY_TRANS_DIES_DONE : Fld := ⟨0x1018, 0x0, 8, 7⟩
def LCY_TRANS_DURATION_US : Fld := ⟨0x1018, 0x0, 32, 32⟩
def LCY_AUTH_CHALLENGES : Fld := ⟨0x1020, 0x0, 0, 16⟩
def LCY_AUTH_GRANTS : Fld := ⟨0x1020, 0x0, 16, 16⟩
def LCY_AUTH_REFUSALS : Fld := ⟨0x1020, 0x0, 32, 16⟩
def LCY_AUTH_REVOCATIONS : Fld := ⟨0x1020, 0x0, 48, 16⟩
def STN_LCY_DIE_STATE : Fld := ⟨0x9000, 0x0, 0, 3⟩
def STN_LCY_TORN : Fld := ⟨0x9000, 0x0, 3, 1⟩
def STN_LCY_LOST : Fld := ⟨0x9000, 0x0, 4, 1⟩
def STN_LCY_KEY_SET : Fld := ⟨0x9000, 0x0, 5, 1⟩
def STN_LCY_MARGINAL_CELLS : Fld := ⟨0x9000, 0x0, 8, 8⟩
def STN_ATT_PUB_KEY : Fld := ⟨0x9100, 0x8, 0, 64⟩
def HTH_STATUS_PROMISE : Fld := ⟨0x1100, 0x0, 0, 1⟩
def HTH_STATUS_BOTH_HUBS : Fld := ⟨0x1100, 0x0, 1, 1⟩
def HTH_STATUS_FW : Fld := ⟨0x1100, 0x0, 2, 1⟩
def HTH_STATUS_TIME_OK : Fld := ⟨0x1100, 0x0, 3, 1⟩
def HTH_STATUS_RATED : Fld := ⟨0x1100, 0x0, 4, 1⟩
def HTH_STATUS_FAULT : Fld := ⟨0x1100, 0x0, 5, 1⟩
def HTH_STATUS_FAULTED : Fld := ⟨0x1100, 0x0, 8, 7⟩
def HTH_STATUS_TAPS_DARK : Fld := ⟨0x1100, 0x0, 16, 14⟩
def HTH_FAULT_CNT_MASKED : Fld := ⟨0x1108, 0x0, 0, 16⟩
def HTH_FAULT_CNT_DETECTED : Fld := ⟨0x1108, 0x0, 16, 16⟩
def HTH_FAULT_CNT_CORRECTED : Fld := ⟨0x1108, 0x0, 32, 16⟩
def HTH_FAULT_CNT_SCRUB_FIXES : Fld := ⟨0x1108, 0x0, 48, 16⟩
def HTH_LAST_CODE : Fld := ⟨0x1110, 0x0, 0, 16⟩
def HTH_LAST_SOURCE : Fld := ⟨0x1110, 0x0, 32, 32⟩
def HTH_LAST_T_STAMP : Fld := ⟨0x1118, 0x0, 0, 64⟩
def HTH_THR_DRIFT_PPM : Fld := ⟨0x1120, 0x0, 0, 16⟩
def HTH_THR_CE_PER_HOUR : Fld := ⟨0x1120, 0x0, 16, 16⟩
def HTH_THR_EYE_H_MIN : Fld := ⟨0x1120, 0x0, 32, 10⟩
def HTH_THR_HORIZON_DAYS : Fld := ⟨0x1120, 0x0, 42, 14⟩
def HTH_THR_RETIRE : Fld := ⟨0x1120, 0x0, 56, 1⟩
def HTH_EOL_EOL_P50 : Fld := ⟨0x1128, 0x0, 0, 64⟩
def STN_WEAR_RO_COUNT : Fld := ⟨0xa000, 0x8, 0, 32⟩
def STN_WEAR_RO_DRIFT : Fld := ⟨0xa000, 0x8, 32, 32⟩
def STN_ECC_CORRECTED : Fld := ⟨0xa040, 0x0, 0, 16⟩
def STN_ECC_UNCORRECTED : Fld := ⟨0xa040, 0x0, 16, 16⟩
def STN_ECC_SCRUB_FIXES : Fld := ⟨0xa040, 0x0, 32, 16⟩
def STN_ECC_PARITY : Fld := ⟨0xa040, 0x0, 48, 16⟩
def STN_SENSE_TEMP : Fld := ⟨0xa048, 0x0, 0, 16⟩
def STN_SENSE_VDBG : Fld := ⟨0xa048, 0x0, 16, 16⟩
def STN_SENSE_RATED : Fld := ⟨0xa048, 0x0, 32, 1⟩
def STN_HBM_CE_HOUR : Fld := ⟨0xa080, 0x8, 0, 32⟩
def STN_HBM_CE_TOTAL : Fld := ⟨0xa080, 0x8, 32, 32⟩
def STN_MRAM_WRITES : Fld := ⟨0xa100, 0x8, 0, 64⟩
def STN_BUP_CHAN_WIDTH : Fld := ⟨0x8600, 0x8, 0, 2⟩
def STN_BUP_CHAN_SPEED : Fld := ⟨0x8600, 0x8, 2, 2⟩
def STN_BUP_CHAN_UP : Fld := ⟨0x8600, 0x8, 4, 1⟩
def STN_BUP_CHAN_REUSED : Fld := ⟨0x8600, 0x8, 5, 1⟩
def STN_BUP_CHAN_DEAD : Fld := ⟨0x8600, 0x8, 6, 1⟩
def STN_BUP_CHAN_REASON : Fld := ⟨0x8600, 0x8, 8, 3⟩
def STN_BUP_CHAN_EYE_H : Fld := ⟨0x8600, 0x8, 16, 16⟩
def STN_BUP_CHAN_EYE_V : Fld := ⟨0x8600, 0x8, 32, 16⟩

end Sys2Proof.Machine.R
end

