-- ==== Sys2Proof/Config.lean ====
section
/-! DEFINITION. The values the spec leaves free (log entries 8 and 9): opaque functions with no body, applied to
the free-value counter of State. -/

namespace Sys2Proof.Config

/-- 48 bytes from the TRNG for a challenge nonce (Table 14.8), byte i of draw n. -/
opaque nonceByte : Nat → Nat → Byte

/-- The SHA-384 digest of root key k that is fused in OTP at manufacture (Table 14.6): 0 licence, 1 manufacturing, 3 analysis,
4 firmware signing. -/
opaque fusedDigest : Nat → List Byte

/-- The secret from which a paged Session's tag is computed, drawn at reset n (R325). -/
opaque sessionSecret : Nat → W64

/-- The tag of paged Session state under a secret (R325): the spec does not give its function. -/
opaque sessionTag : W64 → List Byte → W64

/-- Byte i of the attestation public key that die d draws at draw n (R471). -/
opaque attestKeyByte : Nat → Nat → Nat → Byte

/-- Byte i of a die's ECDSA signature at draw n over a digest (R482): the private key is unreadable. -/
opaque attestSigByte : Nat → List Byte → Nat → Byte

/-- A byte of core memory that a reset left undefined (Table 13.3), by generation and address. -/
opaque undefinedByte : Nat → Nat → Byte

/-- A 64-bit value that the spec leaves open where an event produces one, by draw. -/
opaque freeWord : Nat → W64

/-- The MIPI manufacturer identity on the strap input of the I3C target (R374). -/
opaque mipiId : Nat

end Sys2Proof.Config
end

