-- ==== Sys2Proof/Machine/RegTable.lean ====
section
/-! DEFINITION. The register map: for each register its window, offset, instances, the bits of each access code of
Table 0.3 and its reset value (chapters 01-15). A bit that stands under no code is reserved (R10). -/

namespace Sys2Proof.Machine

/-- The three register windows: the hub (R34), a Station (R68) and a Tap (R69). -/
inductive Window where
  | hub
  | stn
  | tap
  deriving DecidableEq, Repr

/-- One row of the register map; the masks are those of Table 0.3. -/
structure RegRow where
  win : Window
  base : Nat
  stride : Nat
  count : Nat
  rw : Nat
  w1c : Nat
  w1s : Nat
  ro : Nat
  rc : Nat
  wo : Nat
  reset : Nat
  deriving DecidableEq, Repr

def hubRows0 : List RegRow := [
  ⟨.hub, 0x0, 0x0, 1, 0x0, 0x0, 0x0, 0x7f0fffffffff, 0x0, 0x0, 0x600141425931⟩ /- HUB_ID -/,
  ⟨.hub, 0x8, 0x0, 1, 0x0, 0x0, 0x0, 0xffffffff, 0x0, 0x0, 0x3fe5a1⟩ /- HUB_IANA -/,
  ⟨.hub, 0x10, 0x0, 1, 0x0, 0x0, 0x0, 0x7ffffffff, 0x0, 0x0, 0x119488064⟩ /- HUB_PARAM -/,
  ⟨.hub, 0x18, 0x0, 1, 0x0, 0x609, 0x0, 0x9f6, 0x0, 0x0, 0x2⟩ /- HUB_STATUS -/,
  ⟨.hub, 0x20, 0x0, 1, 0x0, 0x0, 0x0, 0x1ff, 0x0, 0x0, 0x0⟩ /- HUB_PKG -/,
  ⟨.hub, 0x28, 0x0, 1, 0x0, 0x0, 0x0, 0xffffffffffffffff, 0x0, 0x0, 0x0⟩ /- HUB_SERIAL -/,
  ⟨.hub, 0x30, 0x0, 1, 0x0, 0x0, 0x0, 0xffffffffffffffff, 0x0, 0x0, 0x0⟩ /- HUB_PRESENT_LO -/,
  ⟨.hub, 0x38, 0x0, 1, 0x0, 0x0, 0x0, 0xfffffffff, 0x0, 0x0, 0x0⟩ /- HUB_PRESENT_HI -/,
  ⟨.hub, 0x40, 0x0, 1, 0x0, 0x0, 0x0, 0xffffffffffffffff, 0x0, 0x0, 0x0⟩ /- HUB_HIDDEN_LO -/,
  ⟨.hub, 0x48, 0x0, 1, 0x0, 0x0, 0x0, 0xfffffffff, 0x0, 0x0, 0x0⟩ /- HUB_HIDDEN_HI -/,
  ⟨.hub, 0x50, 0x0, 1, 0x0, 0x0, 0x0, 0x1ffffffffff, 0x0, 0x0, 0x0⟩ /- HUB_COUNTS -/,
  ⟨.hub, 0x58, 0x0, 1, 0xffffffffffffffff, 0x0, 0x0, 0x0, 0x0, 0x0, 0x0⟩ /- HUB_SCRATCH -/,
  ⟨.hub, 0x200, 0x0, 1, 0xfffff, 0x0, 0x0, 0x0, 0x0, 0x0, 0x30014⟩ /- SPN_CTL -/,
  ⟨.hub, 0x208, 0x0, 1, 0x0, 0x0, 0x0, 0xfff, 0x0, 0x0, 0x0⟩ /- SPN_STATUS -/,
  ⟨.hub, 0x210, 0x0, 1, 0x0, 0x0, 0x0, 0x7f, 0x0, 0x0, 0x19⟩ /- SPN_SHARE -/,
  ⟨.hub, 0x218, 0x0, 1, 0x0, 0x0, 0x0, 0xf, 0xff00, 0x0, 0x0⟩ /- SPN_TRUNK -/,
  ⟨.hub, 0x220, 0x20, 4, 0x0, 0x0, 0x0, 0x3fffffff1f, 0x0, 0x0, 0x0⟩ /- SPN_RING_STAT -/,
  ⟨.hub, 0x228, 0x20, 4, 0x0, 0x0, 0x0, 0x0, 0xffffffffffffff, 0x0, 0x0⟩ /- SPN_RING_ERR -/,
  ⟨.hub, 0x230, 0x20, 4, 0x0, 0x0, 0x0, 0x0, 0xffffffff, 0x0, 0x0⟩ /- SPN_RING_LOAD -/,
  ⟨.hub, 0x100, 0x0, 1, 0x0, 0x0, 0x0, 0xffffffffffffffff, 0x0, 0x0, 0x0⟩ /- GTC_NOW -/]

def hubRows1 : List RegRow := [
  ⟨.hub, 0x108, 0x0, 1, 0x0, 0x80, 0x0, 0xffffffff007f, 0x0, 0x0, 0x0⟩ /- GTC_STATUS -/,
  ⟨.hub, 0x110, 0x0, 1, 0x3ffffffff, 0x0, 0x8000000000000000, 0x0, 0x0, 0x0, 0x0⟩ /- GTC_TOD_NEXT -/,
  ⟨.hub, 0x118, 0x0, 1, 0x0, 0x0, 0x0, 0xffffffffffffffff, 0x0, 0x0, 0x0⟩ /- GTC_PPS -/,
  ⟨.hub, 0x120, 0x0, 1, 0x0, 0x0, 0x0, 0xffffffff, 0x0, 0x0, 0x10640a02⟩ /- GTC_LEAD -/,
  ⟨.hub, 0x140, 0x8, 4, 0x0, 0x0, 0x0, 0xffffffff, 0x0, 0x0, 0x0⟩ /- GTC_RING -/,
  ⟨.hub, 0x800, 0x0, 1, 0xffffffff, 0x0, 0x0, 0x0, 0x0, 0x0, 0x64⟩ /- RUN_CTL -/,
  ⟨.hub, 0x808, 0x0, 1, 0x0, 0x0, 0x0, 0xffffffff03, 0x0, 0x0, 0x0⟩ /- RUN_ORPHAN -/,
  ⟨.hub, 0x810, 0x0, 1, 0x0, 0x0, 0x0, 0xff07ffffffffff, 0x0, 0x0, 0x0⟩ /- RUN_STATUS -/,
  ⟨.hub, 0x818, 0x0, 1, 0xff, 0x0, 0x0, 0x0, 0x0, 0x0, 0x0⟩ /- RUN_FRZ_SEL -/,
  ⟨.hub, 0x820, 0x0, 1, 0x0, 0x0, 0x0, 0x1f, 0x0, 0x0, 0x1f⟩ /- RUN_FRZ_VAL -/,
  ⟨.hub, 0x828, 0x0, 1, 0x0, 0x0, 0x0, 0x0, 0xffffffffffffff, 0x0, 0x0⟩ /- RUN_EVT_CNT -/,
  ⟨.hub, 0x900, 0x0, 1, 0x0, 0x0, 0x0, 0xffffff, 0x0, 0x0, 0x0⟩ /- STH_STATUS -/,
  ⟨.hub, 0x908, 0x0, 1, 0x1f07, 0x0, 0x0, 0x0, 0x0, 0x0, 0x0⟩ /- STH_SEL -/,
  ⟨.hub, 0x910, 0x0, 1, 0x0, 0x0, 0x0, 0x7f0000ffff, 0x0, 0x0, 0x0⟩ /- STH_SLOT -/,
  ⟨.hub, 0x918, 0x0, 1, 0x0, 0x0, 0x0, 0xffffffffffffffff, 0x0, 0x0, 0x0⟩ /- STH_SLOT_T -/,
  ⟨.hub, 0x920, 0x0, 1, 0x0, 0x0, 0x0, 0x3ffffffffffff, 0x0, 0x0, 0x0⟩ /- STH_STACK -/,
  ⟨.hub, 0x928, 0x0, 1, 0x0, 0x0, 0x0, 0x0, 0xffffffffffffffff, 0x0, 0x0⟩ /- STH_CNT -/,
  ⟨.hub, 0xa00, 0x0, 1, 0x0, 0x0, 0x0, 0xff0007ffff, 0x0, 0x0, 0x4000070002⟩ /- CDC_ID -/,
  ⟨.hub, 0xa08, 0x0, 1, 0x0, 0x0, 0x0, 0xff01, 0x0, 0x0, 0x0⟩ /- CDC_STATUS -/,
  ⟨.hub, 0xa10, 0x0, 1, 0x0, 0x0, 0x0, 0x0, 0xffffffffffffffff, 0x0, 0x0⟩ /- CDC_ENC_CNT -/]

def hubRows2 : List RegRow := [
  ⟨.hub, 0xa18, 0x0, 1, 0x0, 0x0, 0x0, 0x0, 0xffffffffffffffff, 0x0, 0x0⟩ /- CDC_DEC_CNT -/,
  ⟨.hub, 0xb00, 0x0, 1, 0x0, 0x0, 0x0, 0xffffff01, 0x0, 0x0, 0x0⟩ /- TLY_STATUS -/,
  ⟨.hub, 0xb08, 0x0, 1, 0x0, 0x0, 0x0, 0x0, 0xffffffffffffffff, 0x0, 0x0⟩ /- TLY_CNT -/,
  ⟨.hub, 0xb10, 0x0, 1, 0x0, 0x0, 0x0, 0x0, 0xffffffffffffffff, 0x0, 0x0⟩ /- TLY_BYTES -/,
  ⟨.hub, 0xb18, 0x0, 1, 0x0, 0x0, 0x0, 0x0, 0xffffffff, 0x0, 0x0⟩ /- TLY_ERR -/,
  ⟨.hub, 0xc00, 0x0, 1, 0x0, 0x0, 0x0, 0x7fffffffff, 0x0, 0x0, 0x0⟩ /- TRC_STATUS -/,
  ⟨.hub, 0xc08, 0x0, 1, 0x7, 0x0, 0x0, 0x0, 0x0, 0x0, 0x0⟩ /- TRC_SEL -/,
  ⟨.hub, 0xc10, 0x0, 1, 0x0, 0x0, 0x0, 0x7ffff1fff, 0x0, 0x0, 0x0⟩ /- TRC_SLOT -/,
  ⟨.hub, 0xc18, 0x0, 1, 0x0, 0x0, 0x0, 0xffffffffffffffff, 0x0, 0x0, 0x0⟩ /- TRC_SLOT_H -/,
  ⟨.hub, 0xc20, 0x0, 1, 0x0, 0x0, 0x0, 0x0, 0xffffffffffffffff, 0x0, 0x0⟩ /- TRC_CNT -/,
  ⟨.hub, 0xc28, 0x0, 1, 0x0, 0x0, 0x0, 0x0, 0xffffffffffff, 0x0, 0x0⟩ /- TRC_LOST -/,
  ⟨.hub, 0xc30, 0x0, 1, 0x0, 0x0, 0x0, 0xffff, 0x0, 0x0, 0x3e8⟩ /- TRC_BURST -/,
  ⟨.hub, 0xd00, 0x0, 1, 0x0, 0x0, 0x0, 0x7f7fffff, 0x0, 0x0, 0x0⟩ /- RTN_STATUS -/,
  ⟨.hub, 0xd08, 0x0, 1, 0x0, 0x0, 0x0, 0xffffffffffffffff, 0x0, 0x0, 0x0⟩ /- RTN_ARMED -/,
  ⟨.hub, 0xd10, 0x0, 1, 0x0, 0x0, 0x0, 0xffffffffffffffff, 0x0, 0x0, 0x0⟩ /- RTN_PENDING -/,
  ⟨.hub, 0xd18, 0x0, 1, 0x0, 0x0, 0x0, 0x0, 0x0, 0xffffffffffffffff, 0x0⟩ /- RTN_DOORBELL -/,
  ⟨.hub, 0xd20, 0x0, 1, 0x3f, 0x0, 0x0, 0x0, 0x0, 0x0, 0x0⟩ /- RTN_TRIG_SEL -/,
  ⟨.hub, 0xd28, 0x0, 1, 0x0, 0x0, 0x0, 0xffffffffffffffff, 0x0, 0x0, 0x0⟩ /- RTN_TRIG -/,
  ⟨.hub, 0xd30, 0x0, 1, 0x0, 0x0, 0x0, 0x0, 0xffffffffffffffff, 0x0, 0x0⟩ /- RTN_CNT -/,
  ⟨.hub, 0xd38, 0x0, 1, 0x0, 0x0, 0x0, 0x0, 0xffffffffffffffff, 0x0, 0x0⟩ /- RTN_STEPS -/]

def hubRows3 : List RegRow := [
  ⟨.hub, 0xd40, 0x0, 1, 0x0, 0x0, 0x0, 0x1ffffffffffff, 0x0, 0x0, 0x1000008808200⟩ /- RTN_LIMITS -/,
  ⟨.hub, 0x400, 0x20, 32, 0x0, 0x0, 0x0, 0x1f0fffffffff, 0x0, 0x0, 0x0⟩ /- SLOT_STAT -/,
  ⟨.hub, 0x408, 0x20, 32, 0x0, 0x0, 0x0, 0xffffffffffffffff, 0x0, 0x0, 0x0⟩ /- SLOT_SQ -/,
  ⟨.hub, 0x410, 0x20, 32, 0x0, 0x0, 0x0, 0xffffffffffffffff, 0x0, 0x0, 0x0⟩ /- SLOT_EQ -/,
  ⟨.hub, 0x418, 0x0, 1, 0x7f01, 0x0, 0x0, 0x0, 0x0, 0x0, 0x0⟩ /- IF_CTL -/,
  ⟨.hub, 0x438, 0x0, 1, 0xfffffffffffff000, 0x0, 0x0, 0x0, 0x0, 0x0, 0x0⟩ /- IF_ROOT -/,
  ⟨.hub, 0x458, 0x0, 1, 0x0, 0x0, 0x0, 0x0, 0x0, 0xffffffffffffffff, 0x0⟩ /- DOORBELL -/,
  ⟨.hub, 0x478, 0x0, 1, 0x0, 0x2, 0x0, 0xfff01, 0x0, 0x0, 0x0⟩ /- IF_STATUS -/,
  ⟨.hub, 0x498, 0x0, 1, 0x0, 0x0, 0x0, 0xffffffffffffffff, 0x0, 0x0, 0x403c000ffe201000⟩ /- IF_LIMITS -/,
  ⟨.hub, 0x4b8, 0x0, 1, 0x0, 0x0, 0x0, 0x0, 0xffffffffffffffff, 0x0, 0x0⟩ /- IF_ERR -/,
  ⟨.hub, 0x4d8, 0x0, 1, 0x0, 0x0, 0x0, 0x0, 0xffffffffffffffff, 0x0, 0x0⟩ /- IF_CNT -/,
  ⟨.hub, 0xe00, 0x0, 1, 0x0, 0x0, 0x0, 0x3fffffff01ff, 0x0, 0x0, 0x0⟩ /- BUP_STATUS -/,
  ⟨.hub, 0xe08, 0x0, 1, 0x0, 0x0, 0x0, 0xffffffff, 0x0, 0x0, 0x0⟩ /- BUP_TIME -/,
  ⟨.hub, 0xe10, 0x0, 1, 0x0, 0x0, 0x0, 0xffffffffff, 0x0, 0x0, 0x0⟩ /- BUP_BOOT -/,
  ⟨.hub, 0xe18, 0x0, 1, 0x0, 0x0, 0x0, 0x3fffffff, 0x0, 0x0, 0x0⟩ /- BUP_TRAIN -/,
  ⟨.hub, 0xe20, 0x0, 1, 0x0, 0x0, 0x0, 0xfffffffffffffff, 0x0, 0x0, 0x0⟩ /- BUP_LIC -/,
  ⟨.hub, 0xe28, 0x0, 1, 0x0, 0x0, 0x0, 0x3fffffff, 0x0, 0x0, 0x0⟩ /- BUP_TOL -/,
  ⟨.hub, 0xe30, 0x0, 1, 0x3, 0x0, 0x0, 0x0, 0x0, 0x0, 0x0⟩ /- BUP_MODE_SEL -/,
  ⟨.hub, 0xe38, 0x0, 1, 0x0, 0x0, 0x0, 0x7ffffffff, 0x0, 0x0, 0x0⟩ /- BUP_MODE -/,
  ⟨.hub, 0xf00, 0x0, 1, 0x0, 0x0, 0x0, 0x3fff, 0x0, 0x0, 0x0⟩ /- RCV_STATUS -/]

def hubRows4 : List RegRow := [
  ⟨.hub, 0xf08, 0x0, 1, 0x0, 0x0, 0x0, 0x3f, 0x0, 0x0, 0x29⟩ /- RCV_POLICY -/,
  ⟨.hub, 0xf10, 0x0, 1, 0x0, 0x0, 0x0, 0x3ffffffffffff, 0x0, 0x0, 0x64507d00c8c8⟩ /- RCV_BOUNDS -/,
  ⟨.hub, 0xf18, 0x0, 1, 0x0, 0x0, 0x0, 0xffffffffffffffff, 0x0, 0x0, 0x0⟩ /- RCV_WDT_DEF -/,
  ⟨.hub, 0xf20, 0x0, 1, 0x1ff, 0x0, 0x0, 0x0, 0x0, 0x0, 0x0⟩ /- RCV_ESC_SEL -/,
  ⟨.hub, 0xf28, 0x0, 1, 0x0, 0x0, 0x0, 0xffffffffffffffff, 0x0, 0x0, 0x0⟩ /- RCV_ESC -/,
  ⟨.hub, 0xf30, 0x0, 1, 0x0, 0x0, 0x0, 0xffffffff000000ff, 0x0, 0x0, 0x0⟩ /- RCV_PWR -/,
  ⟨.hub, 0xf38, 0x0, 1, 0x0, 0x0, 0x0, 0xffffffffffffffff, 0x0, 0x0, 0x0⟩ /- RCV_FAILOVER -/,
  ⟨.hub, 0xf40, 0x0, 1, 0x0, 0x0, 0x0, 0x0, 0xffffffffffffffff, 0x0, 0x0⟩ /- RCV_CNT -/,
  ⟨.hub, 0xf48, 0x0, 1, 0x0, 0x0, 0x0, 0x0, 0xffffffffffffffff, 0x0, 0x0⟩ /- RCV_JOB -/,
  ⟨.hub, 0x1000, 0x0, 1, 0x0, 0x20010, 0x0, 0x11f2f, 0x0, 0x0, 0x0⟩ /- LCY_STATE -/,
  ⟨.hub, 0x1008, 0x0, 1, 0x0, 0x0, 0x0, 0x13f, 0x0, 0x0, 0x0⟩ /- LCY_KEYS -/,
  ⟨.hub, 0x1010, 0x0, 1, 0x0, 0x0, 0x0, 0x7f07ff, 0x0, 0x0, 0x0⟩ /- LCY_FUSE -/,
  ⟨.hub, 0x1018, 0x0, 1, 0x0, 0x0, 0x0, 0xffffffff00007f7f, 0x0, 0x0, 0x0⟩ /- LCY_TRANS -/,
  ⟨.hub, 0x1020, 0x0, 1, 0x0, 0x0, 0x0, 0x0, 0xffffffffffffffff, 0x0, 0x0⟩ /- LCY_AUTH -/,
  ⟨.hub, 0x1100, 0x0, 1, 0x0, 0x20, 0x0, 0x3fff7f1f, 0x0, 0x0, 0x0⟩ /- HTH_STATUS -/,
  ⟨.hub, 0x1108, 0x0, 1, 0x0, 0x0, 0x0, 0x0, 0xffffffffffffffff, 0x0, 0x0⟩ /- HTH_FAULT_CNT -/,
  ⟨.hub, 0x1110, 0x0, 1, 0x0, 0x0, 0x0, 0xffffffff0000ffff, 0x0, 0x0, 0x0⟩ /- HTH_LAST -/,
  ⟨.hub, 0x1118, 0x0, 1, 0x0, 0x0, 0x0, 0xffffffffffffffff, 0x0, 0x0, 0x0⟩ /- HTH_LAST_T -/,
  ⟨.hub, 0x1120, 0x0, 1, 0x0, 0x0, 0x0, 0x1ffffffffffffff, 0x0, 0x0, 0x0⟩ /- HTH_THR -/,
  ⟨.hub, 0x1128, 0x0, 1, 0x0, 0x0, 0x0, 0xffffffffffffffff, 0x0, 0x0, 0x0⟩ /- HTH_EOL -/]

/-- Every register of the hub window. -/
def hubRows : List RegRow := hubRows0 ++ hubRows1 ++ hubRows2 ++ hubRows3 ++ hubRows4

def stnRows0 : List RegRow := [
  ⟨.stn, 0x0, 0x0, 1, 0x0, 0x0, 0x0, 0x1f01ff0f7f, 0x0, 0x0, 0x0⟩ /- STN_ID -/,
  ⟨.stn, 0x8, 0x0, 1, 0x0, 0x0, 0x0, 0x1ff, 0x0, 0x0, 0x0⟩ /- STN_SPN_STAT -/,
  ⟨.stn, 0x10, 0x0, 1, 0x0, 0x0, 0x0, 0x0, 0xffffffffff, 0x0, 0x0⟩ /- STN_SPN_ERR -/,
  ⟨.stn, 0x1000, 0x0, 1, 0x0, 0x0, 0x0, 0xffffffffffffffff, 0x0, 0x0, 0x0⟩ /- STN_GTC_NOW -/,
  ⟨.stn, 0x1008, 0x0, 1, 0x0, 0x0, 0x0, 0x1fffffffff0001, 0x0, 0x0, 0x0⟩ /- STN_GTC_STAT -/,
  ⟨.stn, 0x1010, 0x0, 1, 0xffffffff, 0x0, 0x0, 0xffff00000000, 0x0, 0x0, 0x0⟩ /- STN_GTC_PATH -/,
  ⟨.stn, 0x1018, 0x0, 1, 0x0, 0x0, 0x0, 0xffffffff, 0x0, 0x0, 0x0⟩ /- STN_GTC_TRUNK -/,
  ⟨.stn, 0x2000, 0x8, 4, 0x0, 0x0, 0x0, 0xffffffffffffffff, 0x0, 0x0, 0x0⟩ /- STN_RUN_PHALT -/,
  ⟨.stn, 0x2020, 0x0, 1, 0x0, 0x0, 0x0, 0x3, 0x0, 0x0, 0x0⟩ /- STN_RUN_CTL -/,
  ⟨.stn, 0x4000, 0x0, 1, 0x0, 0x0, 0x0, 0xffffffff00000707, 0x0, 0x0, 0x0⟩ /- STN_CAP_STAT -/,
  ⟨.stn, 0x4008, 0x0, 1, 0x0, 0x0, 0x0, 0xffffffffffffffff, 0x0, 0x0, 0x0⟩ /- STN_CAP_HBASE -/,
  ⟨.stn, 0x200000, 0x100, 16, 0x0, 0x0, 0x0, 0x1fffffffffff1f, 0x0, 0x0, 0x0⟩ /- STN_CUT_STAT -/,
  ⟨.stn, 0x5000, 0x0, 1, 0x0, 0x0, 0x0, 0x0, 0xffffffffffffffff, 0x0, 0x0⟩ /- STN_CDC_CNT -/,
  ⟨.stn, 0x5008, 0x0, 1, 0x0, 0x0, 0x0, 0x73ffffffff, 0x0, 0x0, 0x0⟩ /- STN_CDC_LAST -/,
  ⟨.stn, 0x6000, 0x0, 1, 0x0, 0x0, 0x0, 0xffffffff00000f03, 0x0, 0x0, 0x0⟩ /- STN_TLY_STAT -/,
  ⟨.stn, 0x6010, 0x0, 1, 0x0, 0x0, 0x0, 0x7f03ff, 0x0, 0x0, 0x0⟩ /- STN_SNT_SUM -/,
  ⟨.stn, 0x6100, 0x8, 256, 0x0, 0x0, 0x0, 0xffffffffffffffff, 0x0, 0x0, 0x0⟩ /- STN_SNT_LIST -/,
  ⟨.stn, 0x7000, 0x0, 1, 0x0, 0x0, 0x0, 0xffff07ff, 0x0, 0x0, 0x400⟩ /- STN_TRC_STAT -/,
  ⟨.stn, 0x7100, 0x10, 8, 0x0, 0x0, 0x0, 0xffffffff003fffff, 0x0, 0x0, 0x0⟩ /- STN_TRC_SLOT -/,
  ⟨.stn, 0x7108, 0x10, 8, 0x0, 0x0, 0x0, 0x0, 0xffffffffffffffff, 0x0, 0x0⟩ /- STN_TRC_LOST -/]

def stnRows1 : List RegRow := [
  ⟨.stn, 0x7200, 0x8, 16, 0x7fff, 0x0, 0x0, 0x0, 0x0, 0x0, 0x0⟩ /- STN_TRC_LINK -/,
  ⟨.stn, 0x8000, 0x8, 160, 0x0, 0x0, 0x0, 0x3ffffffffff, 0x0, 0x0, 0x0⟩ /- STN_BIND -/,
  ⟨.stn, 0x8500, 0x0, 1, 0x0, 0x0, 0x0, 0x3fffffffffff, 0x0, 0x0, 0x0⟩ /- STN_BUP_STAT -/,
  ⟨.stn, 0x8508, 0x0, 1, 0x7f, 0x0, 0x0, 0x0, 0x0, 0x0, 0x0⟩ /- STN_BUP_SEL -/,
  ⟨.stn, 0x8510, 0x0, 1, 0x3ffffffffff, 0x0, 0x0, 0x0, 0x0, 0x0, 0x0⟩ /- STN_BUP_TAB -/,
  ⟨.stn, 0x8520, 0x8, 2, 0x0, 0x0, 0x0, 0xffffffffffffffff, 0x0, 0x0, 0x0⟩ /- STN_BUP_SHORT -/,
  ⟨.stn, 0x8540, 0x8, 8, 0x0, 0x0, 0x0, 0xffffffffffffffff, 0x0, 0x0, 0x0⟩ /- STN_BUP_MISS -/,
  ⟨.stn, 0x8580, 0x8, 16, 0x0, 0x0, 0x0, 0xffffffff077f, 0x0, 0x0, 0x0⟩ /- STN_BUP_PORT -/,
  ⟨.stn, 0x8680, 0x8, 4, 0x0, 0x0, 0x0, 0xffffffffffffffff, 0x0, 0x0, 0x0⟩ /- STN_MODE -/,
  ⟨.stn, 0x3000, 0x0, 1, 0x1ff, 0x0, 0x0, 0x0, 0x0, 0x0, 0x0⟩ /- STN_WDT_SEL -/,
  ⟨.stn, 0x3008, 0x0, 1, 0x0, 0x0, 0x0, 0x7ffffffff, 0x0, 0x0, 0x0⟩ /- STN_WDT_ENTRY -/,
  ⟨.stn, 0x3040, 0x8, 8, 0x0, 0xffffffffffffffff, 0x0, 0x0, 0x0, 0x0, 0x0⟩ /- STN_WDT_EXP -/,
  ⟨.stn, 0x3100, 0x0, 1, 0x0, 0x0, 0x0, 0x1fffffff, 0x0, 0x0, 0x0⟩ /- STN_RST_STAT -/,
  ⟨.stn, 0x3108, 0x0, 1, 0x0, 0x0, 0x0, 0x0, 0xffffffffffff, 0x0, 0x0⟩ /- STN_RCV_DROP -/,
  ⟨.stn, 0x3200, 0x8, 64, 0x0, 0x0, 0x0, 0xffffffffffffffff, 0x0, 0x0, 0x0⟩ /- STN_CTX -/,
  ⟨.stn, 0x9000, 0x0, 1, 0x0, 0x0, 0x0, 0xff3f, 0x0, 0x0, 0x0⟩ /- STN_LCY -/,
  ⟨.stn, 0x9100, 0x8, 12, 0x0, 0x0, 0x0, 0xffffffffffffffff, 0x0, 0x0, 0x0⟩ /- STN_ATT_PUB -/,
  ⟨.stn, 0xa000, 0x8, 8, 0x0, 0x0, 0x0, 0xffffffffffffffff, 0x0, 0x0, 0x0⟩ /- STN_WEAR_RO -/,
  ⟨.stn, 0xa040, 0x0, 1, 0x0, 0x0, 0x0, 0x0, 0xffffffffffffffff, 0x0, 0x0⟩ /- STN_ECC -/,
  ⟨.stn, 0xa048, 0x0, 1, 0x0, 0x0, 0x0, 0x1ffffffff, 0x0, 0x0, 0x0⟩ /- STN_SENSE -/]

def stnRows2 : List RegRow := [
  ⟨.stn, 0xa080, 0x8, 16, 0x0, 0x0, 0x0, 0xffffffffffffffff, 0x0, 0x0, 0x0⟩ /- STN_HBM_CE -/,
  ⟨.stn, 0xa100, 0x8, 3, 0x0, 0x0, 0x0, 0xffffffffffffffff, 0x0, 0x0, 0x0⟩ /- STN_MRAM -/,
  ⟨.stn, 0x8600, 0x8, 16, 0x0, 0x0, 0x0, 0xffffffff077f, 0x0, 0x0, 0x0⟩ /- STN_BUP_CHAN -/,
  ⟨.stn, 0x8800, 0x8, 256, 0xffffffffffffffff, 0x0, 0x0, 0x0, 0x0, 0x0, 0x0⟩ /- STN_BUP_CRC -/]

/-- Every register of the stn window. -/
def stnRows : List RegRow := stnRows0 ++ stnRows1 ++ stnRows2

def tapRows0 : List RegRow := [
  ⟨.tap, 0x0, 0x0, 1, 0x0, 0x0, 0x0, 0x3ffff, 0x0, 0x0, 0x0⟩ /- TAP_RUN_STATE -/,
  ⟨.tap, 0x10, 0x10, 4, 0x0, 0x0, 0x0, 0xffffffffffffffff, 0x0, 0x0, 0x0⟩ /- TAP_RUN_HREC_T -/,
  ⟨.tap, 0x18, 0x10, 4, 0x0, 0x0, 0x0, 0xffffffffffff007f, 0x0, 0x0, 0x0⟩ /- TAP_RUN_HREC -/,
  ⟨.tap, 0x50, 0x0, 1, 0x0, 0x0, 0x0, 0xffffffffffffffff, 0x0, 0x0, 0x0⟩ /- TAP_RUN_RETIRED -/,
  ⟨.tap, 0x400, 0x10, 8, 0xffffffff0fff, 0x0, 0x0, 0x0, 0x0, 0x0, 0x0⟩ /- TAP_BRK_CTL -/,
  ⟨.tap, 0x408, 0x10, 8, 0xffffffff, 0x0, 0x0, 0x0, 0x0, 0x0, 0x0⟩ /- TAP_BRK_ENTRY -/,
  ⟨.tap, 0x480, 0x18, 4, 0xffffffffffffffff, 0x0, 0x0, 0x0, 0x0, 0x0, 0x0⟩ /- TAP_WP_BASE -/,
  ⟨.tap, 0x488, 0x18, 4, 0xffffffffffffffff, 0x0, 0x0, 0x0, 0x0, 0x0, 0x0⟩ /- TAP_WP_LIMIT -/,
  ⟨.tap, 0x490, 0x18, 4, 0xfffff1fff, 0x0, 0x0, 0x0, 0x0, 0x0, 0x0⟩ /- TAP_WP_CTL -/,
  ⟨.tap, 0x4e0, 0x0, 1, 0x0, 0xfff, 0x0, 0x0, 0x0, 0x0, 0x0⟩ /- TAP_BRK_HIT -/,
  ⟨.tap, 0x4e8, 0x0, 1, 0x0, 0x0, 0x0, 0xffffffffffffffff, 0x0, 0x0, 0x0⟩ /- TAP_WP_LAST -/,
  ⟨.tap, 0x1400, 0x0, 1, 0x1f, 0x0, 0x0, 0x1f00, 0x0, 0x0, 0x1f⟩ /- TAP_FRZ -/,
  ⟨.tap, 0x800, 0x40, 2, 0x1fffff, 0x0, 0x0, 0x0, 0x0, 0x0, 0x0⟩ /- TAP_SNT_CTL -/,
  ⟨.tap, 0x808, 0x40, 2, 0x0, 0x1, 0x0, 0xffffffffffffff02, 0x0, 0x0, 0x0⟩ /- TAP_SNT_FIRST -/,
  ⟨.tap, 0x810, 0x40, 2, 0x0, 0x0, 0x0, 0xffffffffffffffff, 0x0, 0x0, 0x0⟩ /- TAP_SNT_FIRST_T -/,
  ⟨.tap, 0x818, 0x40, 2, 0x0, 0x0, 0x0, 0xffffffffffffffff, 0x0, 0x0, 0x0⟩ /- TAP_SNT_ADDR -/,
  ⟨.tap, 0x820, 0x40, 2, 0x0, 0x0, 0x0, 0x0, 0xffffffffffffffff, 0x0, 0x0⟩ /- TAP_SNT_CNT -/,
  ⟨.tap, 0xc00, 0x0, 1, 0x1fffff, 0x0, 0x0, 0x0, 0x0, 0x0, 0x0⟩ /- TAP_TRC_CTL -/,
  ⟨.tap, 0xc10, 0x10, 4, 0xffffffffffffffff, 0x0, 0x0, 0x0, 0x0, 0x0, 0x0⟩ /- TAP_TRC_BASE -/,
  ⟨.tap, 0xc18, 0x10, 4, 0xffffffffffffffff, 0x0, 0x0, 0x0, 0x0, 0x0, 0x0⟩ /- TAP_TRC_LIMIT -/]

def tapRows1 : List RegRow := [
  ⟨.tap, 0xc50, 0x0, 1, 0x0, 0x0, 0x0, 0x0, 0x0, 0xffffffffffffffff, 0x0⟩ /- TAP_TRC_MARK -/,
  ⟨.tap, 0xc58, 0x0, 1, 0x0, 0x0, 0x0, 0x3f, 0xffffffff0000, 0x0, 0x0⟩ /- TAP_TRC_STAT -/]

/-- Every register of the tap window. -/
def tapRows : List RegRow := tapRows0 ++ tapRows1

end Sys2Proof.Machine
end

