-- ==== Sys2Proof/Machine/Store.lean ====
section
/-! DEFINITION. Sparse stores in one canonical form: keys strictly rising, and no entry equal to what an unlisted key
reads as. Memories, register windows and per-unit records are held in them. -/

namespace Sys2Proof.Machine

/-- A sparse map from numbers; what an unlisted key reads as is given to each operation. -/
abbrev Store (V : Type) := List (Nat × V)

/-- The value at a key. -/
def Store.get {V : Type} (d : V) : Store V → Nat → V
  | [], _ => d
  | (k', v) :: r, k => if k' = k then v else Store.get d r k

/-- The store without a key. -/
def Store.erase {V : Type} : Store V → Nat → Store V
  | [], _ => []
  | (k', v) :: r, k => if k' = k then Store.erase r k else (k', v) :: Store.erase r k

/-- The store with an entry put in its place among rising keys. -/
def Store.insert {V : Type} : Store V → Nat → V → Store V
  | [], k, v => [(k, v)]
  | (k', v') :: r, k, v => if k < k' then (k, v) :: (k', v') :: r else (k', v') :: Store.insert r k v

/-- Write a key: an entry equal to the default is removed, so equal stores are equal lists. -/
def Store.put {V : Type} [DecidableEq V] (d : V) (s : Store V) (k : Nat) (v : V) : Store V :=
  if v = d then Store.erase s k else Store.insert (Store.erase s k) k v

/-- Keys strictly rising. -/
def Store.rising {V : Type} : Store V → Bool
  | [] => true
  | [_] => true
  | (k, _) :: (k', v') :: r => decide (k < k') && Store.rising ((k', v') :: r)

/-- The canonical form: keys strictly rising and no entry equal to the default of its key. -/
def Store.wf {V : Type} [DecidableEq V] (d : Nat → V) (s : Store V) : Bool :=
  Store.rising s && s.all (fun p => decide (p.2 ≠ d p.1))

/-- What a byte of host memory or HBM that nothing has written reads as (log entry 5, DESIGN CHOICE). -/
def memDefault : Byte := 0

/-- One byte of a memory. -/
def memByte (m : Store Byte) (a : Nat) : Byte := Store.get memDefault m a

/-- n bytes of a memory from address a. -/
def memRead (m : Store Byte) (a : Nat) : Nat → List Byte
  | 0 => []
  | n + 1 => memByte m a :: memRead m (a + 1) n

/-- Write one byte of a memory. -/
def memPut (m : Store Byte) (a : Nat) (b : Byte) : Store Byte := Store.put memDefault m a b

/-- Write bytes to a memory from address a. -/
def memWrite (m : Store Byte) (a : Nat) : List Byte → Store Byte
  | [] => m
  | b :: r => memWrite (memPut m a b) (a + 1) r

/-- The n-byte little-endian number at address a. -/
def memNat (m : Store Byte) (a n : Nat) : Nat := leNat (memRead m a n)

end Sys2Proof.Machine
end

