-- ==== Sys2Proof/Machine/State.lean ====
section
/-! DEFINITION. The state of the block: the queue of waiting commands and the machine (registers, Stations, engines,
Sessions, executing commands, time, Spine and the parts of each chapter), as plain data. -/

namespace Sys2Proof.Machine

/-- The reasons for which a step stops the model. -/
inductive Fault where
  /-- An event row names a die, Tap, engine, port, ring, stack, channel, pin or trunk that the package does not have
  (Tables 1.1, 1.5, 1.6). Raised by the event meanings before they act. Safe: no such event can happen. -/
  | noSuchUnit
  deriving DecidableEq, Repr

/-- The reasons for which the model has no meaning for a command. -/
inductive Refusal where
  /-- The command has no meaning yet. Raised by the arms of Dispatch that stand for it. Safe: nothing is claimed. -/
  | notModelled (mnemonic : String)
  deriving DecidableEq, Repr

/-! ### Stations, cores and engines -/

/-- A pending Waypoint arm of a Station (R93, R139, R525). -/
structure Arm where
  armId : Nat
  t : Nat
  stitch : Bool
  action : Nat
  kind : Nat
  flags : Nat
  unit : W32
  parts : PartMap
  p0 : Nat
  p1 : Nat
  deriving DecidableEq, Repr

/-- An event on its way to its recipients (R59, R519): what its record holds, the Sessions its chapter names, and
whether the recipients of R519 and the tray get it; with `onlyParts` no partition beside `parts` is concerned. -/
structure Ev where
  code : Nat
  source : W32
  stamp : Nat
  detail : List W32
  named : List Nat := []
  parts : PartMap := 0
  wide : Bool := true
  tray : Bool := false
  cookie : W64 := 0
  voidFlag : Bool := false
  onlyParts : Bool := false
  deriving DecidableEq, Repr

/-- One request of the repeat store of a Station with its response (R53). -/
structure Dup where
  src : Nat
  tag : Nat
  rsp : Frame
  deriving DecidableEq, Repr

/-- What a record of a source holds beside its references (Table 8.1). -/
inductive TraceRec where
  | tx (kind aux addr : Nat)
  | sync (reason addr : Nat)
  | sleep
  | wake
  | redact (count span : Nat)
  | overrun (count : Nat)
  | mark (value : Nat)
  | halt (reason aux : Nat)
  | resume (mask : Nat)
  | link (sub vc len : Nat) (header : List Byte)
  deriving DecidableEq, Repr

/-- What is kept of one source of a stream (R254-R262, R271). At the Station: the references, the records since its last SYNC, the
reason a SYNC is owed, whether it has a record in the open Folio, and the records lost there. At the source: the records lost at its
queue, the open redaction run (count, first and last stamp), the sampler's count, the stamp of its latest record, and the Waypoint of the
start from which it records. -/
structure SrcRef where
  stamp : Nat := 0
  addr : Nat := 0
  since : Nat := 0
  owed : Nat := 0
  inFolio : Bool := false
  lost : Nat := 0
  tapLost : Nat := 0
  redact : Option (Nat × Nat × Nat) := none
  sampled : Nat := 0
  last : Nat := 0
  started : Nat := 0
  deriving DecidableEq, Repr

/-- A record in the queue from a Tap to its Station (R271): the slot for which it was made, its stamp, whether ALIGNED was 0 then, and the
record. -/
structure TapRec where
  slot : Nat
  stamp : Nat
  loose : Bool
  body : TraceRec
  deriving DecidableEq, Repr

/-- An open trace Folio (R266): its records, their count, the first stamp and the flags of Table 8.2. -/
structure OpenFolio where
  bytes : List Byte := []
  records : Nat := 0
  first : Nat := 0
  flags : Nat := 0
  deriving DecidableEq, Repr

/-- A stream on one Station (R266-R276): whether it records here, the frames that TRACE_CONFIG took for it, the open Folio, its frame,
the sources (0-127 Taps, 128-143 ports), a horizon not yet closed, the records at or behind a horizon (source and record), and the records
written and lost since TRACE_START. -/
structure TrStream where
  running : Bool := false
  stopped : Bool := false
  mode : Nat := 0
  cls : Nat := 1
  quota : Nat := 0
  startT : Nat := 0
  folio : OpenFolio := { }
  frame : Option Nat := none
  srcs : Store SrcRef := []
  seq : Nat := 0
  horizon : Option Nat := none
  behind : List (Nat × TapRec) := []
  made : Nat := 0
  lost : Nat := 0
  deriving DecidableEq, Repr

/-- A frame of the trace buffer with its index entry (R268, R269): owning slot, state (0 held and empty, 1 open,
2 closed, 3 CORRUPT), whether a drain reads it, first SEQ, FIRST stamp, its Folios, and the bytes it holds. -/
structure TrFrame where
  slot : Nat
  state : Nat := 0
  reading : Bool := false
  seq : Nat := 0
  stamp : Nat := 0
  folios : Nat := 0
  data : List Byte := []
  deriving DecidableEq, Repr

/-- What a Station keeps for a partition (R523): the freeze settings, the Sentinel images of MX and VX engines and the
watchdog periods in µs of engines 0-3. -/
structure PartCfg where
  freeze : Nat := 0x1F
  mx : Nat := 0
  vx : Nat := 0
  periods : List Nat := [0, 0, 0, 0]
  deriving DecidableEq, Repr

/-- A watchdog entry (R420): the count left at the stamp from which it counts, when it counts, and whether it has
expired. -/
structure Wdt where
  period : Nat := 0
  remain : Nat := 0
  since : Option Nat := none
  expired : Bool := false
  paused : Bool := false
  deriving DecidableEq, Repr

/-- One record of a Cut Buffer (Table 5.8). -/
structure CutRec where
  stamp : Nat
  vc : Nat
  err : Bool
  bytes : List Byte
  deriving DecidableEq, Repr

/-- A Cut Buffer of a Station (R144-R150): the dump slot that it records for, its records, the arrivals held behind the
marker, the closing stamp, whether it closed as an external endpoint or INCOMPLETE, whether the cut froze the endpoint, and
the packets left with the sender, and whether its sender still owes the cut marker (R143). An external endpoint of an anchor in a cut that
is in no scope holds what arrives in `behind`. Its STATE, MARKER and FULL bits are those of STN_CUT_STAT. -/
structure CutBuf where
  slot : Nat := 0
  recs : List CutRec := []
  behind : List CutRec := []
  closedAt : Nat := 0
  ext : Bool := false
  inc : Bool := false
  frozen : Bool := false
  refused : Nat := 0
  owes : Bool := false
  deriving DecidableEq, Repr

/-- What a Station keeps of a Stitch (R139-R164): the arm, its members as resolved at T (cores, endpoints and channels, and whether
it fired), its cut point, whether its deadline has passed and the cores that were asleep then, whether it captures in the slot, the claim that
stopped its Quire, and whether it wrote its index. -/
structure Cap where
  cmd : Nat := 0
  armId : Nat := 0
  t : Nat := 0
  kind : Nat := 4
  flags : Nat := 0
  parts : PartMap := 0
  fired : Bool := false
  cores : List Nat := []
  ports : List Nat := []
  chans : List Nat := []
  cutAt : Option Nat := none
  deadline : Bool := false
  asleep : List Nat := []
  done : Bool := false
  claim : Option Nat := none
  deriving DecidableEq, Repr

/-- A FIRST_FAULT arm that has fired and not yet collected (R243). -/
structure Collect where
  armId : Nat
  cmd : Nat
  t : Nat
  clear : Bool
  kinds : Nat
  engs : List (Nat × Nat)
  deriving DecidableEq, Repr

/-- The mode of the units of one class on a die (R415): applied, previous and staged values with their epochs. -/
structure ModeCfg where
  value : Nat := 0
  epoch : Nat := 0
  prevValue : Nat := 0
  prevEpoch : Nat := 0
  staged : Option (Nat × Nat) := none
  deriving DecidableEq, Repr

/-- The parts of a Station that are no register (Table 1.3). Station d is at key d. `queues` holds the records that wait at each Tap (R271),
`lastBurst` the stamp of the latest burst on each route (0 the port 4 link, 1 the route to the serving hub's anchor; R274), and `lastOverrun`
that of the latest TRACE_OVERRUN, `badShadow` the units whose shadow met a double-bit error and is not rewritten yet (Table 15.3). -/
structure Station where
  replica : W64 := 0
  slew : Int := 0
  slewClk : Nat := 1000
  holdFor : Nat := 0
  goodSyncs : Nat := 0
  wpts : List Arm := []
  dups : List Dup := []
  events : List Ev := []
  late : List Nat := []
  streams : Store TrStream := []
  frames : Store (Option TrFrame) := []
  queues : Store (List TapRec) := []
  lastBurst : Store (Option Nat) := []
  lastOverrun : Option Nat := none
  cfg : Store PartCfg := []
  wdts : Store Wdt := []
  cuts : Store CutBuf := []
  caps : Store (Option Cap) := []
  collects : List Collect := []
  modes : Store ModeCfg := []
  bulk : Store (List Byte) := []
  chunks : Nat := 0
  echo : Store (Nat × Nat) := []
  spill : List (Nat × TrFrame) := []
  spillNext : Nat := 0
  stop : Option (Nat × Nat) := none
  pairErr : Option Nat := none
  badRun : Store Nat := []
  badShadow : List Nat := []
  deriving DecidableEq, Repr

/-- What an engine's Run Controller holds beside its registers (R101, R112, R118). The debug state itself is the
nibble of TAP_RUN_STATE. Engine e of Tap p on die d is at key d × 512 + p × 4 + e. -/
structure Eng where
  work : Bool := false
  inSeq : Bool := false
  lock : Bool := false
  reason : Nat := 0
  deferFrom : Nat := 0
  anyBoundary : Bool := false
  lateOrigin : Bool := false
  stepMode : Nat := 0
  stepCmd : Nat := 0
  stepUntil : Nat := 0
  stopNext : Bool := false
  passBreak : Bool := false
  haltSess : Nat := 0
  haltPart : Nat := 0
  stopping : Bool := false
  torn : Bool := false
  inReset : Bool := false
  deriving DecidableEq, Repr

/-- What the model keeps of a core and its Tap beside registers (frzHeld: the freeze settings with which it halted, R124;
cutHeld: a cut holds its classes 1 and 3, R141; img: its local
memory holds the boot image but for the chunks in `missing`, R396; sleepReq: a power-down request is held back, R103; loose: bit j tells that
Sentinel latch j was stamped while ALIGNED was 0, R98). Core i of die d is at key d × 128 + i. -/
structure CoreSt where
  dir : List DirEntry := []
  powered : Bool := true
  wakeReq : Bool := false
  memGen : Nat := 0
  brkSess : Store Nat := []
  brkCookie : Store W64 := []
  brkSecure : Nat := 0
  brkSkip : Store Nat := []
  missing : Nat := 0
  img : Bool := false
  booted : Bool := false
  released : Bool := false
  resetPending : Nat := 0
  frzHeld : Option Nat := none
  cutHeld : Bool := false
  sleepReq : Bool := false
  loose : Nat := 0
  deriving DecidableEq, Repr

/-! ### The hub: Spine side -/

/-- What a request reaches at its Station: an address of Table 2.7; or, where the spec gives the frame no address (log
entry 24), bytes of a region of a core, an HBM address, or the configuration of a partition (kind 1 freeze, 2 Sentinel,
3 watchdog, with its two values). -/
inductive Target where
  | reg
  | state (core region offset len : Nat)
  | hbm (addr : Nat)
  | config (kind part a b : Nat)
  deriving DecidableEq, Repr

/-- A request that a command makes: the Station, the frame, what it reaches, and its place in the command's data. -/
structure Req where
  die : Nat
  frame : Frame
  target : Target := .reg
  idx : Nat := 0
  deriving DecidableEq, Repr

/-- A request of the hub that no response has answered yet (R52): the ring it went to, the command it belongs to, the
attempts made and the GTC at which it times out. -/
structure OutReq where
  tag : Nat
  ring : Nat
  cmd : Nat
  tries : Nat
  due : Nat
  req : Req
  deriving DecidableEq, Repr

/-- A gather of the hub that has not returned (R57): the scope it counts over, its initial payload, what has been combined so far, and the
copies still on the ring (two while the ring is masked, R61). -/
structure OutGather where
  tag : Nat
  ring : Nat
  gkind : Nat
  query : Nat
  len : Nat
  cmd : Nat
  copies : Nat
  visited : Nat
  init : List Byte
  acc : List Byte
  due : Nat
  tries : Nat
  deriving DecidableEq, Repr

/-- A frame on its way over outputs (R47): whether the node of the output inserted it, the clock from which it waits there,
the ring that it is for, and the outputs that it has still to pass after this one (trunks and its ring). Outputs are
numbered: 2 × die + direction for a Station's ring output (0 CW, 1 CCW), 200 + 2 × trunk + direction for a trunk (0 towards
anchor trunk + 1), and 208 + ring for the way from a ring node to its own anchor's Station. -/
structure QFrame where
  own : Bool
  since : Nat
  ring : Nat
  hops : List Nat
  f : Frame
  fin : FrameEnd := .good
  deriving DecidableEq, Repr

/-- An output of a Station or trunk (R47): the clock at which the frame under way has left it, and the frames that wait. -/
structure OutPort where
  busy : Nat := 0
  queue : List QFrame := []
  deriving DecidableEq, Repr

/-- What the serving hub keeps of the Spine, and the segments that are down with those of which it has heard, and those
retrained that wait for a calibration (R88); `hold` marks the rings on which it starts no new frame (R62), and `onHold` holds
the frames that wait there. `outs` are the outputs with the frames that wait at them, and `flights` the frames that cross a
trunk, each with the clock at which it reaches the trunk's far end (R39, R41). -/
structure Spine where
  nextTag : Store Nat := []
  reqs : List OutReq := []
  gathers : List OutGather := []
  silent : Nat := 0
  down : List (Nat × Nat) := []
  known : List (Nat × Nat) := []
  retrained : List (Nat × Nat) := []
  beats : Store Nat := []
  beatSeq : Nat := 0
  missed : Store Nat := []
  shareUsed : Store Nat := []
  shareWindow : Store Nat := []
  heldFrames : List (Nat × Nat × Frame) := []
  stallSince : Store Nat := []
  hold : Nat := 0
  onHold : List (Nat × Frame) := []
  outs : Store OutPort := []
  flights : List (Nat × Nat × QFrame) := []
  deriving DecidableEq, Repr

/-- The GTC of the serving hub and its discipline (R71-R82): `calAt` holds for each ring one more than the GTC at its latest
calibration, 0 before the first, and `standby` how far the standby's GTC stood from this one at its latest heartbeat (R73).
`calStart` holds one more than the GTC at which a ring's latest round of exchanges began, and `calOpen` the positions that it
still measures (25 and 26 for the trunks of its anchor). `ns` counts the time that has passed in ns, whatever is loaded into
the GTC, and `lastPps` is its value at the latest PPS edge. -/
structure Time where
  gtc : W64 := 0
  slew : Int := 0
  slewClk : Nat := 1000
  ppsSeen : Bool := false
  ppsGood : Nat := 0
  holdTicks : Nat := 0
  lockOwed : Bool := false
  nextSync : Nat := 0
  calAt : Store Nat := []
  calStart : Store Nat := []
  calOpen : Store Nat := []
  standby : Int := 0
  ns : Nat := 0
  lastPps : Nat := 0
  deriving DecidableEq, Repr

/-! ### The hub: Sessions and commands -/

/-- A level that a Session holds over a partition: its level (Table 14.6), the root key that granted it and the end of
the credential (R475, R478). -/
structure Grant where
  level : Nat
  root : Nat := 0
  notAfter : Nat := 2 ^ 64 - 1
  whole : Bool := false
  deriving DecidableEq, Repr

/-- A Session (Table 10.5), known by its port and handle together (sid): the descriptor fields as paged in, the counters, the levels, the packets read and not yet
dispatched (opcode and packet), and the records held under R340. `ending` is 0 while the Session does not end, then 1 by
CLOSE_SESSION, 2 by timeout, 3 as lost, 4 by a detach, and 5 once only its last records remain; 6 marks an event ring that can
not be trusted (R508), and 7 a Session that ends because its ring fields cannot (R325). -/
structure Session where
  sid : Nat
  handle : W32
  port : Port
  sqBase : Nat := 0
  sqSlots : Nat := 256
  eqSlots : Nat := 256
  eqBase : Nat := 0
  vector : Nat := 0
  vecEn : Bool := false
  coalesceUs : Nat := 0
  timeoutMs : Nat := 0
  open_ : Bool := false
  closed : Bool := false
  ending : Nat := 0
  endCookie : W64 := 0
  slot : Option Nat := none
  sqProd : Nat := 0
  sqCons : Nat := 0
  eqProd : Nat := 0
  nextSeq : Nat := 0
  levels : Store Grant := []
  ready : List (Nat × Pkt) := []
  held : List (List W32) := []
  lost : Nat := 0
  lastBell : Nat := 0
  lastIrq : Option Nat := none
  irqDue : Option Nat := none
  challenge : Option (Nat × List Byte) := none
  deriving DecidableEq, Repr

/-- Who issued what the hub executes: for a trigger its number and that of the halt; for a JOB_CMD token its job, its Waypoint and the port by which it came. -/
inductive Origin where
  | session (sid : Nat)
  | run (index : Nat)
  | trigger (n id : Nat)
  | firmware
  | fabric (job : W32) (t die port : Nat)
  deriving DecidableEq, Repr

/-- A scope descriptor (Table 4.3) in the hub's terms. -/
structure Scope where
  kind : Nat
  part : Nat
  unit : W32
  epoch : W32
  parts : PartMap
  deriving DecidableEq, Repr

/-- A command that the hub executes. The fields beyond the first group are those that its chapter uses; `acted` counts the
Stations on which its arm acted, `imm` tells that it acts at once, `quiet` holds the dies whose Stations were found silent since its
arms were sent (R520), and `share` tells that its frames are a Routine's though the hub itself issued it (R302). -/
structure Cmd where
  id : Nat
  origin : Origin
  sid : Nat
  port : Port
  op : Nat
  cookie : W64
  body : List W32
  scope : Scope
  t : Nat := 0
  flags : Nat := 0
  phase : Nat := 0
  arms : List Nat := []
  members : Nat := 0
  notHalted : Nat := 0
  retired : Nat := 0
  stuck : Nat := 0
  moved : Bool := false
  dark : Nat := 0
  late : Bool := false
  limit : Bool := false
  aborted : Bool := false
  rings : Nat := 0
  seen : Nat := 0
  todo : List Req := []
  skipped : Nat := 0
  done : Nat := 0
  need : Nat := 0
  data : List Byte := []
  vals : List Nat := []
  aux : List Nat := []
  start : Nat := 0
  acted : Nat := 0
  imm : Bool := false
  quiet : Nat := 0
  share : Bool := false
  deriving DecidableEq, Repr

/-- An arm as the hub counts it (R93): the Stations on which it is still pending, and the Session whose command armed it
(R339; 0 for none), and the arm as it was sent. -/
structure HubArm where
  armId : Nat
  t : Nat
  cmd : Nat
  dies : Nat
  sid : Option Nat := none
  arm : Arm
  deriving DecidableEq, Repr

/-- The root structure as read (Table 10.3). -/
structure Root where
  bases : List Nat
  counts : List Nat
  deriving DecidableEq, Repr

/-- What the host interface keeps (R321, R325, R327). -/
structure HostIf where
  root : Option Root := none
  sessions : List Session := []
  draws : Nat := 0
  captured : Store (Option Nat) := []
  deriving DecidableEq, Repr

/-! ### Run control -/

/-- An orphaned halt (R134): the partition that holds the units now (256 for the free pool), the partition in which
they were halted, their cores (die × 128 + core) and when the policy is due. -/
structure Orphan where
  now : Nat
  was : Nat
  cores : List Nat
  due : Nat
  deriving DecidableEq, Repr

/-- The run-control objects of the hub; `cfg` is its own copy of each partition's configuration (R523), and `configOwed` lists
for each die the (kind, partition) pairs that a skipped write concerned. -/
structure RunSt where
  arms : List HubArm := []
  orphans : List Orphan := []
  flagSess : Store Nat := []
  flagCookie : Store W64 := []
  jobHaltParts : PartMap := 0
  configOwed : Store (List (Nat × Nat)) := []
  cfg : Store PartCfg := []
  deriving DecidableEq, Repr

/-! ### Outputs -/

/-- What the block drives at its ports, oldest first (Table 16.1). Of a mission link, `link` is: 0 a cut marker, 1 no more credit, 2 credit
again, 3 a reset; 4 and 6 Abyel takes the link in frozen and in shared mode, and 5 it gives the link back (R4); `route` is the same for the
links of the fabric's route from a die to the serving hub's anchor (R274). -/
inductive Out where
  | regData (v : W64)
  | sent (output : Nat) (f : Frame) (fin : FrameEnd)
  | msix (vector : Nat)
  | bindAck (unit : W32) (ch : Nat) (epoch : W32)
  | bindRefuse (unit : W32) (ch : Nat) (cause : Nat)
  | jobRefuse (job : W32) (cause : Nat)
  | strobe (die tap cycles : Nat)
  | wake (die core : Nat)
  | stateAccess (die core region offset len : Nat)
  | link (die port kind : Nat)
  | route (die kind : Nat)
  | deliver (die port : Nat) (packets : List (List Byte))
  | scanFrame (bytes : List Byte)
  | i3c (bytes : List Byte)
  | mctp (tag : Nat) (owner : Bool) (message : List Byte)
  | ibi
  | hotJoin
  | token (die port : Nat) (bytes : List Byte)
  | reset (die core engines : Nat)
  | warmReq
  | isolate
  | released
  deriving DecidableEq, Repr

/-! ### Scan port, sideband and tray signals -/

/-- The scan port of the serving instance (R352-R372): the instruction, the streams' numbering, what is queued
outbound (SEQ and record) and the last eight RECORD frames (FSEQ, SEQ and record). -/
structure ScanSt where
  ir : Nat := 1
  attached : Bool := false
  lastFseq : Nat := 0xFFFF
  outFseq : Nat := 0
  queue : List (Nat × List W32) := []
  kept : List (Nat × Nat × List W32) := []
  keepaliveMs : Nat := 0
  lastIn : Nat := 0
  rxErr : Nat := 0
  gen : Nat := 0
  helloDue : Option Nat := none
  deriving DecidableEq, Repr

/-- The I3C target and its MCTP endpoint (R373-R379); `replyTags` holds the tags of the COMMANDs not yet answered, oldest
first. -/
structure SideSt where
  addr : Option Nat := none
  events : Nat := 1
  mwl : Nat := 69
  mrl : Nat := 69
  eid : Nat := 0
  gen : Nat := 0
  queue : List (List W32) := []
  trayQ : List (List W32) := []
  traySeq : Nat := 0
  trayLost : Nat := 0
  tag : Nat := 0
  replyTags : List Nat := []
  lastCommand : Nat := 0
  deriving DecidableEq, Repr

/-- The tray signals (Table 11.8): levels of the inputs, the power-cycle request and when it is to be asserted, the
TRIG_OUT pulses, when they end and those still to start (pin and time), and the stamps of the last rising and falling edge of each TRIG_IN pin. -/
structure Pins where
  holdupOk : Bool := false
  trigIn : Nat := 0
  lastEdge : Store Nat := []
  pwrReq : Bool := false
  pwrDue : Option Nat := none
  trigOut : Nat := 0
  trigEnd : Store Nat := []
  trigStart : List (Nat × Nat) := []
  refSelLocal : Bool := true
  deriving DecidableEq, Repr

/-! ### Bring-up -/

/-- A Die Notebook (R400, R406, R465): the user partition, the training record pairs and the ledger entries. -/
structure Notebook where
  user : Store Byte := []
  training : List (TrainRecord × TrainRecord) := []
  ledger : List LedgerEntry := []
  deriving DecidableEq, Repr

/-- A difference of Roll Call 2 (R413). -/
structure Diff where
  unit : W32
  item : Nat
  cls : Nat
  expected : Nat
  found : Nat
  aux : Nat
  deriving DecidableEq, Repr

/-- What bring-up keeps beside registers: the surroundings as the last start saw them, both flashes (A0, A2), the Die
Notebooks, the dies hidden whole by ledger, licence or life cycle, those that a STATION_FAULT entry hides, the licence in force, the differences, kept up to
1,024, with the counts of all, of the FATAL and of the DEGRADED ones, the mode classes that are split, the revocations that wait for a Station, and whether the pool has been handed over, the ledger
entries that each die gained, the image broadcast last, and the draw at which the latest reset left core memory undefined. -/
structure BupSt where
  env : Option StartEnv := none
  flash0 : Flash := { }
  flash2 : Flash := { }
  notes : Store Notebook := []
  hiddenDies : Nat := 0
  stnHidden : Nat := 0
  lic : List Byte := []
  diffs : List Diff := []
  diffCount : Nat := 0
  diffFatal : Nat := 0
  diffDegraded : Nat := 0
  split : Nat := 0
  modeEpoch : Store Nat := []
  modeStaged : Store (Option (Nat × Nat)) := []
  revokeLater : List (Nat × W32 × Nat) := []
  pool : Bool := false
  newDefects : Store Nat := []
  bootImg : List Byte := []
  memEpoch : Nat := 0
  deriving DecidableEq, Repr

/-! ### Dump slots -/

/-- A region entry of a Quire (Table 5.7), with the partition of its core (256 for none). -/
structure RegionEntry where
  unit : W32
  region : Nat
  cls : Nat
  flags : Nat
  folio : Nat
  length : Nat
  part : Nat := 256
  deriving DecidableEq, Repr

/-- A Quire (Tables 5.5-5.7, 5.10): die, position, stack, status bits, the run of CAPTURE Folios reserved for it (first and
count) and the Folios it took, halt records as bytes, entries, and what PRESS left: the class, the run of PRESSED units and which Folios stay in CAPTURE or lie in OVERFLOW. -/
structure Quire where
  die : Nat
  q : Nat
  stack : Nat
  status : Nat := 0
  base : Nat := 0
  span : Nat := 0
  folios : Nat := 0
  endT : Nat := 0
  hrecs : List (List Byte) := []
  entries : List RegionEntry := []
  cls : Nat := 0
  pressed : Option Nat := none
  inPlace : List Nat := []
  overflow : List Nat := []
  deriving DecidableEq, Repr

/-- A list entry of a Colophon (Table 5.11). -/
structure ListEntry where
  unit : W32
  kind : Nat
  aux : Nat := 0
  stamp : Nat := 0
  flags : Nat := 0
  deriving DecidableEq, Repr

/-- A dump slot (R138, R174-R181): STH_SLOT's state, the scope with its binding epochs at T, the owner (Session and Dump
handle), job, Waypoint and flags, the reservation of each stack (first Folio and count), the Quires, the pinned channels
(die × 16 + channel), the events listed so far, the completion status and the Colophon; whether a failover happened, whether
some Station fired, and when the next progress gather is due. -/
structure Dump where
  state : Nat := 1
  kind : Nat := 4
  composer : Bool := false
  part : Nat := 0
  parts : PartMap := 0
  epochs : List (Nat × Nat) := []
  job : W32 := 0
  sid : Nat := 0
  handle : W32 := 0
  cmd : Nat := 0
  t : Nat := 0
  flags : Nat := 0
  secure : PartMap := 0
  reserved : Store (Nat × Nat) := []
  quires : List Quire := []
  pins : List Nat := []
  listed : List ListEntry := []
  status : Nat := 0
  colophon : List Byte := []
  failover : Bool := false
  fired : Bool := false
  nextGather : Nat := 0
  listTotal : Nat := 0
  deriving DecidableEq, Repr

/-- The dump slots 0-7. -/
structure SthSt where
  slots : Store (Option Dump) := []
  deriving DecidableEq, Repr

/-! ### Recovery -/

/-- An escalation of a partition (256 for the package; R424-R432): the rung, its cause and start, the ceiling, the
Waypoint of a stop, whether its drain has ended, the cores of a core-scoped rung 3, the engines of the rung-2 set
(die × 512 + Tap × 4 + engine), the commands that wait for it, whether it waits for a Stitch, and the engines reset, engines skipped and arrivals dropped so far. -/
structure Esc where
  rung : Nat
  cause : Nat
  start : Nat
  ceiling : Nat
  ts : Nat := 0
  drained : Bool := false
  cores : Option (List Nat) := none
  engines : List Nat := []
  cmds : List Nat := []
  waitStitch : Bool := false
  reset : Nat := 0
  dark : Nat := 0
  dropped : Nat := 0
  deriving DecidableEq, Repr

/-- What recovery keeps: escalations by partition, the context epochs, the aborts that are armed (arm, job, Waypoint, origin,
late), the (ORIGIN, SEQ) pairs of tokens seen, the number of the next token,
the job-scope commands that it originated (job, Waypoint, Session, cookie), and of each JOB_CMD that came its job, Waypoint,
cookie and port of arrival. -/
structure RcvSt where
  escs : Store (Option Esc) := []
  ctx : Store Nat := []
  aborts : List (Nat × Nat × Nat × Nat × Bool) := []
  seen : List (Nat × Nat) := []
  nextSeq : Nat := 0
  sent : List (W32 × Nat × Nat × W64) := []
  arrived : List (W32 × Nat × W64 × Nat × Nat) := []
  deriving DecidableEq, Repr

/-! ### Life cycle -/

/-- A transition in progress (R459): its target and DATA, its command, its phase (Table 14.3 and LCY_TRANS), the time in ns at which the
phase ends, and the µs that its phases take so far. -/
structure LcMove where
  target : Nat
  data : List Byte
  cmd : Nat
  phase : Nat
  due : Nat
  us : Nat
  deriving DecidableEq, Repr

/-- The Authority Unit's OTP: fuse cells of the two hub copies (key copy × 256 + fuse × 3 + cell, fuses 0-11 the intent and
done fuses of pairs 1-6 in turn, 12-35 the token fuses) and of the dies (key die × 64 + fuse × 3 + cell), with 0 UNBLOWN,
1 BLOWN, 2 MARGINAL; the digests of the roots by number (0 licence, 1 manufacturing, 2 operator, 3 analysis, 4
firmware; one that is not listed is the digest fused at manufacture), whether the operator's is wiped, and the draw (plus 1) at which a die made its attestation key, 0 for
none; and the transition in progress. -/
structure LcySt where
  hub : Store Nat := []
  dies : Store Nat := []
  digests : Store (List Byte) := []
  opWiped : Bool := false
  keys : Store Nat := []
  move : Option LcMove := none
  deriving DecidableEq, Repr

/-! ### The Composer's side and health -/

/-- The owner that the Composer records for a partition: the digest of its owner key and the port it counts for (R328,
R475). -/
structure Owner where
  digest : List Byte
  port : Port
  deriving DecidableEq, Repr

/-- A write of a binding that a Station has not taken yet (R31): the new epoch of every unit of a partition on it (no unit), or the
new binding of one unit (`part` 256 for the free pool) that was bound to `was`. -/
structure ShadowWrite where
  die : Nat
  unit : Option Nat
  was : Nat
  part : Nat
  epoch : Nat
  deriving DecidableEq, Repr

/-- A BIND that the hub has not acknowledged yet (R31): what the acknowledgement carries, and the Stations that it affects. -/
structure BindAck where
  unit : W32
  ch : Nat
  epoch : W32
  dies : List Nat
  deriving DecidableEq, Repr

/-- What the hub keeps of the Composer's messages: owners, the current epoch of each partition (R31), job entries
(R439), a deferred FABRIC message (R27), and the writes and acknowledgements of re-binds that are owed (R31). -/
structure CompSt where
  owners : Store (Option Owner) := []
  epochs : Store Nat := []
  jobs : List (W32 × PartMap) := []
  fabricDue : Option (Nat × Bool) := none
  owed : List ShadowWrite := []
  acks : List BindAck := []
  deriving DecidableEq, Repr

/-- What the hub keeps of a die's health (Tables 15.5, 15.6): faults and ECC errors since the start, the latest fault, the
end-of-life dates, the signal that sets them and when they were fitted, the signals already reported (code × 256 + unit), the
Taps that went dark, and the stamp of the latest copy of the wear signals to the Die Notebook (R493). -/
structure DieHealth where
  faults : Nat := 0
  lastT : Nat := 0
  lastCode : Nat := 0
  corrected : Nat := 0
  uncorrected : Nat := 0
  p50 : Nat := 0
  p90 : Nat := 0
  limit : Nat := 0
  fitAt : Option Nat := none
  raised : List Nat := []
  tapsDark : Nat := 0
  copyAt : Nat := 0
  deriving DecidableEq, Repr

/-- What health keeps beside registers: the Stations declared faulted (R487, R489), and each die's health. -/
structure HthSt where
  faulted : Nat := 0
  dies : Store DieHealth := []
  faults : Nat := 0
  deriving DecidableEq, Repr

/-- The other hub instance and this one's own state as an instance: the other is present and beats, this one has
stopped its heartbeat, this one was isolated, the other was lost since the last reset, and which instance serves (false A0,
true A2). -/
structure PeerSt where
  present : Bool := false
  mute : Bool := false
  isolated : Bool := false
  gone : Bool := false
  onA2 : Bool := false
  deriving DecidableEq, Repr

/-! ### Routines and triggers -/

/-- A loaded Routine (R287-R299): its Session, its image (scope entries of four words, steps of 128 bits), where image
and save area lie, scratch and counters. -/
structure Routine where
  handle : W32
  sid : Nat
  scopes : List (List W32)
  steps : List Nat
  paramBytes : Nat
  name : W64
  crc : Nat
  image : W32
  imageOff : Nat
  imageLen : Nat
  save : W32
  saveOff : Nat
  resident : Bool := true
  scratch : Store Byte := []
  counters : Store Nat := []
  runs : Nat := 0
  lastRan : Nat := 0
  spoiled : Bool := false
  deriving DecidableEq, Repr

/-- One run of a Routine, queued or executing (R300-R303): the step at which it stands, the step's command while one
executes, what a wait or a completed step left, whether its result goes to scratch, and the broadcasts of its step (R294). -/
structure Run where
  index : Nat
  routine : W32
  sid : Nat
  executing : Bool := false
  cmd : Option Nat := none
  trigger : Option Nat := none
  t0 : Nat := 0
  source : W32 := 0
  pc : Nat := 0
  steps : Nat := 0
  lastT : Nat := 0
  waiting : Option Nat := none
  busyStep : Bool := false
  result : Option (Nat × List W32) := none
  scratchTo : Bool := false
  stop : Bool := false
  frames : List Frame := []
  deriving DecidableEq, Repr

/-- One trigger (R306-R312). -/
structure Trigger where
  sid : Nat
  cookie : W64
  source : Nat
  action : Nat
  oneshot : Bool
  outEn : Bool
  outPin : Nat
  reanchor : Bool
  falling : Bool
  pin : Nat
  routine : W32
  part : Nat
  period : Nat
  phase : Nat
  advanceUs : Nat
  scope : List W32
  base : Nat := 0
  nextT : Nat := 0
  fires : Nat := 0
  dropped : Nat := 0
  pending : Option (Nat × W32) := none
  lastDrop : Option Nat := none
  inRun : Option Nat := none
  inHalt : Option Nat := none
  deriving DecidableEq, Repr

/-- The Routine Sequencer. Trigger n is at key n of `triggers` while it is armed. -/
structure RtnSt where
  routines : List Routine := []
  runs : List Run := []
  triggers : Store (Option Trigger) := []
  deriving DecidableEq, Repr

/-! ### Trace streams -/

/-- A record on its way into the merge: its frame, die, stamp and source, whether its Folio was stamped while not aligned, the
IN_WINDOW and GAP flags, and the fields of Table 8.5. -/
structure MergeRec where
  key : Nat
  die : Nat
  stamp : Nat
  source : W32
  loose : Bool := false
  window : Bool := false
  gap : Bool := false
  ty : Nat
  sub : Nat := 0
  aux : Nat := 0
  a : Nat := 0
  b : Nat := 0
  deriving DecidableEq, Repr

/-- The merge of a horizon (R277-R279): the horizon and the one before it, the frames that it reads and those of them not yet read, the
merged records of all of these in order, how many of them the drain in progress has written out, whether they stand in the Merge Buffer
and since when, the records lost and whether records were skipped or lost. The records before the first one of an unread frame stand
in the Merge Buffer. A frame is named by die × 2^16 + frame, with 2^15 added for one of a Hamper ring. -/
structure Merge where
  low : Nat
  high : Nat
  frames : List Nat := []
  unread : List Nat := []
  waiting : List MergeRec := []
  written : Nat := 0
  present : Bool := false
  since : Nat := 0
  lost : Nat := 0
  overrun : Bool := false
  deriving DecidableEq, Repr

/-- A configured stream (R248-R251): the slot is its place in `slots`. State 1 CONFIGURED, 2 ARMED, 3 RUNNING,
4 STOPPED; `arm` is the arm that starts it and `cookie` that of its TRACE_START (R341); `seqNext` holds the next SEQ that a drain expects of each die, and `gaps` the sources
(die × 256 + source) whose next merged record carries GAP. -/
structure Stream where
  handle : W32
  sid : Nat
  scope : Scope
  state : Nat := 1
  mode : Nat
  cls : Nat
  types : Nat
  engMask : Nat
  sample : Nat
  links : Bool
  rangeEn : Nat
  frames : Nat
  dir : Nat
  vc : Nat
  spill : W32
  spillLen : Nat
  ranges : List Nat
  dies : List Nat
  startT : Nat := 0
  stopT : Nat := 0
  horizon : Nat := 0
  arm : Nat := 0
  cookie : W64 := 0
  merge : Option Merge := none
  seqNext : Store Nat := []
  gaps : List Nat := []
  releaseAtStop : Bool := false
  deriving DecidableEq, Repr

/-- The streams by slot (R248), and the partitions whose trace policy permits privileged trace (R261). -/
structure TrcSt where
  slots : Store (Option Stream) := []
  policy : PartMap := 0
  deriving DecidableEq, Repr

/-! ### The Tally -/

/-- An extreme of a Tally (R220): its element's index, encoding and scale byte, its place in the order of R220 and its value as an
FP64. -/
structure Extreme where
  index : Nat
  bits : Nat
  scale : Nat
  key : Int
  f64 : Nat
  deriving DecidableEq, Repr

/-- What a Tally unit has made of bytes (R219-R225): class counts, extremes, exact sums, histogram, NaN blocks, and for element
and scale bytes their number and the CRC registers of both lanes from a zero start. -/
structure TallyAcc where
  nan : Nat := 0
  pinf : Nat := 0
  ninf : Nat := 0
  zero : Nat := 0
  sub : Nat := 0
  normal : Nat := 0
  min : Option Extreme := none
  max : Option Extreme := none
  sum : Int := 0
  sumsq : Nat := 0
  hist : List Nat := List.replicate 64 0
  nanBlocks : Nat := 0
  elemLen : Nat := 0
  elemA : Nat := 0
  elemB : Nat := 0
  scaleLen : Nat := 0
  scaleA : Nat := 0
  scaleB : Nat := 0
  deriving DecidableEq, Repr

/-- A part of a Tally (R228): the entry it belongs to, its Station, its place (the core, region and scale region of mode 0), whether
its Station reads it, whether it has ended, what it gave (none for a read error), when it began and ended, and whether GTC_STATUS.VOID was
set meanwhile. -/
structure TallyPart where
  entry : Nat
  die : Nat
  core : Option (Nat × Nat × Nat) := none
  addr : Nat
  len : Nat
  first : Nat
  saddr : Nat
  slen : Nat
  active : Bool := false
  ended : Bool := false
  acc : Option TallyAcc := none
  began : Option Nat := none
  finished : Nat := 0
  void : Bool := false
  deriving DecidableEq, Repr

/-- A TALLY or COMPARE that is armed or reads (R228-R232). -/
structure TallyRun where
  cmd : Nat
  format : Nat
  uns : Bool
  parts : List TallyPart
  start : Option Nat := none
  last : Nat := 0
  void : Bool := false
  deriving DecidableEq, Repr

/-! ### The machine -/

/-- Everything the block holds but the queue of waiting commands. Registers of the hub window are keyed by offset;
Station and Tap registers by die × 2^24 + address (R68). -/
structure Mach where
  hregs : Store W64 := []
  sregs : Store W64 := []
  hostMem : Store Byte := []
  hbm : Store Byte := []
  coreMem : Store Byte := []
  time : Time := { }
  stns : Store Station := []
  engs : Store Eng := []
  cores : Store CoreSt := []
  spine : Spine := { }
  host : HostIf := { }
  cmds : List Cmd := []
  nextId : Nat := 1
  run : RunSt := { }
  out : List Out := []
  free : Nat := 0
  scan : ScanSt := { }
  side : SideSt := { }
  pins : Pins := { }
  bup : BupSt := { }
  comp : CompSt := { }
  hth : HthSt := { }
  rtn : RtnSt := { }
  trc : TrcSt := { }
  sth : SthSt := { }
  rcv : RcvSt := { }
  lcy : LcySt := { }
  peer : PeerSt := { }
  tly : List TallyRun := []
  deriving DecidableEq, Repr

/-- The state: the commands that wait, first in first out, and the machine. -/
structure State where
  pending : List Instr
  m : Mach
  deriving DecidableEq, Repr

/-- The machine right after reset: every register at its reset value and nothing else held. -/
def State.reset : State := { pending := [], m := { } }
end Sys2Proof.Machine
end

