-- ==== Sys2Proof/Machine/Regs.lean ====
section
/-! DEFINITION. Reading and writing the stored registers: reset values, fields, saturating counters (R9, R34, R70). -/

namespace Sys2Proof.Machine

/-- The reset values of the hub registers that are not zero (chapters 01-13). -/
def hubResets : List (Nat × Nat) := [
  (0x0000, 0x0000600141425931), (0x0008, 0x00000000003FE5A1), (0x0010, 0x0000000119488064), (0x0018, 2),
  (0x0120, 0x0000000010640A02), (0x0200, 0x0000000000030014), (0x0210, 0x19), (0x0498, 0x403C000FFE201000),
  (0x0800, 0x64), (0x0820, 0x1F), (0x0A00, 0x0000004000070002), (0x0C30, 0x3E8), (0x0D40, 0x0001000008808200),
  (0x0F08, 0x29), (0x0F10, 0x000064507D00C8C8)]

/-- A value of an association list of numbers, zero where it has none. -/
def assoc : List (Nat × Nat) → Nat → Nat
  | [], _ => 0
  | (k, v) :: r, x => if k = x then v else assoc r x

/-- The reset value of a hub register. -/
def hubReset (off : Nat) : W64 := BitVec.ofNat 64 (assoc hubResets off)

/-- The die kinds of Table 1.5: 0 compute, 1 memory-attach, 2 anchor. -/
def dieKind (d : Nat) : Nat := if d < 64 then 0 else if d < 96 then 1 else 2

/-- The Spine ring of a die (Table 1.5). -/
def ringOf (d : Nat) : Nat := if d < 64 then d / 16 else if d < 96 then (d - 64) / 8 else d - 96

/-- The ring position of a die (Table 2.1). -/
def posOf (d : Nat) : Nat :=
  if d < 64 then 3 * (d % 16 / 2) + 1 + d % 2 else if d < 96 then 3 * ((d - 64) % 8) + 3 else 0

/-- The die at position p of ring k (Table 2.1). -/
def dieAt (k p : Nat) : Nat :=
  if p = 0 then 96 + k
  else if p % 3 = 0 then 64 + 8 * k + (p / 3 - 1)
  else 16 * k + 2 * (p / 3) + (p % 3 - 1)

/-- The number of link ports of a die (Tables 1.4, 1.6). -/
def portsOf (d : Nat) : Nat := if d < 64 then 5 else if d < 96 then 2 else 16

/-- The number of Taps of a die (Table 1.4). -/
def tapsOf (d : Nat) : Nat := if d < 64 then 128 else 0

/-- The reset value of STN_ID. -/
def stnIdReset (d : Nat) : Nat :=
  d + dieKind d * 2 ^ 8 + ringOf d * 2 ^ 10 + tapsOf d * 2 ^ 16 + portsOf d * 2 ^ 32

/-- The address at which a Tap window begins (R69). -/
def tapBase (tap : Nat) : Nat := 0x100000 + tap * 0x2000

/-- The reset value of a Station or Tap register, by key. -/
def stnReset (key : Nat) : W64 :=
  let d := key / 2 ^ 24
  let a := key % 2 ^ 24
  BitVec.ofNat 64 (
    if a = 0 then stnIdReset d
    else if a = 8 then posOf d
    else if a = 0x7000 then 0x400
    else if 0x100000 ≤ a ∧ a < 0x200000 ∧ a % 0x2000 = 0x1400 then 0x1F else 0)

/-- A stored hub register. -/
def hget (m : Mach) (off : Nat) : W64 := Store.get (hubReset off) m.hregs off

/-- Write a stored hub register. -/
def hput (m : Mach) (off : Nat) (v : W64) : Mach := { m with hregs := Store.put (hubReset off) m.hregs off v }

/-- The key of a Station register. -/
def stnKey (d a : Nat) : Nat := d * 2 ^ 24 + a

/-- A stored Station register. -/
def sget (m : Mach) (d a : Nat) : W64 := Store.get (stnReset (stnKey d a)) m.sregs (stnKey d a)

/-- Write a stored Station register. -/
def sput (m : Mach) (d a : Nat) (v : W64) : Mach :=
  { m with sregs := Store.put (stnReset (stnKey d a)) m.sregs (stnKey d a) v }

/-- Field f, instance i, of the hub window. -/
def hf (m : Mach) (f : Fld) (i : Nat := 0) : Nat := fld (hget m (f.off i)) f.lo f.width

/-- Set field f, instance i, of the hub window. -/
def setHf (m : Mach) (f : Fld) (v : Nat) (i : Nat := 0) : Mach :=
  hput m (f.off i) (setFld (hget m (f.off i)) f.lo f.width v)

/-- Add to a hub counter that saturates at its all-ones value. -/
def incHf (m : Mach) (f : Fld) (n : Nat := 1) (i : Nat := 0) : Mach := setHf m f (satN f.width (hf m f i + n)) i

/-- Field f, instance i, of die d's Station. -/
def sf (m : Mach) (d : Nat) (f : Fld) (i : Nat := 0) : Nat := fld (sget m d (f.off i)) f.lo f.width

/-- Set field f, instance i, of die d's Station. -/
def setSf (m : Mach) (d : Nat) (f : Fld) (v : Nat) (i : Nat := 0) : Mach :=
  sput m d (f.off i) (setFld (sget m d (f.off i)) f.lo f.width v)

/-- Add to a Station counter that saturates at its all-ones value. -/
def incSf (m : Mach) (d : Nat) (f : Fld) (n : Nat := 1) (i : Nat := 0) : Mach :=
  setSf m d f (satN f.width (sf m d f i + n)) i

/-- Field f, instance i, of Tap p on die d. -/
def tf (m : Mach) (d p : Nat) (f : Fld) (i : Nat := 0) : Nat :=
  fld (sget m d (tapBase p + f.off i)) f.lo f.width

/-- Set field f, instance i, of Tap p on die d. -/
def setTf (m : Mach) (d p : Nat) (f : Fld) (v : Nat) (i : Nat := 0) : Mach :=
  sput m d (tapBase p + f.off i) (setFld (sget m d (tapBase p + f.off i)) f.lo f.width v)

/-- Add to a Tap counter that saturates at its all-ones value. -/
def incTf (m : Mach) (d p : Nat) (f : Fld) (n : Nat := 1) (i : Nat := 0) : Mach :=
  setTf m d p f (satN f.width (tf m d p f i + n)) i

/-- The Station of die d. -/
def stn (m : Mach) (d : Nat) : Station := Store.get { } m.stns d

/-- Replace the Station of die d. -/
def setStn (m : Mach) (d : Nat) (x : Station) : Mach := { m with stns := Store.put { } m.stns d x }

/-- Change the Station of die d. -/
def updStn (m : Mach) (d : Nat) (g : Station → Station) : Mach := setStn m d (g (stn m d))

/-- The key of an engine. -/
def engKey (d p e : Nat) : Nat := d * 512 + p * 4 + e

/-- What the Run Controller of an engine holds. -/
def eng (m : Mach) (d p e : Nat) : Eng := Store.get { } m.engs (engKey d p e)

/-- Replace it. -/
def setEng (m : Mach) (d p e : Nat) (x : Eng) : Mach := { m with engs := Store.put { } m.engs (engKey d p e) x }

/-- Change it. -/
def updEng (m : Mach) (d p e : Nat) (g : Eng → Eng) : Mach := setEng m d p e (g (eng m d p e))

/-- What the model keeps of a core. -/
def core_ (m : Mach) (d p : Nat) : CoreSt := Store.get { } m.cores (d * 128 + p)

/-- Replace it. -/
def setCore (m : Mach) (d p : Nat) (x : CoreSt) : Mach := { m with cores := Store.put { } m.cores (d * 128 + p) x }

/-- Change it. -/
def updCore (m : Mach) (d p : Nat) (g : CoreSt → CoreSt) : Mach := setCore m d p (g (core_ m d p))

/-- Append to what the ports have driven. -/
def emit (m : Mach) (o : Out) : Mach := { m with out := m.out ++ [o] }

/-- Append several outputs. -/
def emits (m : Mach) (os : List Out) : Mach := { m with out := m.out ++ os }

/-- Fold a change of the machine over a list. -/
def forAll {α : Type} (l : List α) (m : Mach) (g : Mach → α → Mach) : Mach := l.foldl g m

/-- An identifier for a command or an arm that no earlier one had. -/
def freshId (m : Mach) : Nat × Mach := (m.nextId, { m with nextId := m.nextId + 1 })

/-- The serving instance has stopped its heartbeat or is isolated: it takes no command any longer (R446-R448). -/
def hubStopped (m : Mach) : Bool := m.peer.mute || m.peer.isolated

/-- A value that the spec leaves open, and the machine with the draw counted (log entry 8). -/
def draw (m : Mach) : W64 × Mach := (Config.freeWord m.free, { m with free := m.free + 1 })

/-- The GTC as a number. -/
def gtcNow (m : Mach) : Nat := m.time.gtc.toNat

/-- A Station's replica as a number. -/
def repNow (m : Mach) (d : Nat) : Nat := (stn m d).replica.toNat

end Sys2Proof.Machine
end

