-- ==== Sys2Proof/Machine/Operands.lean ====
section
/-! DEFINITION. Unit Paths, bindings, hidden and dark units, partitions and scopes (R17-R33, R104, R105, R521). -/

namespace Sys2Proof.Machine

/-! ### Unit Paths (Tables 1.7, 1.8) -/

def upPkg (w : W32) : Nat := wfld w 24 8
def upDie (w : W32) : Nat := wfld w 17 7
def upCluster (w : W32) : Nat := wfld w 14 3
def upCore (w : W32) : Nat := wfld w 10 4
def upEngine (w : W32) : Nat := wfld w 8 2
def upLevel (w : W32) : Nat := wfld w 5 3
def upPort (w : W32) : Nat := wfld w 10 7
def upRsvd (w : W32) : Nat := wfld w 0 5

/-- The Tap index of the core that a path names (R69). -/
def upTap (w : W32) : Nat := upCluster w * 16 + upCore w

/-- A Unit Path from its fields. -/
def mkPath (pkg die cluster core_ engine level : Nat) : W32 :=
  BitVec.ofNat 32 (pkg * 2 ^ 24 + die * 2 ^ 17 + cluster * 2 ^ 14 + core_ * 2 ^ 10 + engine * 2 ^ 8 + level * 2 ^ 5)

/-- The package number (R27). -/
def pkgNum (m : Mach) : Nat := hf m R.HUB_PKG_PKG_NUM

/-- The path of a Station. -/
def stnPath (m : Mach) (d : Nat) : W32 := mkPath (pkgNum m) d 0 0 0 6

/-- The path of a die. -/
def diePath (m : Mach) (d : Nat) : W32 := mkPath (pkgNum m) d 0 0 0 3

/-- The path of a core. -/
def corePath (m : Mach) (d tap : Nat) : W32 := mkPath (pkgNum m) d (tap / 16) (tap % 16) 0 1

/-- The path of an engine. -/
def engPath (m : Mach) (d tap e : Nat) : W32 := mkPath (pkgNum m) d (tap / 16) (tap % 16) e 0

/-- The path of a link endpoint (Example 1.1). -/
def portPath (m : Mach) (d port : Nat) : W32 :=
  BitVec.ofNat 32 (pkgNum m * 2 ^ 24 + d * 2 ^ 17 + port * 2 ^ 10 + 5 * 2 ^ 5)

/-- The die of the serving hub. -/
def hubDie (m : Mach) : Nat := hf m R.HUB_ID_INST_DIE

/-- The path of the serving hub (level 7). -/
def hubPath (m : Mach) : W32 := mkPath (pkgNum m) (hubDie m) 0 0 0 7

/-- The fields that a level does not use are zero, and those it uses are in range (R24, Table 1.8). -/
def pathFields (w : W32) : Bool :=
  upRsvd w == 0 && decide (upDie w < 100) &&
  match upLevel w with
  | 0 => decide (upDie w < 64)
  | 1 => decide (upDie w < 64) && upEngine w == 0
  | 2 => decide (upDie w < 64) && upCore w == 0 && upEngine w == 0
  | 3 => upCluster w == 0 && upCore w == 0 && upEngine w == 0
  | 4 => upDie w == 0 && upCluster w == 0 && upCore w == 0 && upEngine w == 0
  | 5 => upEngine w == 0 && decide (upPort w < portsOf (upDie w))
  | 6 => upCluster w == 0 && upCore w == 0 && upEngine w == 0
  | _ => upCluster w == 0 && upCore w == 0 && upEngine w == 0 && (upDie w == 96 || upDie w == 98)

/-- A Unit Path of the given level that a command of this package may carry (R24, R25, R27). -/
def pathOk (m : Mach) (w : W32) (level : Nat) : Bool :=
  pathFields w && upLevel w == level && upPkg w == pkgNum m

/-! ### Bindings and hidden units -/

/-- Instance of STN_BIND for core i, HBM channel c and port p. -/
def bindCore (i : Nat) : Nat := i
def bindChan (c : Nat) : Nat := 128 + c
def bindPort (p : Nat) : Nat := 144 + p

/-- The shadow of a bindable unit names this partition (R30). -/
def boundTo (m : Mach) (d inst part : Nat) : Bool :=
  sf m d R.STN_BIND_BOUND inst == 1 && sf m d R.STN_BIND_PART inst == part

/-- The far end of an internal link endpoint (Table 1.6): die and port. -/
def farEnd (d p : Nat) : Option (Nat × Nat) :=
  if d < 64 then
    match p with
    | 0 => some (if d < 8 then (96, d % 8) else (d - 8, 2))
    | 1 => some (if d % 8 = 7 then (97, d / 8) else (d + 1, 3))
    | 2 => some (if 56 ≤ d then (98, d % 8) else (d + 8, 0))
    | 3 => some (if d % 8 = 0 then (99, d / 8) else (d - 1, 1))
    | 4 => some (64 + d / 2, d % 2)
    | _ => none
  else if d < 96 then
    if p < 2 then some (2 * (d - 64) + p, 4) else none
  else if p < 8 then
    match d - 96 with
    | 0 => some (p, 0)
    | 1 => some (8 * p + 7, 1)
    | 2 => some (56 + p, 2)
    | _ => some (8 * p, 3)
  else none

/-- The partner memory-attach die of a compute die (R18). -/
def partnerOf (d : Nat) : Nat := 64 + d / 2

/-- A die that ledger, licence or life cycle hides whole. -/
def dieHidden (m : Mach) (d : Nat) : Bool := nbit m.bup.hiddenDies d

/-- A core that is hidden itself or lies on a hidden die (R26). -/
def coreHidden (m : Mach) (d i : Nat) : Bool := dieHidden m d || sf m d R.STN_BIND_HIDDEN (bindCore i) == 1

/-- A channel that is hidden itself or lies on a hidden die. -/
def chanHidden (m : Mach) (d c : Nat) : Bool := dieHidden m d || sf m d R.STN_BIND_HIDDEN (bindChan c) == 1

/-- An endpoint that is hidden itself or lies on a hidden die. -/
def ownPortHidden (m : Mach) (d p : Nat) : Bool := dieHidden m d || sf m d R.STN_BIND_HIDDEN (bindPort p) == 1

/-- A link endpoint that is hidden, or whose far end is (R22). -/
def portHidden (m : Mach) (d p : Nat) : Bool :=
  ownPortHidden m d p ||
  match farEnd d p with
  | some (d', p') => ownPortHidden m d' p'
  | none => false

/-! ### Stations that answer -/

/-- The ring's present routes reach the Station of die d. -/
def reachable (m : Mach) (d : Nat) : Bool := nbit (hf m R.SPN_RING_STAT_REACH (ringOf d)) (posOf d)

/-- The Station of die d answers: reached, not declared faulted and not found silent (R26, R520). -/
def stnAnswers (m : Mach) (d : Nat) : Bool :=
  reachable m d && !nbit m.hth.faulted d && !nbit m.spine.silent d

/-- The Station of die d came up at the start. -/
def stnPresent (m : Mach) (d : Nat) : Bool := (m.bup.env.map (fun e => nbit e.present d)).getD false

/-- The Stations of scopes of kinds 4, 5 and 6: present and not on a hidden die, whether they answer or not (R521). -/
def presentDies (m : Mach) : List Nat :=
  (List.range 100).filter (fun d => stnPresent m d && !dieHidden m d)

/-- Those of them that answer. -/
def answeringDies (m : Mach) : List Nat := (presentDies m).filter (stnAnswers m)

/-- The debug state of an engine (TAP_RUN_STATE, Table 4.1). -/
def engState (m : Mach) (d p e : Nat) : Nat := nfld (tf m d p R.TAP_RUN_STATE_STATE) (4 * e) 4

/-- Set the debug state of an engine. -/
def setEngState (m : Mach) (d p e v : Nat) : Mach :=
  sput m d (tapBase p) (setFld (sget m d (tapBase p)) (4 * e) 4 v)

/-- A core whose Tap has faulted or does not answer: its engines are DARK (R26, R488). -/
def coreDark (m : Mach) (d i : Nat) : Bool := engState m d i 0 == 7

/-- The unit of a well-formed path is hidden, silent or dark (R26). -/
def unitDark (m : Mach) (w : W32) : Bool :=
  let d := upDie w
  match upLevel w with
  | 0 => !stnAnswers m d || coreHidden m d (upTap w) || coreDark m d (upTap w)
  | 1 => !stnAnswers m d || coreHidden m d (upTap w) || coreDark m d (upTap w)
  | 2 => !stnAnswers m d || dieHidden m d
  | 3 => !stnAnswers m d || dieHidden m d
  | 5 => !stnAnswers m d || portHidden m d (upPort w)
  | 6 => !stnAnswers m d || nbit m.bup.stnHidden d
  | _ => false

/-! ### Partitions -/

/-- The current binding epoch of a partition (R31). -/
def epochOf (m : Mach) (part : Nat) : Nat := Store.get 0 m.comp.epochs part

/-- The owner of a partition that the Composer records. -/
def ownerOf (m : Mach) (part : Nat) : Option Owner := Store.get none m.comp.owners part

/-- The partitions that have a bound unit on die d. -/
def partsOnDie (m : Mach) (d : Nat) : PartMap :=
  (m.sregs.filter (fun e => decide (stnKey d 0x8000 ≤ e.1) && decide (e.1 < stnKey d 0x8500))).foldl
    (fun acc e => if fld e.2 40 1 = 1 then acc ||| (1 <<< fld e.2 32 8) else acc) 0

/-- The partitions of the package: those that have an owner or a bound unit (log entry 13). -/
def pkgParts (m : Mach) : List Nat :=
  let bound := (List.range 100).foldl (fun acc d => acc ||| partsOnDie m d) (0 : PartMap)
  (List.range 256).filter (fun p => bound.getLsbD p || (ownerOf m p).isSome)

/-- The partitions of a job entry of this package (R439). -/
def jobParts (m : Mach) (job : W32) : Option PartMap :=
  (m.comp.jobs.find? (fun j => j.1 == job)).map Prod.snd

/-! ### Scope descriptors (Tables 4.3, 4.4) -/

/-- The scope descriptor in words i to i + 3 of a body; a job scope takes its partitions from the job entry. -/
def scopeAt (m : Mach) (b : List W32) (i : Nat) : Scope :=
  let w0 := wAt b i
  let kind := wfld w0 0 3
  let part := wfld w0 8 8
  { kind := kind, part := part, unit := wAt b (i + 1), epoch := wAt b (i + 2),
    parts := if kind = 6 then (jobParts m (wAt b (i + 1))).getD 0
             else if kind = 5 then BitVec.allOnes 256 else 1 <<< part }

/-- The descriptor keeps Tables 4.3 and 4.4: reserved bits zero and the fields that its kind uses (R105). -/
def scopeOk (m : Mach) (b : List W32) (i : Nat) : Bool :=
  let w0 := wAt b i
  let unit := wAt b (i + 1)
  wfld w0 3 5 == 0 && wfld w0 16 16 == 0 && wAt b (i + 3) == 0 &&
  match wfld w0 0 3 with
  | 0 => pathOk m unit 0
  | 1 => pathOk m unit 1
  | 2 => pathOk m unit 2
  | 3 => pathOk m unit 3 && decide (upDie unit < 64)
  | 4 => unit == 0
  | 5 => unit == 0 && wfld w0 8 8 == 0 && wAt b (i + 2) == 0
  | 6 => wfld w0 8 8 == 0 && wAt b (i + 2) == 0 && hf m R.HUB_PKG_IN_JOB == 1
  | _ => false

/-- A scope of kinds 0-3 names a hidden or dark unit (R26). -/
def scopeDark (m : Mach) (s : Scope) : Bool := decide (s.kind < 4) && unitDark m s.unit

/-- The epoch that the descriptor carries is not the current one (R106). -/
def scopeMoved (m : Mach) (s : Scope) : Bool := decide (s.kind ≤ 4) && s.epoch.toNat != epochOf m s.part

/-- The Stations of a scope (R521), as a list of dies. -/
def scopeDies (m : Mach) (s : Scope) : List Nat := if s.kind < 4 then [upDie s.unit] else presentDies m

/-- The cores of die d that are members of a scope of the given kind, unit and partitions, by their shadows (Table
4.4). An arm of the hub's own for one core with no partition takes the core while it lies in the free pool (R134). -/
def memberCores (m : Mach) (d kind : Nat) (unit : W32) (parts : PartMap) : List Nat :=
  if 64 ≤ d then [] else
  (List.range 128).filter fun i =>
    !coreHidden m d i &&
    (match kind with
     | 0 => d == upDie unit && i == upTap unit
     | 1 => d == upDie unit && i == upTap unit
     | 2 => d == upDie unit && i / 16 == upCluster unit
     | 3 => d == upDie unit
     | _ => true) &&
    (kind == 5 || (kind == 1 && parts == 0 && sf m d R.STN_BIND_BOUND i == 0) ||
      (sf m d R.STN_BIND_BOUND i == 1 && parts.getLsbD (sf m d R.STN_BIND_PART i)))

/-- The engines of a member core that a scope of this kind holds. -/
def memberEngines (kind : Nat) (unit : W32) : List Nat := if kind = 0 then [upEngine unit] else [0, 1, 2, 3]

/-- The engines of die d in a scope, as Tap and engine. -/
def scopeEngines (m : Mach) (d kind : Nat) (unit : W32) (parts : PartMap) : List (Nat × Nat) :=
  (memberCores m d kind unit parts).flatMap (fun p => (memberEngines kind unit).map (fun e => (p, e)))

/-- An endpoint of die d is in scope of a Stitch of this kind (R142): an internal one bound to a partition in scope, and in
package and job scope every one. -/
def portInScope (m : Mach) (d kind : Nat) (parts : PartMap) (p : Nat) : Bool :=
  !portHidden m d p &&
  (kind != 4 || ((farEnd d p).isSome && sf m d R.STN_BIND_BOUND (bindPort p) == 1 &&
    parts.getLsbD (sf m d R.STN_BIND_PART (bindPort p))))

/-- The endpoints of die d in scope of a Stitch, ascending. -/
def scopePorts (m : Mach) (d kind : Nat) (parts : PartMap) : List Nat :=
  (List.range (portsOf d)).filter (portInScope m d kind parts)

/-- The HBM channels of die d in scope of a Stitch (R142, R149). -/
def scopeChans (m : Mach) (d kind : Nat) (parts : PartMap) : List Nat :=
  if dieKind d = 1 then
    (List.range 16).filter (fun c => !chanHidden m d c && (kind == 5 || (sf m d R.STN_BIND_BOUND (bindChan c) == 1 &&
      parts.getLsbD (sf m d R.STN_BIND_PART (bindChan c)))))
  else []

/-- Two scopes overlap when both are wide and share a partition, or when some engine may be a member of both. -/
def scopesOverlap (m : Mach) (a b : Scope) : Bool :=
  (decide (4 ≤ a.kind) && decide (4 ≤ b.kind) && (a.parts &&& b.parts) != 0) ||
  (List.range 64).any fun d =>
    (scopeEngines m d a.kind a.unit a.parts).any fun x => (scopeEngines m d b.kind b.unit b.parts).contains x

/-- Words of a packet body as a map of the 256 partitions (Table 10.9). -/
def partMapAt (b : List W32) (i : Nat) : PartMap := BitVec.ofNat 256 (wordsNat ((b.drop i).take 8))

/-- The partitions of a map. -/
def partsList (pm : PartMap) : List Nat := (List.range 256).filter (fun p => pm.getLsbD p)

end Sys2Proof.Machine
end

