-- ==== Sys2Proof/Machine/Session.lean ====
section
/-! DEFINITION. Sessions: handles and descriptors in host memory, records and events, rings, interrupts, port queues
(R314-R345, R358-R378, R518, R519). -/

namespace Sys2Proof.Machine

/-! ### Looking Sessions up -/

/-- A Session is known by its port and handle together: handles of a port name only objects of that port (R362). -/
def sidOf (port : Port) (h : W32) : Nat :=
  h.toNat + 2 ^ 32 * (match port with | .host => 0 | .scan => 1 | .sideband => 2 | .firmware => 3)

/-- The Session of an identity. -/
def sessOf (m : Mach) (sid : Nat) : Option Session := m.host.sessions.find? (fun s => s.sid == sid && !s.closed)

/-- The open port Session of a port, when it has one (R362). -/
def portSess (m : Mach) (port : Port) : Option Session :=
  m.host.sessions.find? (fun s => s.port == port && s.open_ && !s.closed)

/-- Change the Session of an identity. -/
def updSess (m : Mach) (sid : Nat) (g : Session → Session) : Mach :=
  let l := m.host.sessions.map (fun s => if s.sid == sid && !s.closed then g s else s)
  { m with host := { m.host with sessions := l } }

/-- The level of a Session over a partition: 0 NONE, 1 OBSERVE, 2 DEBUG, 3 SECURE_DEBUG, 4 VENDOR_TEST. -/
def levelOf (m : Mach) (sid : Nat) (part : Nat) : Nat :=
  match sessOf m sid with
  | some s => (Store.get { level := 0 } s.levels part).level
  | none => 0

/-- The GTC's VOID flag (R81). -/
def timeVoid (m : Mach) : Bool := hf m R.GTC_STATUS_VOID == 1

/-! ### Handles and descriptors (R315-R323) -/

/-- Descriptor sizes of Table 10.1. -/
def descSize (kind : Nat) : Nat := if kind = 0 then 256 else 32

/-- The index and the generation of a handle (R315). -/
def hIndex (h : W32) : Nat := wfld h 0 12
def hGen (h : W32) : Nat := wfld h 12 20

/-- The bus address of a descriptor. -/
def descAddr (m : Mach) (kind : Nat) (h : W32) : Nat :=
  match m.host.root with
  | some r => (r.bases[kind]?).getD 0 + hIndex h * descSize kind
  | none => 0

/-- A handle is current: index, generation, VALID and KIND (R317). -/
def handleCurrent (m : Mach) (kind : Nat) (h : W32) : Bool :=
  match m.host.root with
  | none => false
  | some r =>
    let w := memNat m.hostMem (descAddr m kind h) 4
    hGen h != 0 && decide (hIndex h < (r.counts[kind]?).getD 0) &&
    nbit w 23 && nfld w 20 3 == kind && nfld w 0 20 == hGen h

/-- The OWNER word of a descriptor (Table 10.2). -/
def descOwner (m : Mach) (kind : Nat) (h : W32) : W32 :=
  BitVec.ofNat 32 (memNat m.hostMem (descAddr m kind h + 4) 4)

/-- A Buffer descriptor (Table 10.4). -/
structure Buffer where
  addr : Nat
  length : Nat
  canRead : Bool
  canWrite : Bool
  owner : W32
  deriving DecidableEq, Repr

/-- Read a Buffer descriptor; none when the handle is stale or the descriptor breaks Table 10.4 (R317, R322). -/
def bufferOf (m : Mach) (h : W32) : Option Buffer :=
  let a := descAddr m 1 h
  let addr := memNat m.hostMem (a + 8) 8
  let len := memNat m.hostMem (a + 16) 8
  let acc := memNat m.hostMem (a + 24) 1
  if handleCurrent m 1 h && addr % 8 == 0 && len % 8 == 0 && decide (8 ≤ len) && decide (len ≤ 2 ^ 40) &&
     decide (acc < 4) && memNat m.hostMem (a + 25) 7 == 0
  then some { addr := addr, length := len, canRead := nbit acc 0, canWrite := nbit acc 1, owner := descOwner m 1 h }
  else none

/-- A Dump descriptor (Table 10.4). -/
structure DumpDesc where
  byJob : Bool
  bySlot : Bool
  slot : Nat
  job : W32
  t : Nat
  owner : W32
  deriving DecidableEq, Repr

/-- Read a Dump descriptor; none when the handle is stale or the descriptor breaks Table 10.4 (R322). -/
def dumpDescOf (m : Mach) (h : W32) : Option DumpDesc :=
  let a := descAddr m 3 h
  let ref := memNat m.hostMem (a + 8) 1
  let slot := memNat m.hostMem (a + 9) 1
  if handleCurrent m 3 h && decide (ref < 3) && !(ref == 2 && decide (7 < slot)) &&
     memNat m.hostMem (a + 10) 2 == 0 && memNat m.hostMem (a + 24) 8 == 0 &&
     (ref == 1 || memNat m.hostMem (a + 12) 4 == 0) && (ref != 0 || memNat m.hostMem (a + 16) 8 == 0) &&
     (ref == 2 || slot == 0)
  then some { byJob := nbit ref 0, bySlot := nbit ref 1, slot := slot,
              job := BitVec.ofNat 32 (memNat m.hostMem (a + 12) 4), t := memNat m.hostMem (a + 16) 8,
              owner := descOwner m 3 h }
  else none

/-- The address of the Session's descriptor. -/
def sessDesc (m : Mach) (h : W32) : Nat := descAddr m 0 h

/-! ### Records (R341) -/

/-- A record (Table 10.7). -/
def mkRecord (status : Nat) (sess : W32) (cookie : W64) (gtc seq code : Nat) (isEvent void : Bool) (source : W32)
    (detail : List W32) : List W32 :=
  w1 (status * 2 ^ 16 + 2 ^ 12 + (9 + detail.length)) ++ [sess] ++ w2 cookie.toNat ++ w2 gtc ++ w1 seq ++
  w1 (code + b2n isEvent * 2 ^ 16 + b2n void * 2 ^ 17) ++ [source] ++ detail

/-- The slots of 64 bytes that L words take (R333). -/
def slotsFor (words : Nat) : Nat := (4 * words + 63) / 64

/-- Write bytes into a ring of 64-byte slots from free-running slot count i (R333). -/
def ringWrite (mem : Store Byte) (base slots i : Nat) (bytes : List Byte) : Nat → Store Byte
  | 0 => mem
  | n + 1 =>
    ringWrite (memWrite mem (base + 64 * (i % slots)) (bytes.take 64)) base slots (i + 1) (bytes.drop 64) n

/-- EQ_CONS as the host last wrote it. -/
def eqCons (m : Mach) (h : W32) : Nat := memNat m.hostMem (sessDesc m h + 32) 4

/-- The event ring has room for n slots (R340). -/
def ringRoom (m : Mach) (s : Session) (n : Nat) : Bool :=
  decide (n + (s.eqProd + 2 ^ 32 - eqCons m s.handle) % 2 ^ 32 ≤ s.eqSlots)

/-- Signal the Session's vector after a record, now or at the end of its window (R343). -/
def signalIrq (m : Mach) (s : Session) : Mach :=
  if !s.vecEn || decide (64 ≤ s.vector) then m
  else
    let now := gtcNow m
    let due := match s.lastIrq with
      | none => true
      | some t => s.coalesceUs == 0 || decide (t + s.coalesceUs * 1000 ≤ now)
    if due then updSess (emit m (.msix s.vector)) s.sid (fun x => { x with lastIrq := some now, irqDue := none })
    else
      match s.irqDue, s.lastIrq with
      | none, some t => updSess m s.sid (fun x => { x with irqDue := some (t + s.coalesceUs * 1000) })
      | _, _ => m

/-- Write a record into the event ring of a host Session: the slots, EQ_PROD, then the interrupt (R343). -/
def ringRecord (m : Mach) (s : Session) (rc : List W32) : Mach :=
  let n := slotsFor rc.length
  let prod := (s.eqProd + n) % 2 ^ 32
  let mem := ringWrite m.hostMem s.eqBase s.eqSlots s.eqProd (wordsBytes rc) n
  let mem := memWrite mem (sessDesc m s.handle + 72) (leBytes 4 prod)
  let m := updSess { m with hostMem := mem } s.sid (fun x => { x with eqProd := prod })
  signalIrq m s

/-- Bytes that records take in a port's outbound queue. -/
def queueBytes (q : List (List W32)) : Nat := q.foldl (fun a r => a + 4 * r.length) 0

/-- CRC-32C of R42, one bit. -/
def crc32cBit : Nat → Nat → Nat
  | 0, c => c
  | n + 1, c => crc32cBit n (if c % 2 = 1 then (c / 2) ^^^ 0x82F63B78 else c / 2)

/-- CRC-32C register after more bytes. -/
def crc32cRun (c : Nat) : List Byte → Nat
  | [] => c
  | b :: r => crc32cRun (crc32cBit 8 (c ^^^ b.toNat)) r

/-- CRC-32C over bytes: reflected 0x1EDC_6F41, initial value and final XOR all ones (R42). -/
def crc32c (l : List Byte) : Nat := crc32cRun 0xFFFFFFFF l ^^^ 0xFFFFFFFF

/-- A scan-port frame (Table 11.3). -/
def scanFrameBytes (ftype fseq : Nat) (payload : List Byte) : List Byte :=
  let body := [BitVec.ofNat 8 0xC3, BitVec.ofNat 8 0x3C, BitVec.ofNat 8 ftype, 0] ++ leBytes 2 fseq ++
    leBytes 2 payload.length ++ payload
  body ++ leBytes 4 (crc32c body)

/-- HUBPKT is loaded and a probe is attached, so queued records leave on the outbound stream (R356, R369). -/
def scanFlowing (m : Mach) : Bool := m.scan.attached && m.scan.ir == 0x20

/-- Send every queued record as a RECORD frame and keep the last eight (R360). -/
def scanDrain (m : Mach) : List (Nat × List W32) → Mach
  | [] => { m with scan := { m.scan with queue := [] } }
  | (seq, rc) :: r =>
    let f := m.scan.outFseq
    let kept := m.scan.kept ++ [(f, seq, rc)]
    scanDrain (emit { m with scan := { m.scan with
      outFseq := (f + 1) % 2 ^ 16, kept := kept.drop (kept.length - 8) } }
      (.scanFrame (scanFrameBytes 0x81 f (wordsBytes rc)))) r

/-- Let the outbound stream carry what is queued, when it flows. -/
def scanPump (m : Mach) : Mach := if scanFlowing m then scanDrain m m.scan.queue else m

/-- A vendor-defined MCTP message (Table 11.7). -/
def mctpMessage (kind : Nat) (body : List W32) : List Byte :=
  [BitVec.ofNat 8 0x7F, 0x00, BitVec.ofNat 8 0x3F, BitVec.ofNat 8 0xE5, BitVec.ofNat 8 0xA1, BitVec.ofNat 8 kind, 0, 0]
    ++ wordsBytes body

/-- The tray reads: the target has a dynamic address and an endpoint ID (R378). -/
def trayReads (m : Mach) : Bool := m.side.addr.isSome && m.side.eid != 0 && !m.peer.isolated

/-- The IBI for a packet that waits, when the controller has enabled it (R373, R375). -/
def raiseIbi (m : Mach) : Mach := if m.side.events % 2 = 1 then emit m .ibi else m

/-- A RECORD message to the tray: in the tag of the COMMAND it answers, else in a tag of the hub's own (R376). -/
def sendSideRecord (m : Mach) (rc : List W32) (isEvent : Bool) : Mach :=
  let msg := mctpMessage 2 rc
  if isEvent then raiseIbi (emit { m with side := { m.side with tag := (m.side.tag + 1) % 8 } } (.mctp m.side.tag true msg))
  else
    let tag := m.side.replyTags.headD 0
    raiseIbi (emit { m with side := { m.side with replyTags := m.side.replyTags.drop 1 } } (.mctp tag false msg))

/-- A port's outbound queue takes a record (R367). -/
def portRoom (m : Mach) (port : Port) (words : Nat) : Bool :=
  match port with
  | .scan => decide (queueBytes (m.scan.queue.map Prod.snd) + 4 * words ≤ 65536)
  | .sideband => decide (queueBytes m.side.queue + 4 * words ≤ 65536)
  | _ => true

/-- The Session has room for a record of this many words (R340, R367). -/
def sessRoom (m : Mach) (s : Session) (words : Nat) : Bool :=
  match s.port with
  | .host => ringRoom m s (slotsFor words)
  | p => portRoom m p words

/-- Deliver a record on the Session's port, room having been found. -/
def deliver (m : Mach) (s : Session) (rc : List W32) (seq : Nat) (isEvent : Bool) : Mach :=
  match s.port with
  | .host => ringRecord m s rc
  | .scan =>
    if m.scan.attached then scanPump { m with scan := { m.scan with queue := m.scan.queue ++ [(seq, rc)] } } else m
  | .sideband =>
    if trayReads m then sendSideRecord m rc isEvent
    else { m with side := { m.side with queue := m.side.queue ++ [rc] } }
  | .firmware => m

/-! ### Paging (R325-R327) -/

/-- A Session with resident slots that commands, records or objects hold (R326); `busy` tells whether an object of
the Session pins it. -/
def executing (m : Mach) (sid : Nat) : Bool := m.cmds.any (fun c => c.origin == .session sid)

/-- The lane of a Session: the queue in which its packets wait. A host Session is its own; those of a port share the
lane of handle 0 (R362, R368). -/
def laneSid (sid : Nat) : Nat := if sid < 2 ^ 32 then sid else sid / 2 ^ 32 * 2 ^ 32

/-- A command of a Session on this lane executes (R338). -/
def laneExecuting (m : Mach) (lane : Nat) : Bool :=
  m.cmds.any (fun c => match c.origin with
    | .session x => laneSid x == lane
    | _ => false)

/-- The Session is pinned (R326): a command read or executing, held records, an armed trigger, a run of its Routines, a HALT or STEP
on its behalf, a trigger's among them, or a unit in a halted state that it halted last. -/
def sessPinned (m : Mach) (s : Session) : Bool :=
  executing m s.sid || !s.ready.isEmpty || !s.held.isEmpty ||
  m.rtn.triggers.any (fun e => match e.2 with
    | some t => t.sid == s.sid
    | none => false) ||
  m.rtn.runs.any (fun r => r.sid == s.sid) ||
  m.cmds.any (fun c => c.sid == s.sid && (c.op == 0x0201 || c.op == 0x0203)) ||
  m.engs.any (fun x => x.2.haltSess == s.sid &&
    (let st := engState m (x.1 / 512) (x.1 % 512 / 4) (x.1 % 4)
     st == 2 || st == 3 || st == 6))

/-- The integrity tag over the paged state in the hub area: STATE, SQ_CONS and bytes 76-247 (R325; log entry 18). -/
def hubAreaTag (m : Mach) (h : W32) (mem : Store Byte) : W64 :=
  Config.sessionTag (Config.sessionSecret m.host.draws)
    (memRead mem (sessDesc m h + 64) 8 ++ memRead mem (sessDesc m h + 76) 172)

/-- The paged state carries its tag (R325). -/
def tagOk (m : Mach) (h : W32) : Bool :=
  hubAreaTag m h m.hostMem == BitVec.ofNat 64 (memNat m.hostMem (sessDesc m h + 248) 8)

/-- Write SQ_CONS into the hub area as packets are read (R324, R336); one that is not resident gets its tag with it. -/
def writeCons (m : Mach) (sid : Nat) : Mach :=
  match sessOf m sid with
  | none => m
  | some s =>
    if s.port != .host then m
    else
      let tagged := s.slot.isNone && tagOk m s.handle
      let a := sessDesc m s.handle
      let mem := memWrite m.hostMem (a + 68) (leBytes 4 s.sqCons)
      { m with hostMem := if tagged then memWrite mem (a + 248) (leBytes 8 (hubAreaTag m s.handle mem).toNat) else mem }

/-- Write a Session's state into its hub area and free its slot (R327). -/
def pageOut (m : Mach) (s : Session) : Mach :=
  let a := sessDesc m s.handle
  let mem := memWrite m.hostMem (a + 64) (leBytes 4 (if s.open_ then 1 else 0) ++ leBytes 4 s.sqCons ++ leBytes 4 s.eqProd)
  let mem := memWrite mem (a + 248) (leBytes 8 (hubAreaTag m s.handle mem).toNat)
  updSess { m with hostMem := mem } s.sid (fun x => { x with slot := none })

/-- The free Session slots, ascending. -/
def freeSlots (m : Mach) : List Nat :=
  (List.range 32).filter (fun k => !(m.host.sessions.any (fun s => s.slot == some k && !s.closed)))

/-- The resident Session that is not pinned and whose latest doorbell is oldest (R327). -/
def evictable (m : Mach) : Option Session :=
  (m.host.sessions.filter (fun s => s.slot.isSome && !s.closed && s.port == .host && !sessPinned m s)).foldl
    (fun acc s => match acc with
      | none => some s
      | some b => if s.lastBell < b.lastBell then some s else acc) none

/-- Give a Session a slot, evicting one when none is free; none when every slot is pinned. Counts (R327). -/
def takeSlot (m : Mach) (sid : Nat) : Option Mach :=
  match freeSlots m with
  | k :: _ => some (incHf (updSess m sid (fun x => { x with slot := some k })) R.IF_CNT_PAGE_INS)
  | [] =>
    match evictable m with
    | some v =>
      let m := incHf (pageOut m v) R.IF_CNT_EVICTIONS
      some (incHf (updSess m sid (fun x => { x with slot := v.slot })) R.IF_CNT_PAGE_INS)
    | none => none

/-- Signal the vector of IF_CTL for an interface error (IF_CTL.VEC_EN). -/
def signalIfErr (m : Mach) : Mach :=
  if hf m R.IF_CTL_VEC_EN == 1 && decide (hf m R.IF_CTL_VECTOR < 64) then emit m (.msix (hf m R.IF_CTL_VECTOR)) else m

/-- Count an interface error; the vector of IF_CTL is signalled when IF_ERR leaves zero. -/
def incIfErr (m : Mach) (f : Fld) (n : Nat := 1) : Mach :=
  let quiet := hget m 0x04B8 == 0
  let m := incHf m f n
  if quiet then signalIfErr m else m

/-! ### Descriptors (Table 10.5) -/

/-- The host's fields of a Session's descriptor, bytes 8-43 (R324). -/
def descSession (m : Mach) (h : W32) (s : Session) : Session :=
  let a := sessDesc m h
  let v := memNat m.hostMem (a + 36) 1
  { s with
    sqBase := memNat m.hostMem (a + 8) 8, sqSlots := memNat m.hostMem (a + 16) 4,
    eqSlots := memNat m.hostMem (a + 20) 4, eqBase := memNat m.hostMem (a + 24) 8,
    vector := nfld v 0 6, vecEn := nbit v 7, coalesceUs := memNat m.hostMem (a + 38) 2,
    timeoutMs := memNat m.hostMem (a + 40) 4 }

/-- The fields of a Session as a page-in or the write of an event reads them: those of the descriptor while it is not resident
(R324, R340). -/
def pagedFields (m : Mach) (s : Session) : Session :=
  if s.port == .host && s.slot.isNone then descSession m s.handle s else s

/-- A ring size is a power of two from 256 to 65,536. -/
def ringSizeOk (n : Nat) : Bool := [256, 512, 1024, 2048, 4096, 8192, 16384, 32768, 65536].contains n

/-- The ring fields keep Table 10.5. -/
def ringFieldsOk (m : Mach) (h : W32) : Bool :=
  let x := descSession m h { sid := 0, handle := h, port := .host }
  x.sqBase % 64 == 0 && x.eqBase % 64 == 0 && ringSizeOk x.sqSlots && ringSizeOk x.eqSlots

/-- The other fields of bytes 8-43 keep Table 10.5. -/
def otherFieldsOk (m : Mach) (h : W32) : Bool := !nbit (memNat m.hostMem (sessDesc m h + 36) 1) 6

/-- A page-in of a Session that has been opened finds its paged state and its descriptor as they must be (R325). -/
def pageInOk (m : Mach) (h : W32) : Bool := tagOk m h && ringFieldsOk m h && otherFieldsOk m h

/-! ### Writing records -/

/-- Page in a host Session so that it can hold a record (R324, R325, R340). One whose page-in fails ends: with SESSION_LOST, or without a
record when its ring fields cannot be trusted; the end goes on at the next try of its records. -/
def pageToHold (m : Mach) (s : Session) : Mach :=
  if s.port != .host || s.slot.isSome then m
  else
    let cause := if s.ending != 0 || pageInOk m s.handle then s.ending else if ringFieldsOk m s.handle then 3 else 7
    let m := if cause = 7 then m else (takeSlot m s.sid).getD m
    updSess m s.sid (fun x => { descSession m s.handle x with ending := cause })

/-- Hold a record under R340, the Session being paged in when it is not resident; an event beyond 16 is dropped and
counted. -/
def holdRecord (m : Mach) (s : Session) (rc : List W32) (isEvent : Bool) : Mach :=
  if isEvent && decide (16 ≤ s.held.length) then
    incIfErr (updSess m s.sid (fun x => { x with lost := x.lost + 1 })) R.IF_ERR_EVENTS_LOST
  else
    updSess (pageToHold m s) s.sid (fun x => if x.ending = 7 then { x with held := [] } else { x with held := x.held ++ [rc] })

/-- Put the SEQ of a record in word 6. -/
def withSeq (rc : List W32) (seq : Nat) : List W32 := rc.set 6 (BitVec.ofNat 32 seq)

/-- Write a record to a Session, or hold it behind those it already holds (R340). A Session that is open numbers it
(R342); for one that is not open SEQ is 0 (R329). A Session whose ring cannot be trusted gets none (R325, R508), and one that is not resident has
its ring fields read from the descriptor for the write (R340). Held records take their SEQ as they are written. -/
def postRecord (m : Mach) (sid : Nat) (rc : List W32) (isEvent : Bool) : Mach :=
  match sessOf m sid with
  | none => m
  | some s =>
    let s := pagedFields m s
    if s.ending = 6 ∨ s.ending = 7 then m
    else if s.held.isEmpty && s.lost == 0 && sessRoom m s rc.length then
      if s.open_ then
        let m := updSess m sid (fun x => { x with nextSeq := (x.nextSeq + 1) % 2 ^ 32 })
        deliver m s (withSeq rc s.nextSeq) s.nextSeq isEvent
      else deliver m s (withSeq rc 0) 0 isEvent
    else holdRecord m s rc isEvent

/-- Write one record that was held. -/
def writeHeld (m : Mach) (sid : Nat) (rc : List W32) : Mach :=
  match sessOf m sid with
  | none => m
  | some s =>
    let isEvent := nbit (wAt rc 7).toNat 16
    if !s.open_ then deliver m s (withSeq rc 0) 0 isEvent
    else
    let m := updSess m sid (fun x => { x with nextSeq := (x.nextSeq + 1) % 2 ^ 32 })
    deliver m s (withSeq rc s.nextSeq) s.nextSeq isEvent

/-- Write held records while there is room. -/
def flushHeld (m : Mach) (sid : Nat) : Nat → Mach
  | 0 => m
  | n + 1 =>
    match sessOf m sid with
    | none => m
    | some s =>
      match s.held with
      | [] => m
      | rc :: r =>
        if sessRoom m s rc.length then
          let m := updSess (writeHeld m sid rc) sid (fun x => { x with held := r })
          flushHeld { m with cmds := m.cmds.map (fun c => if c.op == 0x0103 && c.sid == sid then { c with need := c.need - 1 } else c) } sid n
        else m

/-- Try again the records that a Session holds: EVENTS_LOST with the dropped count first, then the records (R340). -/
def retryHeld (m : Mach) (sid : Nat) : Mach :=
  match sessOf m sid with
  | none => m
  | some s =>
    if s.lost == 0 then flushHeld m sid s.held.length
    else
      let rc := mkRecord 0 s.handle 0 (gtcNow m) 0 EvCode.eventsLost true (timeVoid m) (hubPath m) (w1 s.lost)
      if sessRoom m s rc.length then
        let m := updSess (writeHeld m sid rc) sid (fun x => { x with lost := 0 })
        flushHeld m sid s.held.length
      else m

/-! ### Events -/

/-- Queue or send a TRAY_EVENT record; up to 32 wait, the rest are counted (R378). -/
def trayEvent (m : Mach) (code stamp : Nat) (source : W32) (detail : List W32) : Mach :=
  if !trayReads m && decide (32 ≤ m.side.trayQ.length) then
    { m with side := { m.side with trayLost := m.side.trayLost + 1 } }
  else
    let rc := mkRecord 0 0 0 stamp m.side.traySeq code true (timeVoid m) source detail
    let m := { m with side := { m.side with traySeq := (m.side.traySeq + 1) % 2 ^ 32 } }
    if trayReads m then
      raiseIbi (emit { m with side := { m.side with tag := (m.side.tag + 1) % 8 } }
        (.mctp m.side.tag true (mctpMessage 3 rc)))
    else { m with side := { m.side with trayQ := m.side.trayQ ++ [rc] } }

/-- Send the tray records that waited, EVENTS_LOST with the dropped count first (R378). -/
def trayFlush (m : Mach) : Mach :=
  if !trayReads m then m
  else
    let lost := m.side.trayLost
    let q := m.side.trayQ
    let m := { m with side := { m.side with trayQ := [], trayLost := 0 } }
    let m := if lost = 0 then m else trayEvent m EvCode.eventsLost (gtcNow m) (hubPath m) (w1 lost)
    q.foldl (fun m rc => raiseIbi (emit { m with side := { m.side with tag := (m.side.tag + 1) % 8 } }
      (.mctp m.side.tag true (mctpMessage 3 rc)))) m

/-- Send the records that the sideband Session queued while the tray did not read (R367, R376). -/
def sideFlush (m : Mach) : Mach :=
  if !trayReads m then m
  else
    let q := m.side.queue
    q.foldl (fun m rc => sendSideRecord m rc (nbit (wAt rc 7).toNat 16)) { m with side := { m.side with queue := [] } }

/-- A Session holds OBSERVE over a partition of a map. -/
def observes (s : Session) (pm : PartMap) : Bool := s.levels.any (fun g => pm.getLsbD g.1 && decide (1 ≤ g.2.level))

/-- A Session is among an event's recipients: named by its chapter, or under R519 while it is open. -/
def isRecipient (e : Ev) (s : Session) : Bool :=
  s.open_ && !s.closed && (e.named.contains s.sid || (e.wide && observes s e.parts))

/-- The hub delivers an event to its recipients (R519). -/
def raiseEv (m : Mach) (e : Ev) : Mach :=
  let m := (m.host.sessions.filter (isRecipient e)).foldl (fun m s =>
    postRecord m s.sid (mkRecord 0 s.handle (if e.named.contains s.sid then e.cookie else 0) e.stamp 0 e.code
      true (e.voidFlag || timeVoid m) e.source e.detail) true) m
  if e.tray then trayEvent m e.code e.stamp e.source e.detail else m

/-- An event of a unit on die d goes as well to those who observe a partition of that die (R519). -/
def raiseOn (m : Mach) (d : Nat) (e : Ev) : Mach := raiseEv m { e with parts := e.parts ||| partsOnDie m d }

/-- A Station queues an event for the hub, at most 64 (R59). -/
def stnEvent (m : Mach) (d : Nat) (e : Ev) : Mach :=
  if 64 ≤ (stn m d).events.length then incSf m d R.STN_SPN_ERR_EVT_LOST
  else updStn m d (fun x => { x with events := x.events ++ [e] })

/-! ### Issuers -/

/-- Who issues a command or a step: its origin, the Session whose authority it runs under and that Session's port. -/
structure Issuer where
  origin : Origin
  sess : Nat
  port : Port
  deriving DecidableEq, Repr

/-- The level of an issuer over a partition; firmware acts on its own authority. -/
def issLevel (m : Mach) (i : Issuer) (part : Nat) : Nat :=
  match i.origin with
  | .firmware => 4
  | .fabric _ _ _ _ => 4
  | _ => levelOf m i.sess part

/-- The authority of a level over every partition of the package (Table 4.4, kind 5). -/
def pkgLevel (m : Mach) (i : Issuer) (lvl : Nat) : Bool :=
  let ps := pkgParts m
  if ps.isEmpty then (List.range 256).any (fun p => decide (4 ≤ issLevel m i p))
  else ps.all (fun p => decide (lvl ≤ issLevel m i p))

/-- The authority of a level over a scope (Table 4.4). -/
def scopeLevel (m : Mach) (i : Issuer) (s : Scope) (lvl : Nat) : Bool :=
  match s.kind with
  | 5 => pkgLevel m i lvl
  | 6 => (jobParts m s.unit).isSome && (partsList s.parts).all (fun p => decide (lvl ≤ issLevel m i p))
  | _ => decide (lvl ≤ issLevel m i s.part)

end Sys2Proof.Machine
end

