-- ==== Sys2Proof/Machine/Line.lean ====
section
/-! DEFINITION. A frame on the wire: header word 0 and the bytes of a frame (R42, R43), its two lanes of characters and the
8b/10b code of the lanes (R40; the code tables are those of IEEE 802.3 Clause 36, log entry 79, PRESUMED). -/

namespace Sys2Proof.Machine

/-- Header word 0 (Table 2.2). -/
def frameWord0 (f : Frame) : W64 :=
  BitVec.ofNat 64 (f.ftype + f.dir * 2 ^ 4 + b2n f.wrapped * 2 ^ 5 + b2n f.routine * 2 ^ 6 + b2n f.fenced * 2 ^ 7 +
    f.dest * 2 ^ 8 + f.src * 2 ^ 16 + f.part * 2 ^ 24 + f.len * 2 ^ 32 + b2n f.force * 2 ^ 41 + f.tag * 2 ^ 48)

/-- The bytes of a frame between SOF and EOF: header, padded payload, CRC-32C (R42). -/
def frameBytes (f : Frame) : List Byte :=
  let b := leBytes 8 (frameWord0 f).toNat ++ leBytes 8 f.word1.toNat ++ padTo (roundUp f.payload.length 4) f.payload
  b ++ leBytes 4 (crc32c b)

/-! ### Characters and lanes (R40) -/

/-- A character of a lane: a data byte, or a control code: K28.5 when idle, K27.7 for SOF, K29.7 for EOF, K30.7 for EOF_BAD. -/
inductive LaneChar where
  | data (b : Byte)
  | idle
  | sof
  | eof
  | eofBad
  deriving DecidableEq, Repr

/-- The control character that ends a frame; a frame whose CRC is wrong was ended with EOF by its sender. -/
def endChar : FrameEnd → LaneChar
  | .eofBad => .eofBad
  | _ => .eof

/-- The bytes of one lane: byte 2j of a frame travels on lane 0 and byte 2j + 1 on lane 1. -/
def laneBytes : List Byte → List Byte × List Byte
  | [] => ([], [])
  | [a] => ([a], [])
  | a :: b :: r => let l := laneBytes r; (a :: l.1, b :: l.2)

/-- The characters of both lanes for a frame: SOF, its bytes and its end, the control characters in the same slots. -/
def laneChars (f : Frame) (fin : FrameEnd) : List LaneChar × List LaneChar :=
  let l := laneBytes (frameBytes f)
  let wrap (b : List Byte) : List LaneChar := .sof :: b.map .data ++ [endChar fin]
  (wrap l.1, wrap l.2)

/-- The time of one character of a lane in ns: ten bits at 2 Gb/s. -/
def charNs : Nat := 5

/-- Wire time in ns of a frame whose payload has n bytes: one character time for each pair of bytes, and one each for SOF and
EOF (R40, Example 2.1). -/
def wireNs (n : Nat) : Nat := charNs * ((16 + roundUp n 4 + 4) / 2 + 2)

/-! ### The 8b/10b code -/

/-- A character as its byte and whether it is a control code (Kx.y is y × 32 + x). -/
def charCode : LaneChar → Nat × Bool
  | .data b => (b.toNat, false)
  | .idle => (5 * 32 + 28, true)
  | .sof => (7 * 32 + 27, true)
  | .eof => (7 * 32 + 29, true)
  | .eofBad => (7 * 32 + 30, true)

/-- The six-bit blocks for the 32 values of the low five bits when the running disparity is negative. -/
def sixBit : List Nat :=
  [0b100111, 0b011101, 0b101101, 0b110001, 0b110101, 0b101001, 0b011001, 0b111000] ++
  [0b111001, 0b100101, 0b010101, 0b110100, 0b001101, 0b101100, 0b011100, 0b010111] ++
  [0b011011, 0b100011, 0b010011, 0b110010, 0b001011, 0b101010, 0b011010, 0b111010] ++
  [0b110011, 0b100110, 0b010110, 0b110110, 0b001110, 0b101110, 0b011110, 0b101011]

/-- The four-bit blocks of data for the 8 values of the high three bits when the running disparity is negative. -/
def fourBit : List Nat := [0b1011, 0b1001, 0b0101, 0b1100, 0b1101, 0b1010, 0b0110, 0b1110]

/-- The four-bit blocks of control codes, likewise. -/
def fourBitK : List Nat := [0b1011, 0b0110, 0b1010, 0b1100, 0b1101, 0b0101, 0b1001, 0b0111]

/-- The ones among the low n bits. -/
def onesOf (n v : Nat) : Nat := (bitsOf v n).length

/-- The running disparity after a block of n bits: true when it is positive. -/
def disparityAfter (n v : Nat) (pos : Bool) : Bool :=
  if n < 2 * onesOf n v then true else if 2 * onesOf n v < n then false else pos

/-- The form of a block for a positive disparity: the complement, for blocks that are not balanced and for the two balanced ones that
come in two forms. -/
def blockFor (n v : Nat) (two pos : Bool) : Nat :=
  if pos && (2 * onesOf n v != n || two) then 2 ^ n - 1 - v else v

/-- D.x.7 takes its other form where five equal bits would meet. -/
def otherSeven (x : Nat) (pos : Bool) : Bool := if pos then [11, 13, 14].contains x else [17, 18, 20].contains x

/-- The ten bits of a character, first bit highest, and the running disparity after it. -/
def codeChar (pos : Bool) (c : LaneChar) : Nat × Bool :=
  let (v, k) := charCode c
  let x := v % 32
  let y := v / 32
  let six := blockFor 6 (if k && x == 28 then 0b001111 else sixBit.getD x 0) (x == 7 && !k) pos
  let mid := disparityAfter 6 six pos
  let four :=
    if k then blockFor 4 (fourBitK.getD y 0) true mid
    else if y == 7 && otherSeven x mid then blockFor 4 0b0111 false mid
    else blockFor 4 (fourBit.getD y 0) (y == 3) mid
  (six * 16 + four, disparityAfter 4 four mid)

/-- The code of a lane from a running disparity on. -/
def codeLane (pos : Bool) : List LaneChar → List Nat × Bool
  | [] => ([], pos)
  | c :: r =>
    let (w, pos) := codeChar pos c
    let (ws, pos) := codeLane pos r
    (w :: ws, pos)

end Sys2Proof.Machine
end

