-- ==== Sys2Proof/Machine/Output.lean ====
section
/-! DEFINITION. The outputs of Stations and trunks: classes and queues (R47), what a frame takes on as it leaves (R44, R84), the way
over the trunks (R39), and what is turned back at a break (R61). -/

namespace Sys2Proof.Machine

/-- The number of a Station's ring output in a direction, of a trunk in a direction, and of the way to an anchor's own Station. -/
def ringOut (d dir : Nat) : Nat := 2 * d + dir
def trunkOut (t dir : Nat) : Nat := 200 + 2 * t + dir
def anchorOut (k : Nat) : Nat := 208 + k

/-- The class in which an output sends a frame (R47): 0 TIME, CUT and HEARTBEAT, 1 what is forwarded, 2 what the node inserts. -/
def frameClass (own : Bool) (f : Frame) : Nat :=
  if f.ftype == 7 || f.ftype == 9 || f.ftype == 10 then 0 else if own then 2 else 1

/-- Byte i of a payload. -/
def payByte (f : Frame) (i : Nat) : Nat := bytesAt f.payload i 1

/-- A TIME frame with ticks added to its RESIDENCE (R44, R83). -/
def addResidence (f : Frame) (n : Nat) : Frame :=
  { f with payload := patch f.payload 0 (leBytes 8 (bytesAt f.payload 0 8 + n)) }

/-- A frame as its SOF leaves an output: a SYNC that the hub inserts takes the GTC into word 1 (R84), an ECHO_REQ its sender's clock
(Table 3.1), and a forwarded TIME frame the ticks for which it waited into RESIDENCE (R44). -/
def asItLeaves (m : Mach) (q : QFrame) : Frame :=
  if q.f.ftype != 7 then q.f
  else if !q.own then addResidence q.f (m.time.ns - q.since)
  else if payByte q.f 8 = 1 then { q.f with word1 := m.time.gtc }
  else if payByte q.f 8 = 2 then { q.f with word1 := BitVec.ofNat 64 (repNow m q.f.src) }
  else q.f

/-- An output. -/
def outPort (m : Mach) (o : Nat) : OutPort := Store.get { } m.spine.outs o

/-- Replace it. -/
def setOutPort (m : Mach) (o : Nat) (x : OutPort) : Mach :=
  { m with spine := { m.spine with outs := Store.put { } m.spine.outs o x } }

/-- An output starts a frame. One that has a further output to pass reaches the far end of this one 40 ns later (R41). -/
def startFrame (m : Mach) (o : Nat) (q : QFrame) (rest : List QFrame) : Mach :=
  let f := asItLeaves m q
  let m := setOutPort m o { busy := m.time.ns + wireNs f.payload.length, queue := rest }
  let m := emit m (.sent o f q.fin)
  if q.hops.isEmpty then m
  else { m with spine := { m.spine with flights := m.spine.flights ++ [(m.time.ns + 40, o, { q with own := false, f := f })] } }

/-- An output that is free starts the next frame that waits: the oldest of the lowest class (R47). -/
def serveOutput (m : Mach) (o : Nat) : Mach :=
  let x := outPort m o
  if m.time.ns < x.busy then m
  else
    let of (c : Nat) (q : QFrame) : Bool := frameClass q.own q.f == c
    match [0, 1, 2].find? (fun c => x.queue.any (of c)) with
    | none => m
    | some c =>
      match x.queue.find? (of c) with
      | none => m
      | some q => startFrame m o q (x.queue.eraseP (of c))

/-- Put a frame to an output: it starts at once where the output is free, and waits in its class else. -/
def putFrame (m : Mach) (o : Nat) (q : QFrame) : Mach :=
  let x := outPort m o
  serveOutput (setOutPort m o { x with queue := x.queue ++ [{ q with since := m.time.ns }] }) o

/-! ### Trunks (R39) -/

/-- Trunk t is up: it joins anchors t and t + 1. -/
def trunkUp (m : Mach) (t : Nat) : Bool := nbit (hf m R.SPN_TRUNK_TRUNK_UP) t

/-- The trunks from anchor a to anchor b upwards, and downwards, as outputs. -/
def wayUp (a b : Nat) : List Nat := (List.range ((b + 4 - a) % 4)).map (fun i => trunkOut ((a + i) % 4) 0)
def wayDown (a b : Nat) : List Nat := (List.range ((a + 4 - b) % 4)).map (fun i => trunkOut ((a + 3 - i) % 4) 1)

/-- All trunks of a way are up. -/
def wayOpen (m : Mach) (w : List Nat) : Bool := w.all (fun o => trunkUp m ((o - 200) / 2))

/-- The two ways between anchors in the order in which they are tried: the shorter first; between opposite anchors the one through the
lower-numbered anchor (R39). -/
def ways (a b : Nat) : List (List Nat) :=
  let up := wayUp a b
  let down := wayDown a b
  if up.length < down.length ∨ (up.length = down.length ∧ (a + 1) % 4 < (a + 3) % 4) then [up, down] else [down, up]

/-- The way that a frame takes from anchor a to anchor b, none when no path remains (R39). -/
def trunkWay (m : Mach) (a b : Nat) : Option (List Nat) := (ways a b).find? (wayOpen m)

/-- A path over trunks that are up joins the serving hub to anchor k. -/
def trunkPath (m : Mach) (k : Nat) : Bool := (trunkWay m (hubDie m - 96) k).isSome

/-- The calibrated delay of the trunk that a frame has crossed, in ticks, as its far anchor holds it (R84, STN_GTC_TRUNK). -/
def trunkTicks (m : Mach) (o : Nat) : Nat :=
  let t := (o - 200) / 2
  let w := if o % 2 = 0 then sf m (96 + (t + 1) % 4) R.STN_GTC_TRUNK_TRUNK_DOWN else sf m (96 + t) R.STN_GTC_TRUNK_TRUNK_UP
  (w + 8) / 16

/-- The forwarding latency F in ticks (R84). -/
def fwdTicks : Nat := 32

/-- A frame reaches the far end of a trunk: a TIME frame takes the trunk's delay and F into RESIDENCE, and the frame goes to its next
output (R84). -/
def landFrame (m : Mach) (o : Nat) (q : QFrame) : Mach :=
  let f := if q.f.ftype == 7 then addResidence q.f (trunkTicks m o + fwdTicks) else q.f
  match q.hops with
  | [] => m
  | h :: r => putFrame m h { q with f := f, hops := r }

/-- Put a frame on a list of outputs in turn. -/
def putOnWay (m : Mach) (way : List Nat) (own : Bool) (ring : Nat) (f : Frame) (fin : FrameEnd) : Mach :=
  match way with
  | [] => m
  | o :: r => putFrame m o { own := own, since := m.time.ns, ring := ring, hops := r, f := f, fin := fin }

/-- The hub's frame for a ring takes its way over the trunks, then the ring in its direction, or the way to the anchor's Station; with
no path it is lost (R39). -/
def sendHub (m : Mach) (k : Nat) (f : Frame) : Mach :=
  match trunkWay m (hubDie m - 96) k with
  | none => m
  | some w => putOnWay m (w ++ [if f.dest = 96 + k then anchorOut k else ringOut (96 + k) f.dir]) true k f .good

/-- Frames that wait at free outputs, and frames that reach the far end of their trunk, go on as the clock advances. -/
def serveOutputs (m : Mach) : Mach :=
  let (here, there) := m.spine.flights.partition (fun x => decide (x.1 ≤ m.time.ns))
  let m := here.foldl (fun m x => landFrame m x.2.1 x.2.2) { m with spine := { m.spine with flights := there } }
  ((m.spine.outs.filter (fun x => !x.2.queue.isEmpty)).map (fun x => x.1)).foldl serveOutput m

/-! ### Frames that a Station sends -/

/-- A frame at a Station that turns its direction back takes WRAPPED; DIR stays (R61; log entry 80). -/
def turned (m : Mach) (d : Nat) (f : Frame) : Frame :=
  let wrap := if f.dir = 0 then sf m d R.STN_SPN_STAT_WRAP_CW == 1 else sf m d R.STN_SPN_STAT_WRAP_CCW == 1
  if wrap then { f with wrapped := true } else f

/-- The direction in which a frame travels: the opposite of DIR once it has been turned back. -/
def travelDir (f : Frame) : Nat := if f.wrapped then 1 - f.dir else f.dir

/-- A Station sends a frame, its own or one that it forwards: on its ring, or, at an anchor for the hub, over the trunks (R39, R59). -/
def stnSend (m : Mach) (d : Nat) (own : Bool) (f : Frame) (fin : FrameEnd) : Mach :=
  let f := turned m d f
  if 96 ≤ d ∧ (f.dest = hubDie m ∨ f.dest = 0x7E) then
    match trunkWay m (d - 96) (hubDie m - 96) with
    | some [] => putOnWay m [anchorOut (d - 96)] own (d - 96) f fin
    | some w => putOnWay m w own (d - 96) f fin
    | none => m
  else putOnWay m [ringOut d (travelDir f)] own (ringOf d) f fin

end Sys2Proof.Machine
end

