-- ==== Sys2Proof/Machine/Spine.lean ====
section
/-! DEFINITION. The Spine as the hub drives it: header word 0, wire times, directions, tags, the Routine share, requests,
broadcasts, gathers and arms on their way (R38-R67, R525). -/

namespace Sys2Proof.Machine

/-- The wire time charged for a request with the response it expects (R65). -/
def chargeNs (f : Frame) : Nat :=
  match f.ftype with
  | 1 => wireNs 0 + wireNs f.len
  | 2 => wireNs f.payload.length + wireNs 0
  | _ => wireNs f.payload.length

/-- Frames of TYPE 7, 8, 9 and A are never charged and never delayed (R66). -/
def uncharged (f : Frame) : Bool := f.ftype == 7 || f.ftype == 8 || f.ftype == 9 || f.ftype == 10

/-- The ring is masked or split (R61, R63). -/
def ringMasked (m : Mach) (k : Nat) : Bool := nbit (hf m R.SPN_STATUS_MASKED) k

/-- The direction of a unicast frame to a Station: 0 CW, 1 CCW (R48, R61, R63). -/
def dirTo (m : Mach) (d : Nat) : Nat :=
  let p := posOf d
  if ringMasked m (ringOf d) then (if p ≤ hf m R.SPN_RING_STAT_BREAK_POS (ringOf d) then 0 else 1)
  else if p ≤ 12 then 0 else 1

/-- The next TAG of a ring (R53). -/
def takeTag (m : Mach) (k : Nat) : Nat × Mach :=
  let t := Store.get 0 m.spine.nextTag k
  (t, { m with spine := { m.spine with nextTag := Store.put 0 m.spine.nextTag k ((t + 1) % 2 ^ 16) } })

/-- The share window that the GTC stands in (R65). -/
def shareNow (m : Mach) : Nat := gtcNow m / 10000

/-- The allowance of a window in ns: SHARE percent of 10,000 ticks, SHARE held to 1-50 (R65, SPN_SHARE). -/
def shareNs (m : Mach) : Nat := Nat.max 1 (Nat.min 50 (hf m R.SPN_SHARE_SHARE)) * 100

/-- Charged time of a ring direction in the present window: what earlier windows overdrew passes on (R65). -/
def shareUsed (m : Mach) (k dir : Nat) : Nat :=
  Store.get 0 m.spine.shareUsed (2 * k + dir) - (shareNow m - Store.get 0 m.spine.shareWindow (2 * k + dir)) * shareNs m

/-- Charge a ring direction. -/
def shareCharge (m : Mach) (k dir ns : Nat) : Mach :=
  let used := shareUsed m k dir + ns
  { m with spine := { m.spine with
      shareUsed := Store.put 0 m.spine.shareUsed (2 * k + dir) used,
      shareWindow := Store.put 0 m.spine.shareWindow (2 * k + dir) (shareNow m) } }

/-- SPN_CTL.TIMEOUT_US, with 0-3 acting as 4. -/
def timeoutUs (m : Mach) : Nat := Nat.max 4 (hf m R.SPN_CTL_TIMEOUT_US)

/-- A frame leaves the hub: the time-out of the request or gather that it carries runs from now (R52, R67). -/
def sendNow (m : Mach) (k : Nat) (f : Frame) : Mach :=
  let due := gtcNow m + 1000 * timeoutUs m
  let asks := f.ftype == 1 || f.ftype == 2
  let m := { m with spine := { m.spine with
    reqs := if asks then m.spine.reqs.map (fun r => if r.ring == k && r.tag == f.tag then { r with due := due } else r)
      else m.spine.reqs,
    gathers := if f.ftype == 6 then m.spine.gathers.map (fun g => if g.ring == k && g.tag == f.tag then { g with due := due } else g)
      else m.spine.gathers } }
  sendHub m k f

/-- Launch a frame on a ring; an isolated instance originates none (R447). While the ring waits for its outstanding frames no new one
starts (R62). A Routine's frame that is charged starts only while its window allows it, and else waits at the hub behind those that
already wait (R65-R67). -/
def launch (m : Mach) (k : Nat) (f : Frame) : Mach :=
  if m.peer.isolated then m
  else if nbit m.spine.hold k then { m with spine := { m.spine with onHold := m.spine.onHold ++ [(k, f)] } }
  else if !f.routine || uncharged f then sendNow m k f
  else if m.spine.heldFrames.any (fun h => h.1 == k && h.2.1 == f.dir) || decide (shareNs m ≤ shareUsed m k f.dir) then
    let key := 2 * k + f.dir
    let since := if m.spine.heldFrames.any (fun h => h.1 == k && h.2.1 == f.dir) then
      m.spine.stallSince else Store.put 0 m.spine.stallSince key (gtcNow m)
    { m with spine := { m.spine with heldFrames := m.spine.heldFrames ++ [(k, f.dir, f)], stallSince := since } }
  else sendNow (shareCharge m k f.dir (chargeNs f)) k f

/-- A request (true) or gather (false) of a ring still waits at the hub, for a route change or for the share (R62, R67). -/
def waitsAtHub (m : Mach) (k tag : Nat) (request : Bool) : Bool :=
  let mine (f : Frame) : Bool := f.tag == tag && (if request then f.ftype == 1 || f.ftype == 2 else f.ftype == 6)
  m.spine.onHold.any (fun h => h.1 == k && mine h.2) || m.spine.heldFrames.any (fun h => h.1 == k && mine h.2.2)

/-- A request of a command to one Station: ADDR, the fence and, for a write, its data (R48-R50). -/
def reqFrame (write : Bool) (addr len part epoch : Nat) (fenced force routine : Bool) (data : List Byte) : Frame :=
  { ftype := if write then 2 else 1, fenced := fenced, routine := routine, dest := 0, src := 0, part := part,
    len := len, force := force, word1 := BitVec.ofNat 64 (addr + epoch * 2 ^ 32), payload := data }

/-- Requests outstanding to a Station (R53). -/
def outstanding (m : Mach) (d : Nat) : Nat := (m.spine.reqs.filter (fun r => r.req.die == d)).length

/-- Send one request to its Station for a command. -/
def sendReq (m : Mach) (cmd : Nat) (q : Req) : Mach :=
  let k := ringOf q.die
  let (tag, m) := takeTag m k
  let f := { q.frame with dest := q.die, src := hubDie m, dir := dirTo m q.die, tag := tag }
  let r : OutReq := { tag := tag, ring := k, cmd := cmd, tries := 0, due := gtcNow m + 1000 * timeoutUs m,
                      req := { q with frame := f } }
  launch { m with spine := { m.spine with reqs := m.spine.reqs ++ [r] } } k f

/-- A Station can be sent a command's request: fewer than 16 are outstanding to it (R53), and it has no configuration write to take
first (R523). -/
def canSend (m : Mach) (d : Nat) : Bool := decide (outstanding m d < 16) && (Store.get [] m.run.configOwed d).isEmpty

/-- Send what a command still has to send, in order, as far as each Station can be sent it. The rest stays to be sent as responses
come. -/
def pumpList (m : Mach) (cmd : Nat) : List Req → Mach × List Req
  | [] => (m, [])
  | q :: r =>
    if canSend m q.die then pumpList (sendReq m cmd q) cmd r
    else
      let (m, rest) := pumpList m cmd r
      (m, q :: rest)

/-- Find a command. -/
def findCmd (m : Mach) (id : Nat) : Option Cmd := m.cmds.find? (fun c => c.id == id)

/-- The frames of a command are a Routine's: a run issued it, or the hub did so on a run's behalf (R302). -/
def cmdRoutine (m : Mach) (id : Nat) : Bool :=
  match findCmd m id with
  | some c => c.share || (match c.origin with
    | .run _ => true
    | _ => false)
  | none => false

/-- Change a command. -/
def updCmd (m : Mach) (id : Nat) (g : Cmd → Cmd) : Mach :=
  { m with cmds := m.cmds.map (fun c => if c.id == id then g c else c) }

/-- Remove a command. -/
def dropCmd (m : Mach) (id : Nat) : Mach := { m with cmds := m.cmds.filter (fun c => c.id != id) }

/-- Send what command `id` still has to send. -/
def pump (m : Mach) (id : Nat) : Mach :=
  match findCmd m id with
  | none => m
  | some c =>
    let (m, rest) := pumpList m id c.todo
    updCmd m id (fun x => { x with todo := rest })

/-- The rings that are up. -/
def upRings (m : Mach) : List Nat := (List.range 4).filter (fun k => nbit (hf m R.SPN_STATUS_RING_UP) k)

/-- A broadcast on one ring: a CW and a CCW copy, and a unicast copy for the anchor (R54). -/
def castRing (m : Mach) (f : Frame) (k : Nat) : Mach :=
  let f := { f with src := hubDie m }
  let m := launch m k { f with dest := 0x7F, dir := 0 }
  let m := launch m k { f with dest := 0x7F, dir := 1 }
  launch m k { f with dest := 96 + k, dir := 0 }

/-- A frame to the Stations of a scope: unicast to one, else the broadcast copies of each ring that holds one of them
(R54, R525). -/
def castTo (m : Mach) (f : Frame) (dies : List Nat) : Mach :=
  match dies with
  | [] => m
  | [d] => launch m (ringOf d) { f with src := hubDie m, dest := d, dir := dirTo m d }
  | _ => ((List.range 4).filter (fun k => dies.any (fun d => ringOf d == k))).foldl (fun m k => castRing m f k) m

/-- A CUT frame (Table 2.3). -/
def cutFrame (t : Nat) (payload : List Byte) : Frame :=
  { ftype := 9, dest := 0x7F, src := 0, len := payload.length, word1 := BitVec.ofNat 64 t, payload := payload }

/-- The payload of an ARM (R525), or of an ARM_STITCH with the slot as its action (R139). -/
def armPayload (a : Arm) : List Byte :=
  if a.stitch then
    [BitVec.ofNat 8 2, BitVec.ofNat 8 a.action, BitVec.ofNat 8 a.kind, BitVec.ofNat 8 a.flags] ++ zeros 4 ++
    leBytes 8 a.armId ++ leBytes 32 a.parts.toNat
  else
  [BitVec.ofNat 8 3, BitVec.ofNat 8 a.action, BitVec.ofNat 8 a.kind, BitVec.ofNat 8 a.flags] ++
  leBytes 4 a.unit.toNat ++ leBytes 8 a.armId ++ leBytes 32 a.parts.toNat ++ leBytes 8 a.p0 ++ leBytes 8 a.p1

/-- The arm that an ARM or ARM_STITCH payload spells (R139, R525). -/
def armOfPayload (t : Nat) (p : List Byte) : Arm :=
  { armId := bytesAt p 8 8, t := t, stitch := bytesAt p 0 1 == 2, action := bytesAt p 1 1, kind := bytesAt p 2 1,
    flags := bytesAt p 3 1, unit := BitVec.ofNat 32 (bytesAt p 4 4), parts := BitVec.ofNat 256 (bytesAt p 16 32),
    p0 := bytesAt p 48 8, p1 := bytesAt p 56 8 }

/-- The payload of a CANCEL (R96). -/
def cancelPayload (armId : Nat) : List Byte := padTo 8 [BitVec.ofNat 8 1] ++ leBytes 8 armId

/-- The hub's count of pending Waypoint slots on a Station (R93). -/
def hubSlots (m : Mach) (d : Nat) : Nat := (m.run.arms.filter (fun a => a.t != 0 && nbit a.dies d)).length

/-- Every Station of a scope has n free Waypoint slots (R93). -/
def slotsFree (m : Mach) (dies : List Nat) (n : Nat) : Bool := dies.all (fun d => decide (hubSlots m d + n ≤ 16))

/-- Send an arm to Stations: the hub assigns its identifier and counts a slot on each that is not silent; a T of 0 acts at once and takes
none. A silent Station has not acted for the command, whatever it does (R93, R520, R525). Gives the identifier. -/
def sendArm (m : Mach) (cmd : Nat) (a : Arm) (dies : List Nat) : Nat × Mach :=
  let (id, m) := freshId m
  let a := { a with armId := id }
  let m := castTo m { cutFrame a.t (armPayload a) with routine := cmdRoutine m cmd } dies
  let sid := match (findCmd m cmd).map (fun c => c.origin) with
    | some (.session x) => some x
    | _ => none
  let live := dies.filter (stnAnswers m)
  let quiet := bitmapOf (dies.filter (fun d => !stnAnswers m d))
  let h : HubArm := { armId := id, t := a.t, cmd := cmd, dies := bitmapOf live, sid := sid, arm := a }
  let m := updCmd m cmd (fun c => { c with quiet := c.quiet ||| quiet })
  (id, { m with run := { m.run with arms := m.run.arms ++ (if live.isEmpty then [] else [h]) } })

/-- A Station's arm is no longer pending: fired, cancelled or late (R93). -/
def armGone (m : Mach) (armId d : Nat) : Mach :=
  let arms := m.run.arms.map (fun a => if a.armId == armId then { a with dies := clrBit a.dies d } else a)
  { m with run := { m.run with arms := arms.filter (fun a => a.dies != 0) } }

/-- Withdraw an arm on every Station that still holds it (R96). -/
def cancelArm (m : Mach) (armId : Nat) : Mach :=
  match m.run.arms.find? (fun a => a.armId == armId) with
  | none => m
  | some a => castTo m (cutFrame a.t (cancelPayload armId)) (bitsOf a.dies 100)

/-- Send a gather over one ring: one copy, or one on each arm of a masked ring (R56, R61). -/
def gatherRing (m : Mach) (cmd gkind query len : Nat) (init : List Byte) (routine : Bool) (k : Nat) : Mach :=
  let (tag, m) := takeTag m k
  let f : Frame := { ftype := 6, dest := 0x7F, src := hubDie m, len := len, tag := tag, routine := routine,
                     word1 := BitVec.ofNat 64 (gkind * 2 ^ 32 + query * 2 ^ 40), payload := init }
  let masked := ringMasked m k
  let g : OutGather := { tag := tag, ring := k, gkind := gkind, query := query, len := len, cmd := cmd,
                         copies := if masked then 2 else 1, visited := 0, init := init, acc := init,
                         due := gtcNow m + 1000 * timeoutUs m, tries := 0 }
  let m := { m with spine := { m.spine with gathers := m.spine.gathers ++ [g] } }
  let m := launch m k { f with dir := 0 }
  if masked then launch m k { f with dir := 1 } else m

end Sys2Proof.Machine
end

