-- ==== Sys2Proof/Machine/Codec.lean ====
section
/-! DEFINITION. The block codec: planes, XOR-delta, granule modes, the canonical encoder and the decoder (R185-R206). -/

namespace Sys2Proof.Machine

/-! ### Transform (R189-R191) -/

/-- Width code of a format (Table 6.1). -/
def widthCode (format : Nat) : Nat :=
  match format with
  | 1 => 2
  | 2 => 1
  | 3 => 1
  | 14 => 2
  | _ => 0

/-- A list cut into pieces of n, at most `count` of them. -/
def chunks {α : Type} (n : Nat) : Nat → List α → List (List α)
  | 0, _ => []
  | c + 1, l => l.take n :: chunks n c (l.drop n)

/-- Plane j of w holds byte w − 1 − j of each element (R190). -/
def plane (w j : Nat) (elems : List (List Byte)) : List Byte := elems.map (fun e => e.getD (w - 1 - j) 0)

/-- The planes of a block of 4,096 bytes. -/
def splitPlanes (w : Nat) (b : List Byte) : List (List Byte) :=
  let elems := chunks w (4096 / w) b
  (List.range w).map (fun j => plane w j elems)

/-- The block whose planes these are, n elements of it. -/
def joinPlanes (planes : List (List Byte)) : Nat → List Byte
  | 0 => []
  | n + 1 => (planes.map (fun p => p.headD 0)).reverse ++ joinPlanes (planes.map List.tail) n

/-- The XOR-delta of a plane, `p` being the byte before it (0 for the first, which is kept) (R191). -/
def xorDelta (p : Byte) : List Byte → List Byte
  | [] => []
  | b :: r => (b ^^^ p) :: xorDelta b r

/-- The plane whose XOR-delta this is. -/
def xorUndo (p : Byte) : List Byte → List Byte
  | [] => []
  | d :: r => (d ^^^ p) :: xorUndo (d ^^^ p) r

/-! ### Granules (R192, R193) -/

/-- The little-endian bit string of values of k bits. -/
def packBits (k : Nat) : List Nat → Nat
  | [] => 0
  | v :: r => v + 2 ^ k * packBits k r

/-- The first n values of k bits of a bit string. -/
def unpackBits (k : Nat) : Nat → Nat → List Nat
  | 0, _ => []
  | n + 1, x => x % 2 ^ k :: unpackBits k n (x / 2 ^ k)

/-- The least byte of a granule. -/
def granMin (g : List Byte) : Nat := g.foldl (fun a b => Nat.min a b.toNat) 255

/-- The greatest byte of a granule. -/
def granMax (g : List Byte) : Nat := g.foldl (fun a b => Nat.max a b.toNat) 0

/-- The smallest k in 1-7 with range < 2^k (R197). -/
def packWidth (range : Nat) : Nat := (([1, 2, 3, 4, 5, 6, 7] : List Nat).find? (fun k => decide (range < 2 ^ k))).getD 7

/-- Mode and payload of a granule whose predecessor is `prev`: the fewest payload bytes, ties to the lower mode
(Table 6.2, R197). -/
def granMode (prev : Option (List Byte)) (g : List Byte) : Nat × List Byte :=
  let lo := granMin g
  let hi := granMax g
  if hi = 0 then (0, [])
  else if prev = some g then (1, [])
  else if lo = hi then (2, [BitVec.ofNat 8 lo])
  else if hi - lo ≤ 127 then
    let k := packWidth (hi - lo)
    (3, [BitVec.ofNat 8 lo, BitVec.ofNat 8 k] ++ leBytes (8 * k) (packBits k (g.map (fun b => b.toNat - lo))))
  else (4, g)

/-- Modes and payloads of granules in order. -/
def granModes (prev : Option (List Byte)) : List (List Byte) → List (Nat × List Byte)
  | [] => []
  | g :: r => granMode prev g :: granModes (some g) r

/-- Modes and payloads of a block under an XOR flag (R190-R192). -/
def blockModes (w : Nat) (xor : Bool) (b : List Byte) : List (Nat × List Byte) :=
  let planes := splitPlanes w b
  let planes := if xor then planes.map (xorDelta 0) else planes
  granModes none (chunks 64 64 planes.flatten)

/-- Payload bytes of coded granules. -/
def payloadOf (ms : List (Nat × List Byte)) : List Byte := (ms.map Prod.snd).flatten

/-! ### The encoder (R194-R203) -/

/-- Why the encoder refuses a block, or the slot it writes with the PLEN of its block. -/
inductive Encoded where
  | slot (bytes : List Byte) (plen : Nat)
  | incompressible
  | selfcheckFail
  deriving DecidableEq, Repr

/-- Why a slot does not decode, or its bytes (Table 6.5). -/
inductive Decoded where
  | empty
  | stub (a b : Nat)
  | failed (reason : Nat)
  | bytes (l : List Byte)
  deriving DecidableEq, Repr

/-- The block header with the given CRC (Table 6.3). -/
def blockHeader (use_ : Nat) (xor : Bool) (wcode ratio vlen plen crc seq : Nat) : List Byte :=
  [BitVec.ofNat 8 0xA5, BitVec.ofNat 8 (0x10 + use_ * 4 + b2n xor * 2), BitVec.ofNat 8 wcode, BitVec.ofNat 8 ratio] ++
  leBytes 2 vlen ++ leBytes 2 plen ++ leBytes 4 crc ++ leBytes 4 seq

/-- Rebuild the granules from modes and payload; none for a mode, REPEAT, PACK or length that breaks row 7 or 8. -/
def unGranules (prev : Option (List Byte)) : List Nat → List Byte → Option (List (List Byte))
  | [], p => if p.isEmpty then some [] else none
  | mo :: r, p =>
    match mo with
    | 0 => (unGranules (some (zeros 64)) r p).map (zeros 64 :: ·)
    | 1 => match prev with
      | none => none
      | some g => (unGranules (some g) r p).map (g :: ·)
    | 2 => match p with
      | [] => none
      | v :: p =>
        let g := List.replicate 64 v
        (unGranules (some g) r p).map (g :: ·)
    | 3 => match p with
      | base :: kb :: p =>
        let k := kb.toNat
        if k = 0 ∨ 7 < k ∨ p.length < 8 * k then none
        else
          let vs := unpackBits k 64 (leNat (p.take (8 * k)))
          if vs.any (fun v => decide (255 < base.toNat + v)) then none
          else
            let g := vs.map (fun v => BitVec.ofNat 8 (base.toNat + v))
            (unGranules (some g) r (p.drop (8 * k))).map (g :: ·)
      | _ => none
    | 4 =>
      if p.length < 64 then none
      else
        let g := p.take 64
        (unGranules (some g) r (p.drop 64)).map (g :: ·)
    | _ => none

/-- The 4,096 bytes of rebuilt granules under a width and an XOR flag. -/
def rebuild (wcode : Nat) (xor : Bool) (gs : List (List Byte)) : List Byte :=
  let w := 2 ^ wcode
  let planes := chunks (4096 / w) w gs.flatten
  let planes := if xor then planes.map (xorUndo 0) else planes
  joinPlanes planes (4096 / w)

/-- Decode a slot at class `ratio`, with the SEQ to be checked when the caller checks it (Table 6.5). -/
def decodeSlot (slot : List Byte) (ratio : Nat) (seq : Option Nat) : Decoded :=
  let at_ := bytesAt slot
  let s := 4096 / ratio
  let magic := at_ 0 1
  let b1 := at_ 1 1
  let use_ := nfld b1 2 2
  let wcode := at_ 2 1
  let vlen := at_ 4 2
  let plen := at_ 6 2
  let crc := at_ 8 4
  if magic = 0 then .empty
  else if magic = 0x5A then .stub (at_ 4 4) (at_ 8 4)
  else if magic ≠ 0xA5 then .failed 1
  else if b1 / 16 ≠ 1 then .failed 2
  else if b1 % 2 = 1 ∨ use_ = 3 ∨ 3 ≤ wcode ∨ at_ 3 1 ≠ ratio ∨ vlen = 0 ∨ 4096 < vlen then .failed 3
  else if use_ = 0 ∧ crc32c (patch ((slot.take (40 + plen))) 8 (zeros 4)) ≠ crc then .failed 4
  else if s < 40 + plen then .failed 5
  else
    match unGranules none (unpackBits 3 64 (at_ 16 24)) ((slot.drop 40).take plen) with
    | none => .failed 5
    | some gs =>
      let out := (rebuild wcode (nbit b1 1) gs).take vlen
      if use_ ≠ 0 ∧ crc32c out ≠ crc then .failed 4
      else if (match seq with | some q => decide (at_ 12 4 ≠ q % 2 ^ 32) | none => false) then .failed 6
      else .bytes out

/-- Encode a block of 4,096 bytes, the bytes beyond VLEN taken as zero; XOR mode 0 AUTO, 1 OFF, 2 ON (R197, R198). -/
def encodeBlock (inp : List Byte) (vlen wcode use_ ratio xmode seq : Nat) : Encoded :=
  let s := 4096 / ratio
  let b := padTo 4096 (inp.take vlen)
  let w := 2 ^ wcode
  let m0 := blockModes w false b
  let m1 := blockModes w true b
  let xor := xmode = 2 ∨ (xmode = 0 ∧ (payloadOf m1).length < (payloadOf m0).length)
  let ms := if xor then m1 else m0
  let pay := payloadOf ms
  let plen := pay.length
  if s < 40 + plen then .incompressible
  else
    let modes := leBytes 24 (packBits 3 (ms.map Prod.fst))
    let blk := blockHeader use_ (decide xor) wcode ratio vlen plen 0 seq ++ modes ++ pay
    let crc := if use_ = 0 then crc32c blk else crc32c (b.take vlen)
    let blk := patch blk 8 (leBytes 4 crc)
    if use_ = 0 ∧ decodeSlot blk ratio none ≠ .bytes (b.take vlen) then .selfcheckFail
    else .slot (padTo s blk) plen

/-! ### The Station Codec -/

/-- Count a block that die d's Codec encoded or refused; a self-check failure latches STN_CDC_LAST and raises
CDC_SELFCHECK (R200, R202). -/
def stnCodecCount (m : Mach) (d : Nat) (r : Encoded) (seq use_ slot : Nat) : Mach :=
  match r with
  | .slot _ _ => incSf m d R.STN_CDC_CNT_ENCODED
  | .incompressible => incSf m d R.STN_CDC_CNT_INCOMPRESSIBLE
  | .selfcheckFail =>
    let m := incSf m d R.STN_CDC_CNT_SELFCHECK
    let m := setSf m d R.STN_CDC_LAST_SEQ seq
    let m := setSf m d R.STN_CDC_LAST_USE use_
    let m := if use_ = 0 then setSf m d R.STN_CDC_LAST_SLOT slot else m
    stnEvent m d { code := EvCode.cdcSelfcheck, source := stnPath m d, stamp := repNow m d, detail := w1 seq }

end Sys2Proof.Machine
end

