-- ==== Sys2Proof/Machine/TraceFmt.lean ====
section
/-! DEFINITION. Trace records and Folios: varints, record layouts, the Folio header, and reading them back (R255-R266). -/

namespace Sys2Proof.Machine

/-- A varint in at most `fuel` bytes, fewest first (R257). -/
def varintGo : Nat → Nat → List Byte
  | 0, _ => []
  | n + 1, v => if v < 128 then [BitVec.ofNat 8 v] else BitVec.ofNat 8 (v % 128 + 128) :: varintGo n (v / 128)

/-- A value of up to 64 bits as a varint. -/
def varint (v : Nat) : List Byte := varintGo 10 v

/-- Read a varint: the value and the bytes after it (R257). -/
def unvarintGo : Nat → List Byte → Nat → Nat → Option (Nat × List Byte)
  | 0, _, _, _ => none
  | _ + 1, [], _, _ => none
  | n + 1, b :: r, sh, acc =>
    let acc := acc + (b.toNat % 128) * 2 ^ sh
    if b.toNat < 128 then (if acc < 2 ^ 64 then some (acc, r) else none) else unvarintGo n r (sh + 7) acc

/-- Read a varint at the head of bytes. -/
def unvarint (l : List Byte) : Option (Nat × List Byte) := unvarintGo 10 l 0 0

/-- ZADDR: the zigzag form of address − reference modulo 2^64 (R257). -/
def zigzag (addr ref : Nat) : Nat :=
  let d := (addr % 2 ^ 64 + 2 ^ 64 - ref % 2 ^ 64) % 2 ^ 64
  if d < 2 ^ 63 then 2 * d else 2 * (2 ^ 64 - d) - 1

/-- The address that a ZADDR and a reference give. -/
def unzigzag (z ref : Nat) : Nat :=
  if z % 2 = 0 then (ref + z / 2) % 2 ^ 64 else (ref + 2 ^ 64 - (z / 2 + 1) % 2 ^ 64) % 2 ^ 64

/-- The bytes of a record of source `src` stamped `t` against a reference stamp and address (Table 8.1). -/
def traceBytes (r : TraceRec) (src t refT refA : Nat) : List Byte :=
  let dt := varint (t - refT)
  let head (ty sub : Nat) : List Byte := [BitVec.ofNat 8 (ty * 16 + sub), BitVec.ofNat 8 src]
  match r with
  | .tx kind aux addr => head 1 kind ++ [BitVec.ofNat 8 aux] ++ dt ++ varint (zigzag addr refA)
  | .sync reason addr => head 2 reason ++ leBytes 8 addr ++ leBytes 8 t
  | .sleep => head 3 0 ++ dt
  | .wake => head 4 0 ++ leBytes 8 t
  | .redact count span => head 5 0 ++ dt ++ varint count ++ varint span
  | .overrun count => head 6 0 ++ dt ++ varint count
  | .mark value => head 7 0 ++ dt ++ varint value
  | .halt reason aux => head 8 reason ++ [BitVec.ofNat 8 aux] ++ dt
  | .resume mask => head 9 0 ++ [BitVec.ofNat 8 mask] ++ dt
  | .link sub vc len header =>
    head 10 sub ++ [BitVec.ofNat 8 vc, BitVec.ofNat 8 header.length] ++ dt ++ varint len ++ header

/-- A trace Folio of 4,096 bytes (Table 8.2). -/
def folioBytes (slot flags : Nat) (station : W32) (seq first records : Nat) (recs : List Byte) : List Byte :=
  let used := 32 + recs.length
  let head := leBytes 4 0x46435254 ++ [BitVec.ofNat 8 1, BitVec.ofNat 8 slot, BitVec.ofNat 8 flags, 0] ++
    leBytes 4 station.toNat ++ leBytes 4 seq ++ leBytes 8 first ++ leBytes 2 used ++ leBytes 2 records
  padTo 4096 (head ++ leBytes 4 (crc32c (head ++ recs)) ++ recs)

/-- One record as a drain reads it: source number, absolute stamp, and what it holds. -/
structure RawRec where
  src : Nat
  stamp : Nat
  body : TraceRec
  deriving DecidableEq, Repr

/-- References of the sources while a Folio is read. -/
abbrev RefMap := Store (Nat × Nat)

/-- Read one record; none at padding, at the end or when the bytes break Table 8.1. -/
def readRec (refs : RefMap) (l : List Byte) : Option (RawRec × RefMap × List Byte) :=
  match l with
  | b0 :: b1 :: r =>
    let ty := b0.toNat / 16
    let sub := b0.toNat % 16
    let src := b1.toNat
    let (rt, ra) := Store.get (0, 0) refs src
    let done (t a : Nat) (body : TraceRec) (rest : List Byte) : Option (RawRec × RefMap × List Byte) :=
      some ({ src := src, stamp := t, body := body }, Store.put (0, 0) refs src (t, a), rest)
    match ty with
    | 1 => do
      let aux := bytesAt r 0 1
      let (dt, r) ← unvarint (r.drop 1)
      let (z, r) ← unvarint r
      done (rt + dt) (unzigzag z ra) (.tx sub aux (unzigzag z ra)) r
    | 2 => if r.length < 16 then none else done (bytesAt r 8 8) (bytesAt r 0 8) (.sync sub (bytesAt r 0 8)) (r.drop 16)
    | 3 => do
      let (dt, r) ← unvarint r
      done (rt + dt) ra .sleep r
    | 4 => if r.length < 8 then none else done (bytesAt r 0 8) ra .wake (r.drop 8)
    | 5 => do
      let (dt, r) ← unvarint r
      let (c, r) ← unvarint r
      let (sp, r) ← unvarint r
      done (rt + dt) ra (.redact c sp) r
    | 6 => do
      let (dt, r) ← unvarint r
      let (c, r) ← unvarint r
      done (rt + dt) ra (.overrun c) r
    | 7 => do
      let (dt, r) ← unvarint r
      let (v, r) ← unvarint r
      done (rt + dt) ra (.mark v) r
    | 8 => do
      let aux := bytesAt r 0 1
      let (dt, r) ← unvarint (r.drop 1)
      done (rt + dt) ra (.halt sub aux) r
    | 9 => do
      let aux := bytesAt r 0 1
      let (dt, r) ← unvarint (r.drop 1)
      done (rt + dt) ra (.resume aux) r
    | 10 => do
      let vc := bytesAt r 0 1
      let hl := bytesAt r 1 1
      let (dt, r) ← unvarint (r.drop 2)
      let (len, r) ← unvarint r
      if r.length < hl then none else done (rt + dt) ra (.link sub vc len (r.take hl)) (r.drop hl)
    | _ => none
  | _ => none

/-- The records of a Folio's bytes, at most n of them. -/
def readRecs : Nat → RefMap → List Byte → List RawRec
  | 0, _, _ => []
  | n + 1, refs, l =>
    match readRec refs l with
    | some (r, refs, l) => r :: readRecs n refs l
    | none => []

/-- A Folio read back: SEQ, FIRST, flags and records, or none when MAGIC, VERSION, USED or CRC fails. -/
def readFolio (b : List Byte) : Option (Nat × Nat × Nat × List RawRec) :=
  let used := bytesAt b 24 2
  if bytesAt b 0 4 = 0x46435254 ∧ bytesAt b 4 1 = 1 ∧ 32 ≤ used ∧ used ≤ 4096 ∧
     crc32c (b.take 28 ++ (b.take used).drop 32) = bytesAt b 28 4 then
    some (bytesAt b 12 4, bytesAt b 16 8, bytesAt b 6 1, readRecs (bytesAt b 26 2) [] ((b.take used).drop 32))
  else none

/-- The Folios of a frame: each its decoded bytes, or none when its block check fails. Byte 0 tells the kind (R268). -/
def frameFolios (data : List Byte) : List (Option (List Byte)) :=
  if bytesAt data 0 1 = 0x54 then [some data]
  else if bytesAt data 0 1 = 0xA5 then
    let ratio := bytesAt data 3 1
    if ratio = 2 ∨ ratio = 4 ∨ ratio = 8 then
      (chunks (4096 / ratio) ratio data).filterMap fun s =>
        match decodeSlot s ratio none with
        | .bytes l => some (some (padTo 4096 l))
        | .empty => none
        | .stub _ _ => none
        | .failed _ => some none
    else [none]
  else []

end Sys2Proof.Machine
end

