-- ==== Sys2Proof/Machine/TraceEmit.lean ====
section
/-! DEFINITION. Recording on a Station: sources, SYNC and REDACT records, Folios, frames, buffer modes, losses and
horizons (R253-R276). -/

namespace Sys2Proof.Machine

/-- A stream on a Station. -/
def trS (m : Mach) (d s : Nat) : TrStream := Store.get { } (stn m d).streams s

/-- Change a stream on a Station. -/
def updTr (m : Mach) (d s : Nat) (g : TrStream → TrStream) : Mach :=
  updStn m d (fun x => { x with streams := Store.put { } x.streams s (g (Store.get { } x.streams s)) })

/-- A frame of a Station's trace buffer. -/
def trFrame (m : Mach) (d f : Nat) : Option TrFrame := Store.get none (stn m d).frames f

/-- Replace a frame. -/
def setFrame (m : Mach) (d f : Nat) (x : Option TrFrame) : Mach :=
  updStn m d (fun y => { y with frames := Store.put none y.frames f x })

/-- The frames that a slot holds on a Station, with their indices. -/
def slotFrames (m : Mach) (d s : Nat) : List (Nat × TrFrame) :=
  (stn m d).frames.filterMap (fun e => match e.2 with
    | some f => if f.slot = s then some (e.1, f) else none
    | none => none)

/-- Show in STN_TRC_SLOT and STN_TRC_STAT what the frames and the stream of a slot hold. -/
def trcRegs (m : Mach) (d s : Nat) : Mach :=
  let fs := slotFrames m d s
  let m := setSf m d R.STN_TRC_SLOT_FRAMES fs.length s
  let m := setSf m d R.STN_TRC_SLOT_FILLED (fs.filter (fun f => decide (2 ≤ f.2.state))).length s
  let m := setSf m d R.STN_TRC_SLOT_SEQ (trS m d s).seq s
  let run := sf m d R.STN_TRC_STAT_RUNNING
  let stp := sf m d R.STN_TRC_STAT_STOPPED
  let m := setSf m d R.STN_TRC_STAT_RUNNING (if (trS m d s).running then setBit run s else clrBit run s)
  let m := setSf m d R.STN_TRC_STAT_STOPPED (if (trS m d s).stopped then setBit stp s else clrBit stp s)
  setSf m d R.STN_TRC_STAT_FREE_FRAMES (1024 - (stn m d).frames.length)

/-- An event of a stream on a die: it goes to the stream's Session as well, with the cookie of its TRACE_START (R341, R519). -/
def streamEvent (m : Mach) (d s code : Nat) (detail : List W32) (tray : Bool) : Mach :=
  let x := Store.get none m.trc.slots s
  stnEvent m d { code := code, source := stnPath m d, stamp := repNow m d, detail := detail, named := (x.map (fun y => y.sid)).toList,
                 tray := tray, cookie := (x.map (fun y => y.cookie)).getD 0 }

/-! ### Waypoints that are armed (R275, R276) -/

/-- The Waypoint of the earliest pending arm of an action for a slot on a die. -/
def armTime (m : Mach) (d action s : Nat) : Option Nat :=
  ((stn m d).wpts.filter (fun a => a.action == action && a.p0 == s && !a.stitch)).foldl (fun acc a => match acc with
    | none => some a.t
    | some t => some (Nat.min t a.t)) none

/-- What is stamped t is recorded for a slot on a die: the stream records here or begins at or before t, and does not stop at or
before t (R275). -/
def records (m : Mach) (d s t : Nat) : Bool :=
  ((trS m d s).running || (armTime m d 7 s).any (fun x => decide (x ≤ t))) && !(armTime m d 8 s).any (fun x => decide (x ≤ t))

/-- A stamp lies at or behind a horizon that is armed or not yet closed on a die (R276). -/
def behindHorizon (m : Mach) (d s t : Nat) : Bool :=
  (trS m d s).horizon.any (fun h => decide (h ≤ t)) || (armTime m d 9 s).any (fun h => decide (h ≤ t))

/-! ### What a source of a stream holds -/

/-- Change what a source of a stream holds. -/
def updSrc (m : Mach) (d s src : Nat) (g : SrcRef → SrcRef) : Mach :=
  updTr m d s (fun x => { x with srcs := Store.put { } x.srcs src (g (Store.get { } x.srcs src)) })

/-- What a source of a stream holds. -/
def srcOf (m : Mach) (d s src : Nat) : SrcRef := Store.get { } (trS m d s).srcs src

/-- A source that begins to record owes a reason-1 SYNC, and its sampler starts at 0 (R253, R258). -/
def freshSrc (t : Nat) (r : SrcRef) : SrcRef :=
  { r with owed := 1, sampled := 0, redact := none, inFolio := false, since := 0, started := t }

/-- The SYNC that a source owes once records of it were lost (R258): reason 3, where no lower one is owed. -/
def gapOwed (n : Nat) : Nat := if n = 1 ∨ n = 2 then n else 3

/-! ### Frames (R268-R270) -/

/-- The frames that an older SEQ says come first: the closed one of a slot that no drain reads (Table 8.3). -/
def oldestFrame (m : Mach) (d s : Nat) : Option (Nat × TrFrame) :=
  ((slotFrames m d s).filter (fun f => decide (2 ≤ f.2.state) && !f.2.reading)).foldl (fun acc f => match acc with
    | none => some f
    | some b => if seqLater b.2.seq f.2.seq then some f else acc) none

/-- The sources that have a record in a frame's bytes. -/
def frameSources (data : List Byte) : List Nat :=
  (((frameFolios data).filterMap (fun o => o.bind readFolio)).flatMap (fun x => x.2.2.2.map (fun r => r.src))).dedup

/-- The Folios of a frame are lost to reuse: their sources owe a reason-3 SYNC (R258, Table 8.3). -/
def loseFrame (m : Mach) (d s : Nat) (data : List Byte) : Mach :=
  (frameSources data).foldl (fun m src => updSrc m d s src (fun r => { r with owed := gapOwed r.owed })) m

/-- The lowest frame that no stream of a Station holds. -/
def freeOne (m : Mach) (d : Nat) : Option Nat := (List.range 1024).find? (fun f => (trFrame m d f).isNone)

/-- A free frame that a stream may take in place of one that a drain gave back (R270, R278). -/
def spareFrame (m : Mach) (d s : Nat) : Option Nat :=
  if (slotFrames m d s).length < (trS m d s).quota then freeOne m d else none

/-- An open frame for the stream: the one it has, an empty one, one that it may take, or under WRAP the one with the oldest SEQ (R268,
Table 8.3); none when there is no frame to write. -/
def openFrame (m : Mach) (d s : Nat) : Option (Nat × Mach) :=
  let st := trS m d s
  match st.frame with
  | some f => some (f, m)
  | none =>
    let take (m : Mach) (f : Nat) : Option (Nat × Mach) :=
      some (f, updTr (setFrame m d f (some { slot := s, state := 1 })) d s (fun x => { x with frame := some f }))
    match (slotFrames m d s).find? (fun f => f.2.state == 0), spareFrame m d s with
    | some (f, _), _ => take m f
    | none, some f => take m f
    | none, none =>
      if st.mode = 0 then
        match oldestFrame m d s with
        | some (f, x) => take (loseFrame m d s x.data) f
        | none => none
      else none

/-- Close the stream's open frame; its unused slots stay empty (R268). A frame that holds no Folio stays open, and one that was marked
CORRUPT stays so (R269). -/
def closeFrame (m : Mach) (d s : Nat) : Mach :=
  match (trS m d s).frame with
  | none => m
  | some f =>
    match trFrame m d f with
    | none => m
    | some x =>
      if x.folios = 0 then m
      else
        let y := { x with state := Nat.max 2 x.state, data := padTo 4096 x.data }
        updTr (setFrame m d f (some y)) d s (fun y => { y with frame := none })

/-- Put a Folio's bytes, raw or as a slot of the stream's class, into the open frame; close the frame when its last
slot is filled. -/
def storeInFrame (m : Mach) (d s f : Nat) (bytes : List Byte) (seq first perFrame : Nat) : Mach :=
  match trFrame m d f with
  | none => m
  | some x =>
    let x := { x with data := x.data ++ bytes, folios := x.folios + 1,
                      seq := if x.folios = 0 then seq else x.seq, stamp := if x.folios = 0 then first else x.stamp }
    let m := setFrame m d f (some x)
    if perFrame ≤ x.folios then closeFrame m d s else m

/-! ### Records that are lost (R271) -/

/-- Records of a stream are lost on a die: they are counted, and TRACE_OVERRUN is raised, at most once a millisecond for each Station. -/
def noteLost (m : Mach) (d s n : Nat) : Mach :=
  let m := incSf (updTr m d s (fun x => { x with lost := x.lost + n })) d R.STN_TRC_LOST_LOST n s
  let now := repNow m d
  if (stn m d).lastOverrun.any (fun t => decide (now < t + 1000000)) then m
  else streamEvent (updStn m d (fun x => { x with lastOverrun := some now })) d s EvCode.traceOverrun (w1 s) false

/-- Records of a source are lost at its Station. -/
def loseRecord (m : Mach) (d s src n : Nat) : Mach :=
  noteLost (updSrc m d s src (fun r => { r with lost := r.lost + n, owed := gapOwed r.owed })) d s n

/-- A record of a Tap is lost at its queue; an OVERRUN that is lost leaves its count owed. -/
def loseAtTap (m : Mach) (d s p : Nat) (x : TraceRec) : Mach :=
  match x with
  | .overrun n => updSrc m d s p (fun r => { r with tapLost := r.tapLost + n })
  | _ => noteLost (incTf (updSrc m d s p (fun r => { r with tapLost := r.tapLost + 1 })) d p R.TAP_TRC_STAT_LOST) d s 1

/-- The records of a Folio that finds no frame are lost, each counted for its source; a lost OVERRUN leaves its count owed
(R271). -/
def loseFolio (m : Mach) (d s : Nat) (x : OpenFolio) : Mach :=
  (readRecs x.records [] x.bytes).foldl (fun m r =>
    match r.body with
    | .sync _ _ => m
    | .overrun n => updSrc m d s r.src (fun y => { y with lost := y.lost + n, owed := gapOwed y.owed })
    | _ => loseRecord m d s r.src 1) m

/-! ### Folios (R258-R260, R266-R268) -/

/-- Stop a stream on its die under STOP: nothing more is recorded and TRACE_STOPPED is raised (Table 8.3). What it still held is lost. -/
def stopOnDie (m : Mach) (d s : Nat) : Mach :=
  let x := trS m d s
  let m := loseFolio m d s x.folio
  let m := updTr m d s (fun x => { x with running := false, stopped := true, folio := { } })
  streamEvent m d s EvCode.traceStopped [] false

/-- Under STOP, stop once every frame of the stream holds undrained data (R270). -/
def stopIfFull (m : Mach) (d s : Nat) : Mach :=
  let fs := slotFrames m d s
  if (trS m d s).mode = 1 ∧ (trS m d s).running ∧ fs.all (fun f => decide (2 ≤ f.2.state)) ∧ spareFrame m d s = none
  then stopOnDie m d s else m

/-- Close the open Folio of a stream: encode it in trace class, or store it raw with CLASS 1 or when it is refused
(R267, R268). -/
def closeFolio (m : Mach) (d s : Nat) (short : Bool) : Mach :=
  let st := trS m d s
  if st.folio.records = 0 then m
  else
    let b := folioBytes s (st.folio.flags + (if short then 4 else 0)) (stnPath m d) st.seq st.folio.first
      st.folio.records st.folio.bytes
    let m := updTr m d s (fun x => { x with folio := { }, seq := (x.seq + 1) % 2 ^ 32,
                                            srcs := x.srcs.map (fun e => (e.1, { e.2 with inFolio := false })) })
    let raw (m : Mach) : Mach :=
      match openFrame m d s with
      | some (f, m) => storeInFrame m d s f b st.seq st.folio.first 1
      | none => loseFolio m d s st.folio
    let m :=
      if st.cls = 1 then raw m
      else
        let r := encodeBlock b 4096 0 1 st.cls 0 st.seq
        let m := stnCodecCount m d r st.seq 1 0
        match r with
        | .slot bytes _ =>
          match openFrame m d s with
          | some (f, m) => storeInFrame m d s f bytes st.seq st.folio.first st.cls
          | none => loseFolio m d s st.folio
        | _ => raw (closeFrame m d s)
    trcRegs (stopIfFull m d s) d s

/-- The reason of the SYNC that a record of a source needs, 0 when it needs none: the lowest that applies (R258). -/
def syncReason (r : SrcRef) : Nat :=
  if r.owed = 1 ∨ r.owed = 2 ∨ r.owed = 3 then r.owed
  else if 255 ≤ r.since then 4
  else if !r.inFolio then 5 else 0

/-- The bytes of a record with the SYNC that it needs, and the references that it leaves (R258, R259). An OVERRUN is the first record
after records were lost. -/
def recordBytes (r : SrcRef) (src t : Nat) (x : TraceRec) : List Byte × Nat × SrcRef :=
  let lost := match x with
    | .overrun _ => true
    | _ => false
  let reason := syncReason (if lost then { r with owed := gapOwed r.owed } else r)
  let addr := match x with
    | .tx _ _ a => a
    | _ => if 128 ≤ src then 0 else r.addr
  let owed := match x with
    | .wake => 2
    | .overrun _ => 3
    | _ => 0
  let after := { r with stamp := t, inFolio := true, owed := owed }
  if reason = 0 then
    (traceBytes x src t r.stamp r.addr, 1,
      { after with since := r.since + 1, addr := match x with | .tx _ _ a => a | _ => r.addr })
  else
    (traceBytes (.sync reason addr) src t 0 0 ++ traceBytes x src t t addr, 2, { after with since := 1, addr := addr })

/-- Write one record of a source into the open Folio, closing the Folio first when it does not fit (R260, R267). -/
def writeRecord (m : Mach) (d s src : Nat) (x : TapRec) : Mach :=
  let (b, _, _) := recordBytes (srcOf m d s src) src x.stamp x.body
  let m := if 4096 < 32 + (trS m d s).folio.bytes.length + b.length then closeFolio m d s false else m
  if !(trS m d s).running then m
  else
    match openFrame m d s with
    | none => (match x.body with
      | .overrun n => updSrc m d s src (fun r => { r with lost := r.lost + n, owed := gapOwed r.owed })
      | _ => loseRecord m d s src 1)
    | some (_, m) =>
      let (b, n, r) := recordBytes (srcOf m d s src) src x.stamp x.body
      let m := updSrc m d s src (fun _ => r)
      let (lost, overs) := match x.body with
        | .overrun _ => (2, 1)
        | _ => (0, 0)
      let m := incSf m d R.STN_TRC_LOST_OVERRUNS overs s
      updTr m d s (fun y => { y with made := y.made + n, folio :=
        { bytes := y.folio.bytes ++ b, records := y.folio.records + n,
          first := if y.folio.records = 0 then x.stamp else y.folio.first, flags := y.folio.flags ||| b2n x.loose ||| lost } })

/-! ### What a Station takes (R259, R271, R276) -/

/-- The records behind a horizon that no longer stands, or that has closed, go into the open Folio. -/
def flushBehind (m : Mach) (d s : Nat) : Mach :=
  let x := trS m d s
  if x.behind.isEmpty || x.horizon.isSome || (armTime m d 9 s).isSome then m
  else x.behind.foldl (fun m e => writeRecord m d s e.1 e.2) (updTr m d s (fun y => { y with behind := [] }))

/-- A Station takes a record of a source of its die: into the open Folio, or into the second one when it is stamped at or behind a
horizon that has not closed (R276). -/
def stationTake (m : Mach) (d src : Nat) (x : TapRec) : Mach :=
  let s := x.slot
  if !(trS m d s).running then m
  else if behindHorizon m d s x.stamp then updTr m d s (fun y => { y with behind := y.behind ++ [(src, x)] })
  else writeRecord (flushBehind m d s) d s src x

/-- The queue of a Tap. -/
def tapQueue (m : Mach) (d p : Nat) : List TapRec := Store.get [] (stn m d).queues p

/-- Replace the queue of a Tap, which TAP_TRC_STAT shows. -/
def setQueue (m : Mach) (d p : Nat) (q : List TapRec) : Mach :=
  setTf (updStn m d (fun x => { x with queues := Store.put [] x.queues p q })) d p R.TAP_TRC_STAT_QUEUE q.length

/-- A source offers a record: an endpoint to its Station at once, a Tap to its queue of 32 (R271). -/
def offerRecord (m : Mach) (d src : Nat) (x : TapRec) : Mach :=
  if 128 ≤ src then stationTake m d src x
  else if 32 ≤ (tapQueue m d src).length then loseAtTap m d x.slot src x.body
  else setQueue m d src (tapQueue m d src ++ [x])

/-- A source makes a record of its own for a slot. Its stamp is never before that of its latest one (R259). -/
def putRecord (m : Mach) (d s src t : Nat) (x : TraceRec) : Mach :=
  let t := Nat.max t (srcOf m d s src).last
  let m := updSrc m d s src (fun r => { r with last := t })
  offerRecord m d src { slot := s, stamp := t, loose := sf m d R.STN_GTC_STAT_ALIGNED == 0, body := x }

/-- Write the open redaction run of a source as one REDACT record, which bears the stamp of its last transaction (R262). -/
def endRedaction (m : Mach) (d s src : Nat) : Mach :=
  match (srcOf m d s src).redact with
  | none => m
  | some (n, first, last) =>
    let m := updSrc m d s src (fun r => { r with redact := none })
    offerRecord m d src { slot := s, stamp := last, loose := sf m d R.STN_GTC_STAT_ALIGNED == 0, body := .redact n (last - first) }

/-- A Tap whose queue has room again writes the OVERRUN record that it owes, stamped now; it ends an open redaction run (R262, R271). -/
def payTap (m : Mach) (d s p : Nat) : Mach :=
  let n := (srcOf m d s p).tapLost
  if n = 0 || decide (31 ≤ (tapQueue m d p).length) then m
  else
    let m := endRedaction (updSrc m d s p (fun r => { r with tapLost := 0 })) d s p
    putRecord m d s p (repNow m d) (.overrun n)

/-- The Station takes the oldest record of a Tap's queue. -/
def popTap (m : Mach) (d p : Nat) : Mach :=
  match tapQueue m d p with
  | [] => m
  | x :: r => stationTake (setQueue m d p r) d p x

/-- The Station takes every record of a Tap's queue (R251, R264). -/
def flushTap (m : Mach) (d p : Nat) : Mach := (tapQueue m d p).foldl (fun m _ => popTap m d p) m

/-- The Tap whose oldest queued record has the earliest stamp, the lowest Tap first. -/
def nextQueued (m : Mach) (d : Nat) : Option (Nat × TapRec) :=
  (stn m d).queues.foldl (fun acc e => match e.2.head?, acc with
    | none, _ => acc
    | some x, none => some (e.1, x)
    | some x, some b => if x.stamp < b.2.stamp ∨ (x.stamp = b.2.stamp ∧ e.1 < b.1) then some (e.1, x) else acc) none

/-- A Station takes records within a number of bytes, those with the earliest stamps first. -/
def acceptTaps (m : Mach) (d : Nat) : Nat → Nat → Mach
  | 0, _ => m
  | n + 1, room =>
    match nextQueued m d with
    | none => m
    | some (p, x) =>
      let size := (recordBytes (srcOf m d x.slot p) p x.stamp x.body).1.length
      if room < size then m else acceptTaps (payTap (popTap m d p) d x.slot p) d n (room - size)

/-- A Station that can write again writes the OVERRUN record that a source owes, stamped now, behind what the source had made (R259,
R271). -/
def payStation (m : Mach) (d s src : Nat) : Mach :=
  let n := (srcOf m d s src).lost
  if n = 0 || !(trS m d s).running || (openFrame m d s).isNone then m
  else
    let m := flushTap (endRedaction m d s src) d src
    let t := Nat.max (repNow m d) (srcOf m d s src).last
    let n := (srcOf m d s src).lost
    let m := updSrc m d s src (fun r => { r with lost := 0, last := t })
    stationTake m d src { slot := s, stamp := t, loose := sf m d R.STN_GTC_STAT_ALIGNED == 0, body := .overrun n }

/-- One clock of tracing on a Station, which accepts 16 GB/s: 64 bytes of records from the queues of its Taps, and the OVERRUN records
that it owes (R271; log entry 47). -/
def traceClock (m : Mach) (d : Nat) : Mach :=
  if (stn m d).queues.isEmpty && (stn m d).streams.isEmpty then m
  else
    let m := acceptTaps m d 22 64
    (List.range 8).foldl (fun m s =>
      if (trS m d s).running then
        ((trS m d s).srcs.filter (fun e => e.2.lost != 0)).foldl (fun m e => payStation m d s e.1) (flushBehind m d s)
      else m) m

/-! ### What a source makes (R252, R253, R262) -/

/-- A source that records before its Station has started the stream begins with the pending start (R275). -/
def beginSource (m : Mach) (d s src : Nat) : Mach :=
  match if (trS m d s).running then none else armTime m d 7 s with
  | none => m
  | some t => if (srcOf m d s src).started = t then m else updSrc m d s src (freshSrc t)

/-- A source makes a record: what it owes comes first (R258, R262, R271). -/
def makeRecord (m : Mach) (d s src t : Nat) (x : TraceRec) : Mach :=
  let m := endRedaction (beginSource m d s src) d s src
  putRecord (if src < 128 then payTap m d s src else m) d s src t x

/-- A suppressed transaction joins the source's redaction run. The run ends when COUNT reaches 2^32 − 1, and before a transaction that a
horizon divides from it (R262, R276). -/
def redactOne (m : Mach) (d s src t : Nat) : Mach :=
  let m := beginSource m d s src
  let t := Nat.max t (srcOf m d s src).last
  let m := match (srcOf m d s src).redact with
    | some (_, _, last) => if behindHorizon m d s t && !behindHorizon m d s last then endRedaction m d s src else m
    | none => m
  let (n, first) := match (srcOf m d s src).redact with
    | none => (1, t)
    | some (n, first, _) => (n + 1, first)
  let m := updSrc m d s src (fun r => { r with redact := some (n, first, t), last := t })
  if n = 2 ^ 32 - 1 then endRedaction m d s src else m

/-- A source makes a record stamped t, or with `none` a suppressed transaction, while its slot records (R275). -/
def recordNow (m : Mach) (d s src t : Nat) (x : Option TraceRec) : Mach :=
  if !records m d s t then m
  else match x with
    | some r => makeRecord m d s src t r
    | none => redactOne m d s src t

/-- Write every open redaction run of a stream on a die. -/
def endRedactions (m : Mach) (d s : Nat) : Mach :=
  ((trS m d s).srcs.map Prod.fst).foldl (fun m src => endRedaction m d s src) m

/-- The stream slot for which a Tap records: enabled, and recording at t on its die. -/
def tapStream (m : Mach) (d p t : Nat) : Option Nat :=
  let s := tf m d p R.TAP_TRC_CTL_SLOT
  if tf m d p R.TAP_TRC_CTL_EN = 1 ∧ records m d s t then some s else none

/-- A Tap makes a record that passes no filter: HALT, RESUME, WAKE or MARK (R253). -/
def tapRecord (m : Mach) (d p t : Nat) (x : TraceRec) : Mach :=
  match tapStream m d p t with
  | some s => recordNow m d s p t (some x)
  | none => m

/-- Before its core powers down, a Tap ends its redaction run, passes every pending record to the Station, and then writes SLEEP
(R262, R264). -/
def tapSleep (m : Mach) (d p : Nat) : Mach :=
  let m := match tapStream m d p (repNow m d) with
    | some s => endRedaction m d s p
    | none => m
  flushTap (tapRecord (flushTap m d p) d p (repNow m d) .sleep) d p

/-! ### Starts, horizons and stops (R275, R276) -/

/-- Begin recording of a stream on a die: every source owes a reason-1 SYNC and its sampler starts at 0, but for those that began with
this start already (R253, R258, R275). -/
def startOnDie (m : Mach) (d s t : Nat) : Mach :=
  let fresh (r : SrcRef) : SrcRef := if r.started = t then r else freshSrc t r
  let m := updTr m d s (fun x => { x with
    running := true, stopped := false, startT := t, horizon := none, behind := [], made := 0, lost := 0,
    srcs := (List.range 144).map (fun i => (i, fresh (Store.get { } x.srcs i))) })
  trcRegs (stopIfFull m d s) d s

/-- The horizon falls: redaction runs below it end (R262, R276). -/
def fallHorizon (m : Mach) (d s t : Nat) : Mach :=
  let below := (trS m d s).srcs.filter (fun e => e.2.redact.any (fun r => decide (r.2.2 < t)))
  updTr (below.foldl (fun m e => endRedaction m d s e.1) m) d s (fun x => { x with horizon := some t })

/-- Every source of a stream on a die has passed its horizon token: no queue holds a record stamped below the horizon (R276). -/
def tokensPassed (m : Mach) (d s h : Nat) : Bool :=
  (stn m d).queues.all (fun e => e.2.all (fun x => x.slot != s || decide (h ≤ x.stamp)))

/-- Close at a horizon: the Folio of the records below it and its frame close, and the records behind it follow (R276; log entry 14). -/
def closeHorizon (m : Mach) (d s : Nat) : Mach :=
  let m := closeFrame (closeFolio m d s true) d s
  let m := flushBehind (updTr m d s (fun x => { x with horizon := none })) d s
  trcRegs (stopIfFull m d s) d s

/-- The Station takes every queued record of a slot on its die. -/
def flushSlot (m : Mach) (d s : Nat) : Mach :=
  ((stn m d).queues.filter (fun e => e.2.any (fun x => x.slot == s))).foldl (fun m e => flushTap m d e.1) m

/-- Stop recording of a stream on a die: redaction runs are written and the open Folio and frame close (R275). -/
def haltOnDie (m : Mach) (d s : Nat) : Mach :=
  if !(trS m d s).running then m
  else
    let m := flushSlot (endRedactions m d s) d s
    let m := if (trS m d s).horizon.isSome then closeHorizon m d s else flushBehind m d s
    let m := closeFrame (closeFolio m d s true) d s
    trcRegs (updTr m d s (fun x => { x with running := false, horizon := none, behind := [] })) d s

/-- The Taps and endpoints of a die record no more for a slot. -/
def unTap (m : Mach) (d s : Nat) : Mach :=
  let m := ((List.range (tapsOf d)).filter (fun p => tf m d p R.TAP_TRC_CTL_EN == 1 && tf m d p R.TAP_TRC_CTL_SLOT == s)).foldl
    (fun m p => sput m d (tapBase p + 0xC00) 0) m
  ((List.range (portsOf d)).filter (fun p => sf m d R.STN_TRC_LINK_EN p == 1 && sf m d R.STN_TRC_LINK_SLOT p == s)).foldl
    (fun m p => sput m d (0x7200 + 8 * p) 0) m

/-- Free every frame and the state of a slot on a die, with what its Taps and endpoints are set to. -/
def freeStream (m : Mach) (d s : Nat) : Mach :=
  let m := (stn m d).queues.foldl (fun m e => setQueue m d e.1 (e.2.filter (fun x => x.slot != s))) m
  let m := updStn m d (fun x => { x with
    frames := x.frames.filter (fun e => match e.2 with
      | some f => f.slot != s
      | none => false),
    streams := Store.put { } x.streams s { },
    spill := x.spill.filter (fun e => e.2.slot != s) })
  trcRegs (unTap m d s) d s

end Sys2Proof.Machine
end

