-- ==== Sys2Proof/Machine/Waypoint.lean ====
section
/-! DEFINITION. Waypoints at dispatch: leads, the meaning of 0, and arms for the Stations of a scope (R90-R93, R521). -/

namespace Sys2Proof.Machine

/-- The minimum lead of a scope kind in ticks (Table 3.2). -/
def leadOf (kind : Nat) : Nat := if kind < 4 then 2000 else if kind < 6 then 10000 else 100000

/-- The earliest legal Waypoint (R91): the smallest multiple of 16 that is at least G + L. -/
def earliest (m : Mach) (lead : Nat) : Nat := roundUp (gtcNow m + lead) 16

/-- T beyond G + 2^40 (R92). -/
def tooFar (m : Mach) (t : Nat) : Bool := decide (gtcNow m + 2 ^ 40 < t)

/-- T non-zero and below G + L (R92). -/
def tooEarly (m : Mach) (lead t : Nat) : Bool := t != 0 && decide (t < gtcNow m + lead)

/-- The Waypoint that a field asks for: 0 means the earliest legal one (R91). -/
def resolveT (m : Mach) (lead t : Nat) : Nat := if t = 0 then earliest m lead else t

/-- The current epoch of a scope as a reply gives it: zero for kinds 5 and 6. -/
def scopeEpoch (m : Mach) (s : Scope) : Nat := if s.kind ≤ 4 then epochOf m s.part else 0

/-- The Unit Path or job id that an ARM carries for a scope (R525). -/
def armUnit (s : Scope) : W32 := if s.kind ≤ 3 ∨ s.kind = 6 then s.unit else 0

/-- Arm an action for a scope at T: one arm to every Station of the scope, recorded with the command (R93, R525). -/
def armScope (m : Mach) (cmd : Nat) (s : Scope) (t action flags p0 p1 : Nat) : Mach :=
  let a : Arm := { armId := 0, t := t, stitch := false, action := action, kind := s.kind, flags := flags,
                   unit := armUnit s, parts := s.parts, p0 := p0, p1 := p1 }
  let (id, m) := sendArm m cmd a (scopeDies m s)
  updCmd m cmd (fun c => { c with arms := c.arms ++ [id] })

/-- A Station is silent for a command: it does not answer, or is one of `quiet`, which were found silent since the dispatch (R520). -/
def silentFor (m : Mach) (quiet d : Nat) : Bool := !stnAnswers m d || nbit quiet d

/-- The members of a scope on silent Stations, which count as DARK (R114, R520). -/
def silentMembers (m : Mach) (s : Scope) (quiet : Nat) : Nat :=
  ((List.range 64).filter (fun d => silentFor m quiet d && !dieHidden m d)).foldl
    (fun n d => n + (scopeEngines m d s.kind s.unit s.parts).length) 0

/-- A silent Station holds a unit of the scope (R520, R521): for kinds 0-3 it is the scope's own Station; for wider
scopes a die with a member. -/
def scopeSilent (m : Mach) (s : Scope) (quiet : Nat) : Bool :=
  if s.kind < 4 then silentFor m quiet (upDie s.unit)
  else (List.range 64).any (fun d => silentFor m quiet d && !dieHidden m d && (
    !(scopeEngines m d s.kind s.unit s.parts).isEmpty))

/-- A new command record for an issuer, with its identifier: the command is in progress from its dispatch on (R338; log entry 95, DEDUCED). -/
def newCmd (m : Mach) (i : Issuer) (op : Nat) (cookie : W64) (body : List W32) (s : Scope) : Cmd × Mach :=
  let (id, m) := freshId m
  let c : Cmd := { id := id, origin := i.origin, sid := i.sess, port := i.port, op := op, cookie := cookie,
                   body := body, scope := s, start := gtcNow m }
  (c, { m with cmds := m.cmds ++ [c] })

/-- No scope: a command that names none. -/
def noScope : Scope := { kind := 7, part := 0, unit := 0, epoch := 0, parts := 0 }

end Sys2Proof.Machine
end

