-- ==== Sys2Proof/Machine/Finish.lean ====
section
/-! DEFINITION. How a command completes, by its origin; how a Session ends and what it releases; orphaned halts; how a
Routine's run ends (R134, R248, R303, R304, R331, R341, R443). -/

namespace Sys2Proof.Machine

/-! ### Replies -/

/-- The handle that a Session's records carry. -/
def handleOf (m : Mach) (sid : Nat) : W32 :=
  match sessOf m sid with
  | some s => s.handle
  | none => 0

/-- A completion record of the serving hub (Table 10.7). -/
def completion (m : Mach) (handle : W32) (op : Nat) (cookie : W64) (status : Nat) (detail : List W32) : List W32 :=
  mkRecord status handle cookie (gtcNow m) 0 op false (timeVoid m) (hubPath m) detail

/-- A control token (Table 13.4) with its CRC (R437). -/
def tokenBytes (m : Mach) (ttype origin hops : Nat) (job : W32) (seq t : Nat) (payload : List Byte) : List Byte :=
  let b := [BitVec.ofNat 8 ttype, BitVec.ofNat 8 (b2n (timeVoid m)), BitVec.ofNat 8 origin, BitVec.ofNat 8 hops] ++
    leBytes 4 job.toNat ++ leBytes 4 seq ++ leBytes 8 t ++ leBytes 2 payload.length ++ zeros 10 ++ payload
  b ++ leBytes 4 (crc32c b)

/-- The enabled external ports whose peer belongs to the job fabric, as die and port (R438; log entry 15). -/
def fabricPorts (m : Mach) : List (Nat × Nat) :=
  match m.bup.env with
  | none => []
  | some e => ((List.range 32).filter (fun i => nbit e.jobPorts i)).filterMap (fun i =>
      let d := 96 + i / 8
      let p := 8 + i % 8
      if !ownPortHidden m d p && sf m d R.STN_BUP_PORT_UP p == 1 then some (d, p) else none)

/-- Originate a token: it takes the next number and leaves on every port of the job fabric (R438). -/
def originate (m : Mach) (ttype : Nat) (job : W32) (t : Nat) (payload : List Byte) : Nat × Mach :=
  let seq := m.rcv.nextSeq
  let b := tokenBytes m ttype (pkgNum m) 0 job seq t payload
  let m := { m with rcv := { m.rcv with nextSeq := seq + 1, seen := m.rcv.seen ++ [(pkgNum m, seq)] } }
  (seq, incHf (emits m ((fabricPorts m).map (fun x => .token x.1 x.2 b))) R.RCV_JOB_SENT)

/-- Return a RESULT token over the port by which the matching JOB_CMD arrived, with that command's Waypoint as its T (R438,
R443). -/
def returnResult (m : Mach) (job : W32) (t d p : Nat) (rc : List W32) : Mach :=
  let n := m.rcv.nextSeq
  let b := tokenBytes m 3 (pkgNum m) 0 job n t (wordsBytes rc)
  incHf (emit { m with rcv := { m.rcv with nextSeq := n + 1, seen := m.rcv.seen ++ [(pkgNum m, n)] } } (.token d p b)) R.RCV_JOB_SENT

/-- Give the result of a command to its origin: a record to its Session, the step's result to a run, the end of a halt
to its trigger, or a RESULT token (R303, R309, R341, R443). -/
def reply (m : Mach) (o : Origin) (op : Nat) (cookie : W64) (status : Nat) (detail : List W32) : Mach :=
  match o with
  | .session sid => postRecord m sid (completion m (handleOf m sid) op cookie status detail) false
  | .run i => { m with rtn := { m.rtn with runs := m.rtn.runs.map (fun r =>
      if r.index == i then { r with result := some (status, detail), busyStep := false } else r) } }
  | .trigger n id =>
    match Store.get none m.rtn.triggers n with
    | some t =>
      let t := { t with inHalt := if t.inHalt = some id then none else t.inHalt }
      { m with rtn := { m.rtn with triggers := Store.put none m.rtn.triggers n (some t) } }
    | none => m
  | .firmware => m
  | .fabric job t d p => returnResult m job t d p (completion m 0 op cookie status detail)

/-! ### Orphaned halts -/

/-- Partition of a core now: 256 for the free pool. -/
def partNow (m : Mach) (d i : Nat) : Nat :=
  if sf m d R.STN_BIND_BOUND i = 1 then sf m d R.STN_BIND_PART i else 256

/-- A partition as an event's detail word: the free pool is all ones. -/
def partWord (p : Nat) : Nat := if 256 ≤ p then 0xFFFFFFFF else p

/-- A partition as a map. -/
def partBit (p : Nat) : PartMap := if 256 ≤ p then 0 else 1 <<< p

/-- The engine is in a halted state (R101). -/
def isHalted (st : Nat) : Bool := st == 2 || st == 3 || st == 6

/-- Orphan the halted engines of a list (keys), one event and one orphaned halt for each pair of partitions (R134). -/
def orphanEngines (m : Mach) (keys : List Nat) : Mach :=
  let pairOf (k : Nat) : Nat × Nat := (partNow m (k / 512) (k % 512 / 4), (eng m (k / 512) (k % 512 / 4) (k % 4)).haltPart)
  let pairs := (keys.map pairOf).dedup
  let m1 := keys.foldl (fun m k => updEng m (k / 512) (k % 512 / 4) (k % 4) (fun e => { e with haltSess := 0 })) m
  pairs.foldl (fun m pr =>
    let ks := keys.filter (fun k => pairOf k == pr)
    let o : Orphan := { now := pr.1, was := pr.2, cores := (ks.map (fun k => k / 512 * 128 + k % 512 / 4)).dedup,
                        due := gtcNow m + hf m R.RUN_ORPHAN_AFTER_MS * 1000000 }
    let m := { m with run := { m.run with orphans := m.run.orphans ++ [o] } }
    let m := incHf m R.RUN_EVT_CNT_ORPHANS
    raiseEv m { code := EvCode.orphanHalt, source := hubPath m, stamp := gtcNow m,
                detail := w1 (partWord pr.1) ++ w1 (partWord pr.2) ++ w1 ks.length,
                parts := partBit pr.1 ||| partBit pr.2, tray := true }) m1

/-- The halted engines that a Session halted last. -/
def haltedBy (m : Mach) (sid : Nat) : List Nat :=
  (m.engs.filter (fun x => x.2.haltSess == sid &&
    isHalted (engState m (x.1 / 512) (x.1 % 512 / 4) (x.1 % 4)))).map Prod.fst

/-- A Session resumes or halts units: an orphaned halt with one of these cores ends, and no policy is applied (R134). -/
def endOrphans (m : Mach) (cores : List Nat) : Mach :=
  { m with run := { m.run with orphans := m.run.orphans.filter (fun o => !(o.cores.any (fun c => cores.contains c))) } }

/-! ### Streams and dumps of a Session -/

/-- The stream of a slot. -/
def stream (m : Mach) (s : Nat) : Option Stream := Store.get none m.trc.slots s

/-- Replace a stream. -/
def setStream (m : Mach) (s : Nat) (x : Option Stream) : Mach :=
  { m with trc := { m.trc with slots := Store.put none m.trc.slots s x } }

/-- Change a stream. -/
def updStream (m : Mach) (s : Nat) (g : Stream → Stream) : Mach :=
  match stream m s with
  | some x => setStream m s (some (g x))
  | none => m

/-- Free a stream slot: its frames on every die, the Taps and endpoints that record for it, and the slot (R248). -/
def freeSlot (m : Mach) (s : Nat) : Mach :=
  let m := (List.range 100).foldl (fun m d =>
    if (stn m d).streams.any (fun e => e.1 == s) || (slotFrames m d s) != [] then freeStream m d s else m) m
  setStream m s none

/-- Stop and free the streams of a Session: a running one at the earliest legal Waypoint, any other now, a pending start being
cancelled (R248). -/
def releaseStreams (m : Mach) (sid : Nat) : Mach :=
  (List.range 8).foldl (fun m s =>
    match stream m s with
    | none => m
    | some x =>
      if x.sid != sid then m
      else if x.state = 2 then freeSlot (cancelArm m x.arm) s
      else if x.state = 3 then
        let m := setStream m s (some { x with releaseAtStop := true })
        let a : Arm := { armId := 0, t := earliest m (leadOf x.scope.kind), stitch := false, action := 8, kind := x.scope.kind,
                         flags := 0, unit := armUnit x.scope, parts := x.scope.parts, p0 := s, p1 := 0 }
        (sendArm m 0 a x.dies).2
      else freeSlot m s) m

/-- A dump slot. -/
def dump (m : Mach) (s : Nat) : Option Dump := Store.get none m.sth.slots s

/-- Replace a dump slot. -/
def setDump (m : Mach) (s : Nat) (x : Option Dump) : Mach :=
  { m with sth := { m.sth with slots := Store.put none m.sth.slots s x } }

/-- Change a dump slot. -/
def updDump (m : Mach) (s : Nat) (g : Dump → Dump) : Mach :=
  match dump m s with
  | some x => setDump m s (some (g x))
  | none => m

/-- Free the reservations that a Session's Dumps hold without a Stitch (R175). -/
def releaseReservations (m : Mach) (sid : Nat) : Mach :=
  (List.range 8).foldl (fun m s =>
    match dump m s with
    | some x => if x.sid == sid && x.state == 1 then setDump m s none else m
    | none => m) m

/-! ### Routines of a Session -/

/-- A Routine by handle and Session. -/
def routineOf (m : Mach) (h : W32) (sid : Nat) : Option Routine :=
  m.rtn.routines.find? (fun r => r.handle == h && r.sid == sid)

/-- Change a Routine. -/
def updRoutine (m : Mach) (h : W32) (sid : Nat) (g : Routine → Routine) : Mach :=
  { m with rtn := { m.rtn with routines := m.rtn.routines.map (fun r => if r.handle == h && r.sid == sid then g r else r) } }

/-- Bytes of a Routine's scratch. -/
def scratchRead (r : Routine) (a n : Nat) : List Byte := memRead r.scratch a n

/-- Write a Routine's scratch. -/
def scratchWrite (r : Routine) (a : Nat) (l : List Byte) : Routine := { r with scratch := memWrite r.scratch a l }

/-- A trigger. -/
def trigger (m : Mach) (n : Nat) : Option Trigger := Store.get none m.rtn.triggers n

/-- Replace a trigger. -/
def setTrigger (m : Mach) (n : Nat) (t : Option Trigger) : Mach :=
  { m with rtn := { m.rtn with triggers := Store.put none m.rtn.triggers n t } }

/-- A run by index. -/
def runOf (m : Mach) (i : Nat) : Option Run := m.rtn.runs.find? (fun r => r.index == i)

/-- Change a run. -/
def updRun (m : Mach) (i : Nat) (g : Run → Run) : Mach :=
  { m with rtn := { m.rtn with runs := m.rtn.runs.map (fun r => if r.index == i then g r else r) } }

/-- The cookie of what started a run: its RUN_ROUTINE or its trigger's ARM_TRIGGER. -/
def runCookie (m : Mach) (r : Run) : W64 :=
  match r.cmd, r.trigger with
  | some id, _ => ((findCmd m id).map (fun c => c.cookie)).getD 0
  | none, some n => ((trigger m n).map (fun t => t.cookie)).getD 0
  | none, none => 0

/-- A run ends: it leaves the sequencer, its trigger's action is over, it is counted, and ROUTINE_END goes to the
loading Session (R303). -/
def endRun (m : Mach) (r : Run) (status : Nat) : Mach :=
  let last := match routineOf m r.routine r.sid with
    | some x => bytesAt (scratchRead x 2 2) 0 2
    | none => 0
  let cookie := runCookie m r
  let m := { m with rtn := { m.rtn with runs := m.rtn.runs.filter (fun x => x.index != r.index) } }
  let m := match r.trigger with
    | some n =>
      match trigger m n with
      | some t => if t.inRun == some r.index then setTrigger m n (some { t with inRun := none }) else m
      | none => m
    | none => m
  let m := incHf m R.RTN_CNT_RUNS
  let m := if status = St.stepBudgetExceeded then incHf m R.RTN_CNT_BUDGET else m
  raiseEv m { code := EvCode.routineEnd, source := hubPath m, stamp := gtcNow m,
              detail := w1 status ++ w1 r.steps ++ w1 last ++ [r.source], named := [r.sid], wide := false, cookie := cookie }

/-- A run stands at a step boundary: nothing of it executes. -/
def atBoundary (r : Run) : Bool := !r.busyStep && r.waiting.isNone

/-! ### The end of a Session (R331) -/

/-- Write STATE, SQ_CONS and EQ_PROD of a host Session into its hub area (Table 10.5). -/
def writeState (m : Mach) (s : Session) (state : Nat) : Mach :=
  if s.port = .host then
    let mem := memWrite m.hostMem (sessDesc m s.handle + 64) (leBytes 4 state ++ leBytes 4 s.sqCons ++ leBytes 4 s.eqProd)
    { m with hostMem := mem }
  else m

/-- The Session's records are all written: STATE becomes 2, and the Session is gone. -/
def closeIfFlushed (m : Mach) (sid : Nat) : Mach :=
  match sessOf m sid with
  | none => m
  | some s =>
    if s.ending = 5 && s.held.isEmpty && s.lost == 0 then
      updSess (writeState m s 2) sid (fun x => { x with closed := true, open_ := false, slot := none })
    else m

/-- The last record of an ending Session: the CLOSE_SESSION completion, SESSION_TIMEOUT or SESSION_LOST (R331). -/
def lastRecord (m : Mach) (s : Session) : Mach :=
  let ev (code : Nat) : List W32 :=
    mkRecord 0 s.handle 0 (gtcNow m) 0 code true (timeVoid m) (hubPath m) []
  let m := match s.ending with
    | 1 => postRecord m s.sid (completion m s.handle 0x0102 s.endCookie St.ok []) false
    | 2 => postRecord m s.sid (ev EvCode.sessionTimeout) false
    | 3 => postRecord m s.sid (ev EvCode.sessionLost) false
    | _ => m
  closeIfFlushed (updSess m s.sid (fun x => { x with ending := 5 })) s.sid

/-- Release the objects of an ending Session once its runs have ended: orphaned halts, streams, reservations, Routines
(R134, R175, R248, R304). -/
def releaseObjects (m : Mach) (sid : Nat) : Mach :=
  let m := orphanEngines m (haltedBy m sid)
  let m := releaseStreams m sid
  let m := releaseReservations m sid
  { m with rtn := { m.rtn with routines := m.rtn.routines.filter (fun r => r.sid != sid) } }

/-- Triggers of an ending Session are disarmed and its runs end at their next step boundary; those that stand at one end
now (R304). -/
def stopRuns (m : Mach) (sid : Nat) : Mach :=
  let trigs := m.rtn.triggers.filter (fun e => match e.2 with
    | some t => t.sid != sid
    | none => false)
  let runs := m.rtn.runs.map (fun (r : Run) => if r.sid == sid then { r with stop := true } else r)
  let m := { m with rtn := { m.rtn with triggers := trigs, runs := runs } }
  (m.rtn.runs.filter (fun r => r.sid == sid && atBoundary r && r.result.isNone)).foldl (fun m r => endRun m r St.aborted) m

/-- Packets accepted for a detached port Session still wait (R371). -/
def lanePackets (m : Mach) (s : Session) : Bool :=
  s.ending == 4 && (match sessOf m (laneSid s.sid) with
    | some l => l.ready.any (fun r => r.2.session == s.handle)
    | none => false)

/-- An ending Session whose commands have completed releases its objects and writes its last record; it waits while a
command or a dispatched step of its Routines executes. -/
def endCheck (m : Mach) (sid : Nat) : Mach :=
  match sessOf m sid with
  | none => m
  | some s =>
    if s.ending = 0 || s.ending == 5 || executing m sid || lanePackets m s then m
    else
      let m := stopRuns m sid
      if m.rtn.runs.any (fun r => r.sid == sid) then m
      else lastRecord (releaseObjects m sid) s

/-- A Session begins to end: no more of its ring is read (R331). -/
def endSession (m : Mach) (sid cause : Nat) (cookie : W64) : Mach :=
  match sessOf m sid with
  | none => m
  | some s =>
    if s.ending != 0 then m
    else
      let m := if cause = 4 then m else updSess m (laneSid sid) (fun x => { x with ready := [] })
      endCheck (updSess m sid (fun x => { x with ending := cause, endCookie := cookie })) sid

/-! ### Reading packets (R333-R338) -/

/-- The opcodes of Table 10.8. -/
def opcodes : List Nat := [
  0x0101, 0x0102, 0x0103, 0x0104, 0x0105, 0x0201, 0x0202, 0x0203, 0x0204, 0x0205, 0x0206, 0x0207, 0x0208, 0x0209,
  0x0301, 0x0302, 0x0303, 0x0304, 0x0305, 0x0306, 0x0401, 0x0402, 0x0501, 0x0502, 0x0503, 0x0504, 0x0601, 0x0602,
  0x0603, 0x0604, 0x0701, 0x0702, 0x0703, 0x0704, 0x0705, 0x0801, 0x0802, 0x0803, 0x0804, 0x0805, 0x0806, 0x0901,
  0x0902, 0x0903, 0x0904, 0x0A01, 0x0A02, 0x0A03, 0x0A04, 0x0A05, 0x0B01, 0x0B02]

/-- Rows 1 to 5 of Table 10.6 for a packet that begins with these words: `room` tells whether its length agrees with what
carries it, and `handles` whether word 1 is the handle expected. Status 0 when none applies. -/
def packetCheck (ws : List W32) (room : Nat → Bool) (handles : W32 → Bool) : Nat :=
  let len := wfld (wAt ws 0) 0 12
  firstStatus [
    (decide (len < 4) || len == 0xFFF, St.malformed),
    (wfld (wAt ws 0) 12 4 != 1, St.malformed),
    (!room len, St.lengthMismatch),
    (!handles (wAt ws 1), St.staleHandle),
    (!opcodes.contains (wfld (wAt ws 0) 16 16), St.unknownOpcode)] St.ok

/-- The bytes of n submission slots from free-running index i (R333). -/
def ringRead (mem : Store Byte) (base slots i : Nat) : Nat → List Byte
  | 0 => []
  | n + 1 => memRead mem (base + 64 * (i % slots)) 64 ++ ringRead mem base slots (i + 1) n

/-- Read the next packet of a resident host Session (R336, R337): a packet that fails a check is answered, any other
becomes ready, and SQ_CONS passes its slots. -/
def readPacket (m : Mach) (s : Session) : Mach :=
  let avail := (s.sqProd + 2 ^ 32 - s.sqCons) % 2 ^ 32
  let head := bytesWords (ringRead m.hostMem s.sqBase s.sqSlots s.sqCons 1)
  let len := wfld (wAt head 0) 0 12
  let op := wfld (wAt head 0) 16 16
  let st := packetCheck head (fun l => decide (slotsFor l ≤ avail)) (fun h => h == s.handle)
  let cookie := BitVec.ofNat 64 (w64At head 2)
  let n := if st = St.malformed ∨ st = St.lengthMismatch then avail else slotsFor len
  let m := writeCons (updSess (incHf m R.IF_CNT_PACKETS) s.sid (fun x => { x with sqCons := (x.sqCons + n) % 2 ^ 32 })) s.sid
  if st = St.ok then
    let ws := (bytesWords (ringRead m.hostMem s.sqBase s.sqSlots s.sqCons n)).take len
    let p : Pkt := { port := .host, session := s.handle, cookie := cookie, body := ws.drop 4 }
    updSess m s.sid (fun x => { x with ready := [(op, p)] })
  else reply m (.session s.sid) op cookie st []

/-- What a lane can take next: a host Session reads its ring while it is resident and holds fewer than 16 records; on a
port, packets that failed their checks are answered in their turn (R338, R340; log entries 17 and 20). -/
def readLane (m : Mach) (lane : Nat) : Nat → Mach
  | 0 => m
  | n + 1 =>
    match sessOf m lane with
    | none => m
    | some s =>
      if laneExecuting m lane || s.ending != 0 then m
      else if lane < 2 ^ 32 then
        if s.ready.isEmpty && s.slot.isSome && decide (s.held.length < 16) && s.sqProd != s.sqCons then
          readLane (readPacket m s) lane n
        else m
      else
        match s.ready with
        | (k, p) :: r =>
          if k < 2 ^ 16 then m
          else
            let m := updSess m lane (fun x => { x with ready := r })
            let detail := if k / 2 ^ 16 = St.doesNotFit then w1 (p.body.length + 4 - 1022) else []
            readLane (reply m (.session (sidOf p.port p.session)) (k % 2 ^ 16) p.cookie (k / 2 ^ 16) detail) lane n
        | [] => m

/-- Read on after a command of this Session has completed. -/
def readNext (m : Mach) (sid : Nat) : Mach :=
  let lane := laneSid sid
  match sessOf m lane with
  | none => m
  | some s => readLane m lane (if lane < 2 ^ 32 then (s.sqProd + 2 ^ 32 - s.sqCons) % 2 ^ 32 else s.ready.length)

/-! ### Completion -/

/-- Answer an issuer at once, with nothing left executing. -/
def answer (m : Mach) (i : Issuer) (op : Nat) (cookie : W64) (status : Nat) (detail : List W32) : Mach :=
  reply m i.origin op cookie status detail

/-- An executing command completes: it leaves the hub, its origin gets the result, and an ending Session goes on. -/
def finish (m : Mach) (id status : Nat) (detail : List W32) : Mach :=
  match findCmd m id with
  | none => m
  | some c =>
    let m := reply (dropCmd m id) c.origin c.op c.cookie status detail
    match c.origin with
    | .session sid => readNext (endCheck m sid) sid
    | _ => m

/-- FENCE commands whose arms have all gone and whose earlier events are written complete (R339). -/
def fenceAll (m : Mach) : Mach :=
  (m.cmds.filter (fun c => c.op == 0x0103 && c.need == 0 &&
    !(m.run.arms.any (fun a => a.sid == some c.sid && a.cmd != c.id)))).foldl (fun m c => finish m c.id St.ok []) m

/-- A run ends, and with it the RUN_ROUTINE that started it (R303). -/
def finishRun (m : Mach) (r : Run) (status : Nat) : Mach :=
  let last := match routineOf m r.routine r.sid with
    | some x => bytesAt (scratchRead x 2 2) 0 2
    | none => 0
  let m := endRun m r status
  let m := match r.cmd with
    | some id => finish m id status (w1 status ++ w1 r.steps ++ w1 last ++ w2 r.lastT)
    | none => m
  endCheck m r.sid

end Sys2Proof.Machine
end

