-- ==== Sys2Proof/Machine/CutRelease.lean ====
section
/-! DEFINITION. Cut Buffers: their registers, and what a resume or a reset of their scope does with what they hold (R141,
R144-R150, R160). -/

namespace Sys2Proof.Machine

/-- The Cut Buffer of a port. -/
def cutBuf (m : Mach) (d p : Nat) : CutBuf := Store.get { } (stn m d).cuts p

/-- Its STATE: 0 IDLE, 1 RECORDING, 2 CLOSED, 3 INCOMPLETE, 4 HELD, 5 REPLAYING. -/
def cutState (m : Mach) (d p : Nat) : Nat := sf m d R.STN_CUT_STAT_STATE p

/-- The bytes of a record in its buffer (R171). -/
def cutRecSize (r : CutRec) : Nat := 16 + roundUp r.bytes.length 16

/-- The bytes that a buffer holds. -/
def cutFill (b : CutBuf) : Nat := sumBy cutRecSize b.recs

/-- The size of a Cut Buffer: 64 KiB for an internal endpoint, 1 MiB for an external one. -/
def cutSize (d p : Nat) : Nat := if (farEnd d p).isSome then 65536 else 1048576

/-- Replace the Cut Buffer of a port and its STATE, and show what it holds. -/
def setCut (m : Mach) (d p state : Nat) (b : CutBuf) : Mach :=
  let m := updStn m d (fun s => { s with cuts := Store.put { } s.cuts p b })
  let m := setSf m d R.STN_CUT_STAT_STATE state p
  let m := setSf m d R.STN_CUT_STAT_RECORDS (satN 24 b.recs.length) p
  setSf m d R.STN_CUT_STAT_FILL (cutFill b) p

/-- Empty a Cut Buffer: the endpoint runs again. -/
def cutClear (m : Mach) (d p : Nat) : Mach :=
  setSf (setSf (setCut m d p 0 { }) d R.STN_CUT_STAT_MARKER 0 p) d R.STN_CUT_STAT_FULL 0 p

/-- A reset of the scope discards what its Cut Buffers hold (R160). -/
def cutDiscard (m : Mach) (d p : Nat) : Mach := if cutState m d p = 0 then m else cutClear m d p

/-- A buffer records again for a Stitch that has not fired here yet (R150). -/
def cutReopened (m : Mach) (d p : Nat) : Bool :=
  cutState m d p == 1 && !((Store.get none (stn m d).caps (cutBuf m d p).slot).map (fun x => x.fired)).getD false

/-- A resume delivers the records, then the arrivals held behind the marker, and then grants credit again (R160). A buffer that was
reopened for a Stitch still to come holds records for the resume too. -/
def cutReplay (m : Mach) (d p : Nat) : Mach :=
  let st := cutState m d p
  if (2 ≤ st ∧ st ≤ 4) ∨ cutReopened m d p then
    let b := cutBuf m d p
    let m := cutClear m d p
    emits m [.deliver d p ((b.recs ++ b.behind).map (fun r => r.bytes)), .link d p 2]
  else m

/-- A die's internal endpoints are in a cut that has not been resumed. -/
def dieInCut (m : Mach) (d : Nat) : Bool :=
  (List.range (portsOf d)).any (fun p => (farEnd d p).isSome && cutState m d p != 0 && !cutReopened m d p)

/-- An anchor whose cut is over delivers what its external endpoints outside the scope have held (R143). -/
def cutLetGo (m : Mach) (d : Nat) : Mach :=
  if d < 96 || dieInCut m d then m
  else ((List.range (portsOf d)).filter (fun p => cutState m d p == 0 && !(cutBuf m d p).behind.isEmpty)).foldl (fun m p =>
    emits (setCut m d p 0 { }) [.deliver d p ((cutBuf m d p).behind.map (fun r => r.bytes)), .link d p 2]) m

/-- The scope of a release of kinds 4-6 resumes on a die: its cores leave the cuts that hold them, and its endpoints deliver
(R141, R160). -/
def cutResume (m : Mach) (d kind : Nat) (parts : PartMap) : Mach :=
  if kind < 4 then m
  else
    let free (i : Nat) : Bool := kind == 5 ||
      (sf m d R.STN_BIND_BOUND i == 1 && parts.getLsbD (sf m d R.STN_BIND_PART i))
    let cores := m.cores.filter (fun c => c.2.cutHeld && decide (c.1 / 128 = d) && free (c.1 % 128))
    let m1 := cores.foldl (fun m c => updCore m d (c.1 % 128) (fun x => { x with cutHeld := false })) m
    cutLetGo ((scopePorts m d kind parts).foldl (fun m p => cutReplay m d p) m1) d

end Sys2Proof.Machine
end

