-- ==== Sys2Proof/Machine/Halting.lean ====
section
/-! DEFINITION. How a halt reaches an engine, how an engine halts and is released, freeze classes, watchdog entries and
halt flags (R101-R126, R420-R422). -/

namespace Sys2Proof.Machine

/-! ### Watchdog entries (R126, R420-R422) -/

/-- A watchdog entry of a Station: 4 × Tap + engine. -/
def wdt (m : Mach) (d k : Nat) : Wdt := Store.get { } (stn m d).wdts k

/-- Replace a watchdog entry. -/
def setWdt (m : Mach) (d k : Nat) (x : Wdt) : Mach :=
  updStn m d (fun s => { s with wdts := Store.put { } s.wdts k x })

/-- The count that is left now: one less at each multiple of 1,000 that the replica has crossed (R420). -/
def wdtLeft (m : Mach) (d : Nat) (x : Wdt) : Nat :=
  match x.since with
  | some t => x.remain - (repNow m d / 1000 - t / 1000)
  | none => x.remain

/-- The entry may count in this engine state (R420): RUNNING, HALT_PENDING or STEPPING, or halted with class 2 at RUN (R126). -/
def wdtRuns (st : Nat) (frozen : Bool) : Bool := st == 0 || st == 1 || st == 4 || (isHalted st && !frozen)

/-- The freeze settings that apply to a core: a halted core keeps those with which it halted until it resumes (R124). -/
def frzSet (m : Mach) (d p : Nat) : Nat := (core_ m d p).frzHeld.getD (tf m d p R.TAP_FRZ_SET)

/-- Bring an entry into line with its engine: it counts, holds its period while idle, or pauses; a release adds the
grace, up to the entry's period (R126; log entry 16). -/
def wdtSync (m : Mach) (d p e : Nat) (released : Bool) : Mach :=
  let k := 4 * p + e
  let x := wdt m d k
  if x.period = 0 ∨ x.expired then m
  else
    let st := engState m d p e
    let frozen := nbit (frzSet m d p) 2
    let left := wdtLeft m d x
    let left := if released && x.paused then Nat.min (left + hf m R.RUN_CTL_WDT_GRACE_US) x.period else left
    if !(eng m d p e).work && (st == 0 || st == 1 || st == 4) then
      setWdt m d k { x with remain := x.period, since := none, paused := false }
    else if wdtRuns st frozen then
      setWdt m d k { x with remain := left, since := some (repNow m d), paused := false }
    else setWdt m d k { x with remain := left, since := none, paused := isHalted st }

/-- A completed command-list entry reloads the watchdog entry (R420). -/
def wdtReload (m : Mach) (d p e : Nat) : Mach :=
  let k := 4 * p + e
  let x := wdt m d k
  if x.period = 0 ∨ x.expired then m
  else wdtSync (setWdt m d k { x with remain := x.period, since := x.since.map (fun _ => repNow m d) }) d p e false

/-! ### Halt flags (R113) -/

/-- The halt flag of a partition is set on a Station. -/
def partFlag (m : Mach) (d part : Nat) : Bool := nbit (sf m d R.STN_RUN_PHALT_PHALT (part / 64)) (part % 64)

/-- A halt flag of this Station covers the partition. -/
def covered (m : Mach) (d part : Nat) : Bool :=
  partFlag m d part || sf m d R.STN_RUN_CTL_PKG_HALT == 1 ||
  (sf m d R.STN_RUN_CTL_JOB_HALT == 1 && m.run.jobHaltParts.getLsbD part)

/-- A core of the free pool is covered by the package flag alone. -/
def coreCovered (m : Mach) (d i : Nat) : Bool :=
  if sf m d R.STN_BIND_BOUND i = 1 then covered m d (sf m d R.STN_BIND_PART i) else sf m d R.STN_RUN_CTL_PKG_HALT == 1

/-- Set or clear a partition's flag on a Station. -/
def setPartFlag (m : Mach) (d part : Nat) (v : Bool) : Mach :=
  let x := sf m d R.STN_RUN_PHALT_PHALT (part / 64)
  setSf m d R.STN_RUN_PHALT_PHALT (if v then setBit x (part % 64) else clrBit x (part % 64)) (part / 64)

/-! ### Freeze (R124, R125, R141) -/

/-- A Stitch holds classes 1 and 3 of this core from its cut point until the scope resumes (R141). -/
def cutHolds (m : Mach) (d i : Nat) : Bool := (core_ m d i).cutHeld

/-- Assert or release class 3 of a core as the halt flags and a cut require (R125, R141). -/
def class3Sync (m : Mach) (d i : Nat) : Mach :=
  let a := tf m d i R.TAP_FRZ_ASSERTED
  let on := (coreCovered m d i && nbit (frzSet m d i) 3) || cutHolds m d i
  setTf m d i R.TAP_FRZ_ASSERTED (if on then setBit a 3 else clrBit a 3)

/-- Class 3 of every core of a die after a flag changed. -/
def class3All (m : Mach) (d : Nat) : Mach :=
  if 64 ≤ d then m else (List.range 128).foldl (fun m i => class3Sync m d i) m

/-- Every engine of a core is in a halted state. -/
def coreHalted (m : Mach) (d p : Nat) : Bool := (List.range 4).all (fun e => isHalted (engState m d p e))

/-- After an engine of a core changed state: HALT_ON_WAKE, LOCK_HELD and the freeze classes that the core's halt asserts
(R125). -/
def coreSync (m : Mach) (d p : Nat) : Mach :=
  let m := setTf m d p R.TAP_RUN_STATE_HALT_ON_WAKE (b2n ((List.range 4).any (fun e => engState m d p e == 6)))
  let m := setTf m d p R.TAP_RUN_STATE_LOCK_HELD (b2n ((List.range 4).any (fun e =>
    (engState m d p e == 2 || engState m d p e == 3) && (eng m d p e).lock)))
  let set := frzSet m d p
  let was := tf m d p R.TAP_FRZ_ASSERTED
  let a := was ||| (if (List.range 4).any (fun e => isHalted (engState m d p e)) then set &&& 4 else 0)
  if coreHalted m d p then setTf m d p R.TAP_FRZ_ASSERTED (a ||| (set &&& 0x13))
  else setTf m d p R.TAP_FRZ_ASSERTED a

/-- The classes that a release takes away before any engine of the core executes (R115): all but class 3 under a flag and the
classes that a cut still holds (R141). -/
def unfreeze (m : Mach) (d p : Nat) : Mach :=
  class3Sync (setTf (updCore m d p (fun c => { c with frzHeld := none })) d p R.TAP_FRZ_ASSERTED
    (if cutHolds m d p then 2 else 0)) d p

/-! ### Halts -/

/-- Who halts: the Session (0 for none) and, for a window step, the command whose own end this halt is. -/
structure Halter where
  sid : Nat
  window : Nat := 0
  deriving DecidableEq, Repr

/-- The step of an engine ends by another halt: the STEP completes with ABORTED (R118). -/
def stepAborted (m : Mach) (id : Nat) : Mach := if id = 0 then m else updCmd m id (fun c => { c with aborted := true })

/-- Latch the halt record of an engine (R112). -/
def latchRecord (m : Mach) (d p e reason clid entry stamp : Nat) (late lock mid : Bool) : Mach :=
  let m := setTf m d p R.TAP_RUN_HREC_T_STAMP stamp e
  let m := setTf m d p R.TAP_RUN_HREC_REASON reason e
  let m := setTf m d p R.TAP_RUN_HREC_LATE (b2n late) e
  let m := setTf m d p R.TAP_RUN_HREC_LOCK_HELD (b2n lock) e
  let m := setTf m d p R.TAP_RUN_HREC_MID_ENTRY (b2n mid) e
  let m := setTf m d p R.TAP_RUN_HREC_CLID clid e
  setTf m d p R.TAP_RUN_HREC_ENTRY entry e

/-- A halt reaches an engine (R102, R111, R118): a running or stepping one becomes HALT_PENDING (the end of its own window,
and a breakpoint or watchpoint, let its step end there; any other halt aborts the step), an asleep one
ASLEEP_HALTED with its record latched now (the next entry after the wake is the surroundings' to decide), any other
stays as it is; of two causes the lower reason stands (R112), and the halter is the first (log entry 87, DESIGN CHOICE). -/
def haltReach (m : Mach) (d p e reason : Nat) (any : Bool) (h : Halter) : Mach :=
  let x := eng m d p e
  let part := partNow m d p
  match engState m d p e with
  | 0 =>
    let m := updEng (setEngState m d p e 1) d p e (fun x => { x with
      reason := reason, anyBoundary := any, deferFrom := repNow m d, haltSess := h.sid, haltPart := part, lateOrigin := false })
    wdtSync m d p e false
  | 4 =>
    let own := (h.window != 0 && x.stepCmd == h.window) || decide (reason ≤ 2)
    let m := if own then m else stepAborted m x.stepCmd
    let m := updEng (setEngState m d p e 1) d p e (fun x => { x with
      reason := reason, anyBoundary := any, deferFrom := repNow m d, haltSess := h.sid, haltPart := part, stepMode := 0,
      stopNext := false, stepCmd := if own then x.stepCmd else 0 })
    wdtSync m d p e false
  | 1 => updEng m d p e (fun x => { x with reason := Nat.min x.reason reason, anyBoundary := x.anyBoundary || any })
  | 5 =>
    let (w, m) := draw m
    let m := latchRecord m d p e reason (fld w 0 16) (fld w 32 32) (repNow m d) false false false
    let m := updEng (setEngState m d p e 6) d p e (fun x => { x with haltSess := h.sid, haltPart := part, stepCmd := 0 })
    let m := tapRecord m d p (repNow m d) (.halt reason e)
    coreSync (wdtSync m d p e false) d p
  | _ => m

/-- The STEP of modes 0 and 1 is over when no engine steps for it and its arm has gone from every Station. -/
def stepEnded (m : Mach) (id : Nat) : Bool :=
  !(m.engs.any (fun x => x.2.stepCmd == id)) && !(m.run.arms.any (fun a => a.cmd == id))

/-- Members of a scope whose engines are DARK on Stations that answer, and those of silent Stations (R114, R520). -/
def darkMembers (m : Mach) (s : Scope) (quiet : Nat) : Nat :=
  ((scopeDies m s).filter (fun d => !silentFor m quiet d)).foldl (fun n d =>
    n + ((scopeEngines m d s.kind s.unit s.parts).filter (fun x => engState m d x.1 x.2 == 7)).length) 0 +
  silentMembers m s quiet

/-- A Waypoint command of kinds 0-4 found no member at T: its Stations acted in time and none resolved one (R131). One that acts at once
has no T, and what a silent Station holds is not known. -/
def foundNone (m : Mach) (c : Cmd) : Bool :=
  decide (c.scope.kind ≤ 4) && !c.imm && decide (0 < c.acted) && c.members == 0 && !c.late && !scopeSilent m c.scope c.quiet

/-- Complete a STEP (R118): its status, ending tick, entries retired, members not halted at T, DARK and STUCK. -/
def completeStep (m : Mach) (c : Cmd) : Mach :=
  let status := firstStatus [(foundNone m c, St.bindingMoved), (scopeSilent m c.scope c.quiet, St.unitDark),
    (c.late || c.limit, St.timeout), (c.aborted, St.aborted)] St.ok
  finish m c.id status (w2 (if wfld (wAt c.body 6) 0 2 = 2 then c.t + (wAt c.body 7).toNat else c.vals.headD c.t) ++ w1 c.retired ++ w1 c.notHalted ++ w1 (darkMembers m c.scope c.quiet) ++ w1 c.stuck)

/-- Complete a STEP of modes 0 and 1 when it is over. -/
def stepCheck (m : Mach) (id : Nat) : Mach :=
  match findCmd m id with
  | some c => if c.op == 0x0203 && wfld (wAt c.body 6) 0 2 != 2 && stepEnded m id then completeStep m c else m
  | none => m

/-- An engine halts at a boundary (R102, R109, R112, R118): state, record, trace, freeze, watchdog, and the STEP it ends. LATE is the
mark of a halt whose atomic bound has expired; the end of a step that returns to HALTED_LATE has none and is not counted (log entry 86, DESIGN
CHOICE). -/
def haltEngine (m : Mach) (d p e : Nat) (b : Boundary) (late : Bool) : Mach :=
  let x := eng m d p e
  let now := repNow m d
  let expired := late && decide (3 < x.reason)
  let m := latchRecord m d p e x.reason b.clid b.entry now expired b.lockHeld b.midEntry
  let m := updEng (setEngState m d p e (if late then 3 else 2)) d p e (fun x => { x with
    inSeq := b.inSequence, lock := b.lockHeld, lateOrigin := false, anyBoundary := false, stopNext := false, stepMode := 0,
    stepCmd := 0 })
  let m := if expired then incHf m R.RUN_EVT_CNT_HALT_LATE else m
  let m := tapRecord m d p now (.halt x.reason (e + 4 * b2n expired + 8 * b2n b.lockHeld))
  let m := coreSync (wdtSync m d p e false) d p
  if x.stepCmd = 0 then m
  else stepCheck (updCmd m x.stepCmd (fun c => { c with vals := [Nat.max (c.vals.headD 0) now] })) x.stepCmd

/-! ### Releases -/

/-- Release one halted engine to a state (R102, R115, R121): RUNNING or STEPPING, or ASLEEP from ASLEEP_HALTED. Entries
retired count anew, and the breakpoint before which it stands is passed. -/
def releaseEngine (m : Mach) (d p e dst : Nat) : Mach :=
  let st := engState m d p e
  let m := setEngState m d p e (if st = 6 then 5 else dst)
  let m := updEng m d p e (fun x => { x with lateOrigin := st == 3 && dst == 4, passBreak := true, haltSess := 0, reason := 0 })
  let m := setTf m d p R.TAP_RUN_RETIRED_RETIRED
    (fld (setFld (sget m d (tapBase p + 0x50)) (16 * e) 16 0) 0 64)
  wdtSync m d p e true

/-- The core powers down: its running engines sleep and the Tap records SLEEP (R102, R264). -/
def sleepCore (m : Mach) (d p : Nat) : Mach :=
  let m := tapSleep m d p
  let m := (List.range 4).foldl (fun m e => wdtSync (setEngState m d p e 5) d p e false) m
  updCore m d p (fun c => { c with powered := false, wakeReq := false, sleepReq := false })

/-- A power-down request that a halt has held back takes effect once every engine of the core runs again (R103). -/
def sleepIfOwed (m : Mach) (d p : Nat) : Mach :=
  if (core_ m d p).sleepReq && (List.range 4).all (fun e => engState m d p e == 0) then sleepCore m d p else m

/-- Release engines of one core: freeze classes first, then the engines, one RESUME record, and a power-down that was held back
(R103, R115, R263). -/
def releaseCore (m : Mach) (d p : Nat) (engines : List Nat) (dst : Nat) : Mach :=
  let es := engines.filter (fun e => isHalted (engState m d p e))
  if es.isEmpty then m
  else
    let m := unfreeze m d p
    let m := es.foldl (fun m e => releaseEngine m d p e dst) m
    let m := endOrphans m [d * 128 + p]
    sleepIfOwed (coreSync (tapRecord m d p (repNow m d) (.resume (bitmapOf es))) d p) d p

/-! ### Actions 1 to 4 of Table 3.3 -/

/-- The Session for which the hub runs a command (0 for none). -/
def cmdSid (m : Mach) (id : Nat) : Nat := ((findCmd m id).map (fun c => c.sid)).getD 0

/-- The command to which an arm belongs. -/
def armCmd (m : Mach) (armId : Nat) : Nat := ((m.run.arms.find? (fun a => a.armId == armId)).map (fun a => a.cmd)).getD 0

/-- That command while the hub still counts the arm on Station d: what a silent Station does is not counted (R520). -/
def armCounts (m : Mach) (armId d : Nat) : Nat :=
  ((m.run.arms.find? (fun a => a.armId == armId && nbit a.dies d)).map (fun a => a.cmd)).getD 0

/-- Count a Station on which a command's arm acted, with the members that it resolved. -/
def countActed (m : Mach) (armId d n : Nat) : Mach :=
  updCmd m (armCounts m armId d) (fun c => { c with members := c.members + n, acted := c.acted + 1 })

/-- The cookie of a command (0 for none). -/
def cmdCookie (m : Mach) (id : Nat) : W64 := ((findCmd m id).map (fun c => c.cookie)).getD 0

/-- Set the flags of a halt of kinds 4, 5 and 6 on a Station and note the command's Session and cookie (R113, R132, R341). -/
def setFlags (m : Mach) (d kind : Nat) (parts : PartMap) (cmd : Nat) : Mach :=
  let note (m : Mach) (ps : List Nat) : Mach :=
    { m with run := { m.run with
        flagSess := ps.foldl (fun f p => Store.put 0 f p (cmdSid m cmd)) m.run.flagSess,
        flagCookie := ps.foldl (fun f p => Store.put 0 f p (cmdCookie m cmd)) m.run.flagCookie } }
  match kind with
  | 4 => class3All ((partsList parts).foldl (fun m p => setPartFlag m d p true) (note m (partsList parts))) d
  | 5 => class3All (setSf (note m [256]) d R.STN_RUN_CTL_PKG_HALT 1) d
  | 6 =>
    let was := if (List.range 100).any (fun d => sf m d R.STN_RUN_CTL_JOB_HALT == 1) then m.run.jobHaltParts else 0
    class3All (setSf { note m [257] with run := { (note m [257]).run with jobHaltParts := was ||| parts } } d
           R.STN_RUN_CTL_JOB_HALT 1) d
  | _ => m

/-- Clear the flags that a release of this scope covers on a Station (R113): the job flag when the job holds every partition that the
flag covers. -/
def clearFlags (m : Mach) (d kind : Nat) (parts : PartMap) : Mach :=
  match kind with
  | 4 => class3All ((partsList parts).foldl (fun m p => setPartFlag m d p false) m) d
  | 5 =>
    let m := (List.range 4).foldl (fun m i => setSf m d R.STN_RUN_PHALT_PHALT 0 i) m
    class3All (setSf (setSf m d R.STN_RUN_CTL_PKG_HALT 0) d R.STN_RUN_CTL_JOB_HALT 0) d
  | 6 =>
    let m := (partsList parts).foldl (fun m p => setPartFlag m d p false) m
    class3All (if m.run.jobHaltParts &&& ~~~parts = 0 then setSf m d R.STN_RUN_CTL_JOB_HALT 0 else m) d
  | _ => m

/-- A halt acts on a Station (R108, R111, R113, R131): members by the shadow, flags, and wake requests under WAKE. -/
def actHalt (m : Mach) (d : Nat) (a : Arm) : Mach :=
  let cmd := armCmd m a.armId
  let es := scopeEngines m d a.kind a.unit a.parts
  let reason := nfld a.p0 0 4
  let h : Halter := { sid := cmdSid m cmd, window := if reason = 4 then cmd else 0 }
  let m := if reason = 4 then m else countActed m a.armId d es.length
  let m := setFlags m d a.kind a.parts cmd
  let m := endOrphans m ((es.map (fun x => d * 128 + x.1)).dedup)
  let m := es.foldl (fun m x => haltReach m d x.1 x.2 reason false h) m
  if nbit a.flags 0 then
    ((es.filter (fun x => engState m d x.1 x.2 == 6)).map Prod.fst).dedup.foldl (fun m p =>
      emit (updCore m d p (fun c => { c with wakeReq := true })) (.wake d p)) m
  else m

/-- The engines of a list, core by core. -/
def byCore (es : List (Nat × Nat)) : List (Nat × List Nat) :=
  (es.map Prod.fst).dedup.map (fun p => (p, (es.filter (fun x => x.1 == p)).map Prod.snd))

/-- A resume acts on a Station (R113, R115, R120): flags clear, members in a halted state are released. -/
def actResume (m : Mach) (d : Nat) (a : Arm) : Mach :=
  let es := scopeEngines m d a.kind a.unit a.parts
  let n := (es.filter (fun x => isHalted (engState m d x.1 x.2))).length
  let m := updCmd (countActed m a.armId d es.length) (armCounts m a.armId d) (fun c => { c with done := c.done + n })
  let m := cutResume (clearFlags m d a.kind a.parts) d a.kind a.parts
  (byCore es).foldl (fun m x => releaseCore m d x.1 x.2 0) m

/-- A step of modes 0 and 1 acts (R117, R118, R120): halted engines with work step one entry, after which the stepping Session is the
one that halted them last (R133); those in ASLEEP_HALTED, or in no halted state, count as not halted; an engine with an empty queue is done at
once. -/
def actStep (m : Mach) (d : Nat) (a : Arm) : Mach :=
  let cmd := armCmd m a.armId
  let es := scopeEngines m d a.kind a.unit a.parts
  let mode := nfld a.p0 0 2
  let able := es.filter (fun x => engState m d x.1 x.2 == 2 || engState m d x.1 x.2 == 3)
  let m := updCmd (countActed m a.armId d es.length) (armCounts m a.armId d)
    (fun c => { c with notHalted := c.notHalted + (es.length - able.length) })
  let go := able.filter (fun x => mode == 0 || (eng m d x.1 x.2).work)
  let untilT := repNow m d + nfld a.p0 16 16 * 1000
  let m := (byCore go).foldl (fun m x => releaseCore m d x.1 x.2 4) m
  go.foldl (fun m x => updEng m d x.1 x.2 (fun y => { y with
    stepMode := mode + 1, stepCmd := cmd, stepUntil := untilT, stopNext := false,
    haltSess := cmdSid m cmd, haltPart := partNow m d x.1 })) m

/-- The release of a window step acts (R113, R119, R120). -/
def actWindow (m : Mach) (d : Nat) (a : Arm) : Mach :=
  let cmd := armCmd m a.armId
  let es := scopeEngines m d a.kind a.unit a.parts
  let able := es.filter (fun x => isHalted (engState m d x.1 x.2))
  let m := updCmd (countActed m a.armId d es.length) (armCounts m a.armId d)
    (fun c => { c with notHalted := c.notHalted + (es.length - able.length) })
  let m := cutResume (clearFlags m d a.kind a.parts) d a.kind a.parts
  let m := (byCore able).foldl (fun m x => releaseCore m d x.1 x.2 4) m
  (able.filter (fun x => engState m d x.1 x.2 == 4)).foldl (fun m x =>
    updEng m d x.1 x.2 (fun y => { y with stepMode := 3, stepCmd := cmd })) m

/-- Complete a RESUME (R115). -/
def completeResume (m : Mach) (c : Cmd) : Mach :=
  let status := firstStatus [(foundNone m c, St.bindingMoved), (scopeSilent m c.scope c.quiet, St.unitDark),
    (c.late, St.timeout)] St.ok
  finish m c.id status (w2 c.t ++ w1 c.done ++ w1 (darkMembers m c.scope c.quiet))

/-- The arms of a RESUME or STEP have gone from every Station: the command completes (R115, R118, R119). -/
def armsGone (m : Mach) (id : Nat) : Mach :=
  match findCmd m id with
  | none => m
  | some c =>
    if m.run.arms.any (fun a => a.cmd == id) then m
    else if c.op = 0x0202 then completeResume m c
    else if c.op = 0x0203 then
      if wfld (wAt c.body 6) 0 2 = 2 then
        let m := { m with engs := m.engs.map (fun x => (x.1, if x.2.stepCmd == id then { x.2 with stepCmd := 0 } else x.2)) }
        completeStep m c
      else stepCheck m id
    else m

end Sys2Proof.Machine
end

