-- ==== Sys2Proof/Machine/HostRow.lean ====
section
/-! DEFINITION. How a host command is dispatched, on which ports, and the Buffers that commands name (R319, R320, R329,
R337, R338, R364, R366). -/

namespace Sys2Proof.Machine

/-- The issuer on whose behalf the hub runs a command. -/
def issuerOf (c : Cmd) : Issuer := { origin := c.origin, sess := c.sid, port := c.port }

/-- The opcodes that the scan port does not carry (Table 11.5). -/
def scanBarred : List Nat :=
  [0x0401, 0x0402, 0x0601, 0x0602, 0x0603, 0x0604, 0x0701, 0x0702, 0x0703, 0x0704, 0x0705, 0x0802]

/-- The opcodes that the sideband carries: those at OBSERVE and those under the tray authority (Table 11.5, R377). -/
def sideCarried : List Nat :=
  [0x0101, 0x0102, 0x0103, 0x0104, 0x0105, 0x0209, 0x0504, 0x0306, 0x0803, 0x0A04, 0x0B01, 0x0B02, 0x0901, 0x0902, 0x0904]

/-- The port carries this packet's opcode (Table 11.5); DUMP_PLAN on the sideband only without RESERVE. -/
def portCarries (p : Pkt) (op : Nat) : Bool :=
  match p.port with
  | .host => true
  | .firmware => true
  | .scan => !scanBarred.contains op
  | .sideband => sideCarried.contains op && !(op == 0x0306 && nbit (wAt p.body 5).toNat 0)

/-- The tray authority admits this command whatever the levels of its Session (R377). -/
def trayAdmits (i : Issuer) : Bool := i.port == .sideband

/-- Dispatch of a host command: the packet at the front of its lane, when no command of that lane executes and fewer than
16 records are held; then row 6 of Table 10.6, the port's opcodes, and the command's own checks and effect `f` (R329,
R337, R338, R366). Firmware's own commands need no Session (R90). An instance that has failed dispatches nothing
(R448). Any other packet is not the next one, and nothing
happens. -/
def hostRow (op : Nat) (p : Pkt) (s : State) (f : Mach → Issuer → Mach) : Host.Outcome State Fault Refusal :=
  let m := s.m
  if hubStopped m then .next s
  else if p.port = .firmware then .next { s with m := f m { origin := .firmware, sess := 0, port := .firmware } }
  else
    let sid := sidOf p.port p.session
    let lane := laneSid sid
    match sessOf m lane, sessOf m sid with
    | some l, some x =>
      if l.ready.head? = some (op, p) ∧ !laneExecuting m lane ∧ (x.ending = 0 ∨ x.ending = 4) ∧ x.held.length < 16 then
        let i : Issuer := { origin := .session sid, sess := sid, port := p.port }
        let m := updSess m lane (fun y => { y with ready := y.ready.drop 1 })
        let m :=
          if !x.open_ && !(op == 0x0101 || op == 0x0104 || op == 0x0105) then answer m i op p.cookie St.notAuthorised []
          else if !portCarries p op then answer m i op p.cookie St.malformed []
          else f m i
        .next { s with m := readNext (endCheck m sid) sid }
      else .next s
    | _, _ => .next s

/-- The commands that the hub Codec has to serve (R213). -/
def codecCmds (m : Mach) : List Cmd := m.cmds.filter (fun c => c.op == 0x0401 || c.op == 0x0402)

/-! ### Buffers -/

/-- The handle under which an issuer's objects name their owner. -/
def ownerHandle (m : Mach) (i : Issuer) : W32 := handleOf m i.sess

/-- The reply stream of a port (R364). -/
def replyHandle : W32 := 0xFFFFFFFF

/-- The bytes that a port's reply stream takes (R364). -/
def replyLength (port : Port) : Nat := if port = .scan then 16320 else 4032

/-- The issuer names objects by the port handles of R364. -/
def onPort (i : Issuer) : Bool := i.port == .scan || i.port == .sideband

/-- A Buffer handle that R364 makes malformed on a port, or a reply stream with an offset. -/
def bufMalformed (i : Issuer) (h : W32) (off : Nat) : Bool :=
  onPort i && ((h != 0 && h != replyHandle) || (h == replyHandle && off != 0))

/-- The run whose step has its result go to scratch (R290). -/
def scratchRun (m : Mach) (o : Origin) : Option Run :=
  match o with
  | .run n => (runOf m n).bind (fun r => if r.scratchTo then some r else none)
  | _ => none

/-- The Buffer that a handle names for an issuer; the scratch stands for it in a TO_SCRATCH step. -/
def bufGet (m : Mach) (i : Issuer) (h : W32) : Option Buffer :=
  if (scratchRun m i.origin).isSome then
    some { addr := 0, length := 65536, canRead := true, canWrite := true, owner := ownerHandle m i }
  else if onPort i then
    if h = replyHandle then
      some { addr := 0, length := replyLength i.port, canRead := false, canWrite := true, owner := ownerHandle m i }
    else none
  else bufferOf m h

/-- A handle that names no current Buffer (R317, R322). -/
def bufStale (m : Mach) (i : Issuer) (h : W32) : Bool := (bufGet m i h).isNone

/-- A current Buffer of another Session, or without the access that the command needs (R320). A stale handle fails
elsewhere. -/
def bufDenied (m : Mach) (i : Issuer) (h : W32) (read write : Bool) : Bool :=
  match bufGet m i h with
  | some b => (b.owner != ownerHandle m i && i.origin != .firmware) || (read && !b.canRead) || (write && !b.canWrite)
  | none => false

/-- The length of a Buffer, 0 for a stale handle. -/
def bufLen (m : Mach) (i : Issuer) (h : W32) : Nat := ((bufGet m i h).map (fun b => b.length)).getD 0

/-- Read bytes of a Buffer in host memory. -/
def bufRead (m : Mach) (h : W32) (off n : Nat) : List Byte :=
  match bufferOf m h with
  | some b => memRead m.hostMem (b.addr + off) n
  | none => []

/-- Write bytes of a command's result into its Buffer, or into scratch; a reply stream is written by the completion (R290,
R364). -/
def bufWrite (m : Mach) (i : Issuer) (h : W32) (off : Nat) (bytes : List Byte) : Mach :=
  match scratchRun m i.origin with
  | some r => updRoutine m r.routine r.sid (fun x => scratchWrite x off bytes)
  | none =>
    if onPort i then m
    else
      match bufferOf m h with
      | some b => { m with hostMem := memWrite m.hostMem (b.addr + off) bytes }
      | none => m

/-- What a reply stream adds to the detail of the completion (R364). -/
def replyData (i : Issuer) (h : W32) (bytes : List Byte) : List W32 :=
  if onPort i && h == replyHandle then bytesWords bytes else []

/-! ### Dumps (R323, R364) -/

/-- The dump slot that a port Dump handle names. -/
def portDumpSlot (h : W32) : Option Nat :=
  if 0xFFFFF000 ≤ h.toNat ∧ h.toNat < 0xFFFFF008 then some (h.toNat - 0xFFFFF000) else none

/-- What a Dump handle names for an issuer: whether it refers to an existing dump, and the slot, if it is bound to one;
none when the handle is stale (R322, R323, R364). -/
def dumpOf (m : Mach) (i : Issuer) (h : W32) : Option (Bool × Option Nat) :=
  if onPort i then
    match portDumpSlot h with
    | some s => if (dump m s).isSome then some (true, some s) else none
    | none => none
  else
    match dumpDescOf m h with
    | none => none
    | some d =>
      let find (g : Dump → Bool) : Option Nat := (List.range 8).find? (fun s => ((dump m s).map g).getD false)
      if d.bySlot then
        if ((dump m d.slot).map (fun x => x.state != 1 && x.t == d.t)).getD false then some (true, some d.slot) else none
      else if d.byJob then
        match find (fun x => x.kind == 6 && x.job == d.job && x.t == d.t && x.state != 1) with
        | some s => some (true, some s)
        | none => none
      else some (false, find (fun x => x.handle == h && decide (x.sid < 2 ^ 32)))

/-- The slot of a configured stream by its handle. -/
def streamSlot (m : Mach) (h : W32) (sid : Nat) : Option Nat :=
  (List.range 8).find? (fun s => ((stream m s).map (fun x => x.handle == h && x.sid == sid)).getD false)

end Sys2Proof.Machine
end

