-- ==== Sys2Proof/Machine/RunControl.lean ====
section
/-! DEFINITION. HALT, RESUME, STEP and HEADCOUNT, what an engine does at its boundaries, and sleep and wake of cores
(R99-R120, R131, R135, R136, R263, R264). -/

namespace Sys2Proof.Machine

/-! ### Waypoint commands: the checks at dispatch -/

/-- The checks that Waypoint commands share, in order (R92, R93, R105, R106): the status that refuses the command, or 0.
`slots` is how many Waypoint slots it takes on each Station; a command that a token brought has no lead to keep (R441). -/
def waypointStatus (m : Mach) (i : Issuer) (s : Scope) (level lead t slots : Nat) (bad busy : Bool) : Nat :=
  let fabric := match i.origin with
    | .fabric _ _ _ _ => true
    | _ => false
  firstStatus [
    (bad || tooFar m t, St.malformed), (scopeDark m s, St.unitDark), (!scopeLevel m i s level, St.notAuthorised),
    (scopeMoved m s, St.bindingMoved), (busy || !slotsFree m (scopeDies m s) slots, St.busy),
    (!fabric && tooEarly m lead t, St.timeout)] St.ok

/-- The failure detail of a Waypoint command: the earliest legal Waypoint with TIMEOUT, else none (R92). -/
def waypointDetail (m : Mach) (st lead : Nat) : List W32 := if st = St.timeout then w2 (earliest m lead) else []

/-- The packet of a command as a JOB_CMD token carries it (R437). -/
def packetOf (op : Nat) (handle : W32) (cookie : W64) (body : List W32) : List W32 :=
  w1 (op * 2 ^ 16 + 2 ^ 12 + 4 + body.length) ++ [handle] ++ w2 cookie.toNat ++ body

/-- A job-scope command that this package originates goes to the other packages with its Waypoint, and its token is
remembered for the results (R105, R437, R443). -/
def sendJobCmd (m : Mach) (c : Cmd) : Mach :=
  let fabric := match c.origin with
    | .fabric _ _ _ _ => true
    | _ => false
  if c.scope.kind != 6 || fabric then m
  else
    let m := (originate m 2 c.scope.unit c.t (wordsBytes (packetOf c.op (handleOf m c.sid) c.cookie c.body))).2
    { m with rcv := { m.rcv with sent := m.rcv.sent ++ [(c.scope.unit, c.t, c.sid, c.cookie)] } }

/-- The scope overlaps that of a Stitch whose Waypoint is pending or whose capture has not ended (R116). -/
def stitchOverlaps (m : Mach) (s : Scope) : Bool :=
  m.cmds.any (fun c => c.op == 0x0301 && c.phase == 0 && scopesOverlap m s c.scope)

/-- The scope overlaps a HALT that is pending for the same T (R116). -/
def haltOverlaps (m : Mach) (s : Scope) (t : Nat) : Bool :=
  m.cmds.any (fun c => c.op == 0x0201 && c.t == t && m.run.arms.any (fun a => a.cmd == c.id) && scopesOverlap m s c.scope)

/-! ### HALT -/

/-- Begin a halt of a scope: T is 0 for one that acts at once (R107, R110). Gives the command's identifier. -/
def startHalt (m : Mach) (i : Issuer) (cookie : W64) (body : List W32) (s : Scope) (t flags reason : Nat) : Nat × Mach :=
  let (c, m) := newCmd m i 0x0201 cookie body s
  let at_ := if t = 0 then gtcNow m else t
  let m := updCmd m c.id (fun x => { x with t := at_, flags := flags, imm := t == 0 })
  let m := armScope m c.id s t 1 (nfld flags 1 1) reason 0
  (c.id, match findCmd m c.id with
    | some c => sendJobCmd m c
    | none => m)

/-- HALT (R107, Table 4.12). -/
def doHalt (m : Mach) (i : Issuer) (p : Pkt) : Mach :=
  let s := scopeAt m p.body 0
  let t := w64At p.body 4
  let flags := (wAt p.body 6).toNat
  let imm := nbit flags 0
  let lead := leadOf s.kind
  let bad := p.body.length != 7 || !scopeOk m p.body 0 || decide (8 ≤ flags) || (imm && s.kind == 6)
  let st := waypointStatus m i s 2 lead (if imm then 0 else t) (if imm then 0 else 1) bad false
  if st != 0 then answer m i 0x0201 p.cookie st (waypointDetail m st lead)
  else (startHalt m i p.cookie p.body s (if imm then 0 else resolveT m lead t) flags (if imm then 6 else 5)).2

/-- The meaning of HALT. -/
def execHaltCmd (p : Pkt) (s : State) : Host.Outcome State Fault Refusal :=
  hostRow 0x0201 p s (fun m i => doHalt m i p)

/-- The members of a scope on Stations that are not silent for the command, as die, Tap and engine. -/
def scopeMembers (m : Mach) (s : Scope) (quiet : Nat) : List (Nat × Nat × Nat) :=
  ((scopeDies m s).filter (fun d => !silentFor m quiet d)).flatMap
    (fun d => (scopeEngines m d s.kind s.unit s.parts).map (fun x => (d, x.1, x.2)))

/-- The counters of RUN_STATE over members: how many stand in each state of Table 4.1 (R135). -/
def stateCounts (m : Mach) (ms : List (Nat × Nat × Nat)) : List Nat :=
  (List.range 8).map (fun k => (ms.filter (fun x => engState m x.1 x.2.1 x.2.2 == k)).length)

/-- What the latest RUN_STATE Headcount leaves in RUN_STATUS. -/
def noteCounts (m : Mach) (cs : List Nat) : Mach :=
  let n (k : Nat) : Nat := cs.getD k 0
  setHf (setHf m R.RUN_STATUS_HALTED (satN 16 (n 2 + n 3 + n 6))) R.RUN_STATUS_LATE (satN 16 (n 3))

/-- The partition halts of LATE_WIDEN: each partition of an engine in HALTED_LATE is halted at the earliest legal Waypoint
(R110); the event goes to the observers of the halt's scope as well (R519). -/
def lateWiden (m : Mach) (c : Cmd) (late : List (Nat × Nat × Nat)) : Mach :=
  let ps := (late.map (fun x => partNow m x.1 x.2.1)).dedup.filter (fun q => decide (q < 256))
  ps.foldl (fun m q =>
    let sc : Scope := { kind := 4, part := q, unit := 0, epoch := BitVec.ofNat 32 (epochOf m q), parts := 1 <<< q }
    let m := (startHalt m { origin := .firmware, sess := c.sid, port := .firmware } 0 [] sc (earliest m (leadOf 4)) 0 5).2
    raiseOn m (hubDie m) { code := EvCode.haltLateWiden, source := hubPath m, stamp := gtcNow m, detail := w1 q,
                           named := [c.sid], parts := partBit q ||| c.scope.parts, cookie := c.cookie }) m

/-- The Headcount of a HALT returns: the command completes with the first status that applies (R114, R136). -/
def completeHalt (m : Mach) (c : Cmd) : Mach :=
  let ms := scopeMembers m c.scope c.quiet
  let cs := stateCounts m ms
  let n (k : Nat) : Nat := cs.getD k 0
  let late := ms.filter (fun x => engState m x.1 x.2.1 x.2.2 == 3)
  let m := noteCounts m cs
  let m := if nbit c.flags 2 then lateWiden m c late else m
  let status := firstStatus [(foundNone m c, St.bindingMoved), (scopeSilent m c.scope c.quiet, St.unitDark), (c.late, St.timeout),
    (!late.isEmpty, St.haltLate)] St.ok
  let paths := (late.take 16).map (fun x => engPath m x.1 x.2.1 x.2.2)
  finish m c.id status (w2 c.t ++ w1 (scopeEpoch m c.scope) ++ w1 (n 2 + n 3 + n 6) ++ w1 (n 3) ++
    w1 (n 7 + silentMembers m c.scope c.quiet) ++ w1 paths.length ++ paths)

/-- The meaning of HALT_COMPLETION, which acts at T + 2,200 once every arm has acted (R114). -/
def execHaltCompletion (cmd : Nat) (s : State) : Host.Outcome State Fault Refusal :=
  match findCmd s.m cmd with
  | some c =>
    if c.op = 0x0201 ∧ c.t + 2200 ≤ gtcNow s.m ∧ !(s.m.run.arms.any (fun a => a.cmd == cmd)) then
      .next { s with m := completeHalt s.m c }
    else .next s
  | none => .next s

/-! ### RESUME and STEP -/

/-- Begin a release of a scope: T is 0 for one that acts at once (R115). `share` tells that the hub resumes on behalf of a Routine's run
(R302). -/
def startResume (m : Mach) (i : Issuer) (cookie : W64) (body : List W32) (s : Scope) (t : Nat) (share : Bool) : Mach :=
  let (c, m) := newCmd m i 0x0202 cookie body s
  let at_ := if t = 0 then gtcNow m else t
  let m := updCmd m c.id (fun x => { x with t := at_, imm := t == 0, share := share })
  let m := armScope m c.id s t 2 0 0 0
  let m := match findCmd m c.id with
    | some c => sendJobCmd m c
    | none => m
  armsGone m c.id

/-- RESUME (R115, R116, Table 4.12). -/
def doResume (m : Mach) (i : Issuer) (p : Pkt) : Mach :=
  let s := scopeAt m p.body 0
  let t := w64At p.body 4
  let flags := (wAt p.body 6).toNat
  let imm := nbit flags 0
  let lead := leadOf s.kind
  let bad := p.body.length != 7 || !scopeOk m p.body 0 || decide (2 ≤ flags) || (imm && s.kind == 6)
  let at_ := if imm then 0 else resolveT m lead t
  let busy := stitchOverlaps m s || (!imm && haltOverlaps m s at_)
  let st := waypointStatus m i s 2 lead (if imm then 0 else t) (if imm then 0 else 1) bad busy
  if st != 0 then answer m i 0x0202 p.cookie st (waypointDetail m st lead)
  else startResume m i p.cookie p.body s at_ false

/-- The meaning of RESUME. -/
def execResumeCmd (p : Pkt) (s : State) : Host.Outcome State Fault Refusal :=
  hostRow 0x0202 p s (fun m i => doResume m i p)

/-- A STEP that has passed its checks: one step arm in modes 0 and 1 with the mode and the limit; in mode 2 a release at T and a halt at
T + N (R117-R119). -/
def startStep (m : Mach) (i : Issuer) (p : Pkt) (s : Scope) (at_ : Nat) : Mach :=
  let w := wAt p.body 6
  let n := (wAt p.body 7).toNat
  let (c, m) := newCmd m i 0x0203 p.cookie p.body s
  let m := updCmd m c.id (fun x => { x with t := at_ })
  let m :=
    if wfld w 0 2 = 2 then armScope (armScope m c.id s at_ 4 0 n 0) c.id s (at_ + n) 1 0 4 0
    else armScope m c.id s at_ 3 0 (wfld w 0 2 + wfld w 16 16 * 2 ^ 16) 0
  let m := match findCmd m c.id with
    | some c => sendJobCmd m c
    | none => m
  armsGone m c.id

/-- STEP (R116, R117, R119, Table 4.12). -/
def doStep (m : Mach) (i : Issuer) (p : Pkt) : Mach :=
  let s := scopeAt m p.body 0
  let t := w64At p.body 4
  let w := wAt p.body 6
  let mode := wfld w 0 2
  let limit := wfld w 16 16
  let n := (wAt p.body 7).toNat
  let lead := leadOf s.kind
  let bad := p.body.length != 8 || !scopeOk m p.body 0 || wfld w 2 14 != 0 ||
    (match mode with
     | 0 => s.kind != 0 || limit == 0
     | 1 => s.kind != 1 || limit == 0
     | 2 => n == 0
     | _ => true)
  let at_ := resolveT m lead t
  let busy := stitchOverlaps m s || haltOverlaps m s at_
  let st := waypointStatus m i s 2 lead t (if mode = 2 then 2 else 1) bad busy
  if st != 0 then answer m i 0x0203 p.cookie st (waypointDetail m st lead)
  else startStep m i p s at_

/-- The meaning of STEP. -/
def execStepCmd (p : Pkt) (s : State) : Host.Outcome State Fault Refusal :=
  hostRow 0x0203 p s (fun m i => doStep m i p)

/-! ### Engine events -/

/-- The Tap exists. -/
def tapOk (d p : Nat) : Bool := decide (d < 64) && decide (p < 128)

/-- The engine exists. -/
def engOk (d p e : Nat) : Bool := tapOk d p && decide (e < 4)

/-- The meaning of STEP_LIMIT: an engine that has not completed its entry after LIMIT_US is to halt at its next boundary,
and the step ends with TIMEOUT (R118). -/
def execStepLimit (die tap e : Nat) (s : State) : Host.Outcome State Fault Refusal :=
  if !engOk die tap e then .fault .noSuchUnit
  else
    let m := s.m
    let x := eng m die tap e
    if engState m die tap e = 4 ∧ (x.stepMode = 1 ∨ x.stepMode = 2) ∧ !x.stopNext ∧ x.stepUntil ≤ repNow m die then
      let m := updCmd m x.stepCmd (fun c => { c with limit := true })
      let m := updEng (setEngState m die tap e 1) die tap e (fun x => { x with reason := 3, anyBoundary := true })
      .next { s with m := wdtSync m die tap e false }
    else .next s

/-- The meaning of STEP_STUCK: 1 µs after LIMIT_US the step completes without the engines that have still not halted
(R118). -/
def execStepStuck (cmd : Nat) (s : State) : Host.Outcome State Fault Refusal :=
  let m := s.m
  match findCmd m cmd with
  | some c =>
    let due := c.t + wfld (wAt c.body 6) 16 16 * 1000 + 1000
    let hung := m.engs.filter (fun x => x.2.stepCmd == cmd)
    if c.op = 0x0203 ∧ wfld (wAt c.body 6) 0 2 ≠ 2 ∧ due ≤ gtcNow m ∧ !hung.isEmpty ∧
       !(m.run.arms.any (fun a => a.cmd == cmd)) then
      let m := hung.foldl (fun m x =>
        let d := x.1 / 512
        let p := x.1 % 512 / 4
        let e := x.1 % 4
        let m := if engState m d p e = 4 then setEngState m d p e 1 else m
        wdtSync (updEng m d p e (fun y => { y with stepCmd := 0, stepMode := 0, reason := 3, anyBoundary := true })) d p e false) m
      let m := updCmd m cmd (fun c => { c with limit := true, stuck := hung.length })
      .next { s with m := stepCheck m cmd }
    else .next s
  | none => .next s

/-- The meaning of ATOMIC_BOUND: 4,096 engine cycles after the halt every boundary is eligible (R109). -/
def execAtomicBound (die tap e : Nat) (s : State) : Host.Outcome State Fault Refusal :=
  if !engOk die tap e then .fault .noSuchUnit
  else
    let m := s.m
    let x := eng m die tap e
    if engState m die tap e = 1 ∧ x.deferFrom + 2048 ≤ repNow m die then
      .next { s with m := updEng m die tap e (fun y => { y with anyBoundary := true }) }
    else .next s

/-- A halt-pending engine halts at this boundary: it lies outside a sequence, or the bound has expired, or the halt takes
any boundary (R100, R109, R118). -/
def boundaryEligible (x : Eng) (b : Boundary) : Bool :=
  !b.inSequence || x.anyBoundary || x.reason == 1 || x.reason == 2 || x.reason == 3

/-- The engine enters HALTED_LATE there (R100): the bound of a deferred halt has expired inside the sequence, or a step
that began in HALTED_LATE ends inside the same sequence, by itself, a breakpoint or a watchpoint (R118). -/
def boundaryLate (x : Eng) (b : Boundary) : Bool :=
  b.inSequence && (if x.reason ≤ 3 then x.lateOrigin else x.anyBoundary)

/-- The meaning of ENGINE_BOUNDARY (R99, R102, R108, R109, R112, R118; an engine that rung 1 stops abandons its queue
here, R432). -/
def execEngineBoundary (die tap e : Nat) (b : Boundary) (s : State) : Host.Outcome State Fault Refusal :=
  if !engOk die tap e then .fault .noSuchUnit
  else
    let m := s.m
    let x := eng m die tap e
    let left := if b.inSequence then x.lateOrigin else false
    let m :=
      if x.stopping then
        let m := updEng m die tap e (fun y => { y with
          stopping := false, torn := true, work := false, inSeq := b.inSequence, lock := b.lockHeld })
        if engState m die tap e = 1 ∧ boundaryEligible x b then haltEngine m die tap e b (boundaryLate x b)
        else wdtSync m die tap e false
      else
        match engState m die tap e with
        | 1 =>
          if boundaryEligible x b then haltEngine m die tap e b (boundaryLate x b)
          else updEng m die tap e (fun y => { y with inSeq := b.inSequence, lock := b.lockHeld })
        | 4 =>
          if x.stepMode ≠ 3 ∧ x.stopNext then
            let m := updEng m die tap e (fun y => { y with reason := 3 })
            haltEngine m die tap e b (boundaryLate { x with reason := 3 } b)
          else updEng m die tap e (fun y => { y with inSeq := b.inSequence, lock := b.lockHeld, lateOrigin := left })
        | 0 => updEng m die tap e (fun y => { y with inSeq := b.inSequence, lock := b.lockHeld, lateOrigin := false })
        | _ => m
    .next { s with m := m }

/-- The meaning of ENTRY_COMPLETED: the engine counts the entry, its watchdog reloads, and a step of modes 0 and 1 is to
end at the next boundary (R118, R420). `more` tells whether its queue holds more work. -/
def execEntryCompleted (die tap e : Nat) (more : Bool) (s : State) : Host.Outcome State Fault Refusal :=
  if !engOk die tap e then .fault .noSuchUnit
  else
    let m := s.m
    let st := engState m die tap e
    if st = 0 ∨ st = 1 ∨ st = 4 then
      let x := eng m die tap e
      let n := nfld (tf m die tap R.TAP_RUN_RETIRED_RETIRED) (16 * e) 16
      let m := sput m die (tapBase tap + 0x50) (setFld (sget m die (tapBase tap + 0x50)) (16 * e) 16 (satN 16 (n + 1)))
      let m := updEng m die tap e (fun y => { y with
        work := more, passBreak := false, stopNext := y.stopNext || (st == 4 && (y.stepMode == 1 || y.stepMode == 2)) })
      let m := if x.stepCmd = 0 then m else updCmd m x.stepCmd (fun c => { c with retired := c.retired + 1 })
      .next { s with m := wdtReload m die tap e }
    else .next s

/-- The arm halts the members of its scope at T. -/
def armHalts (a : Arm) : Bool := a.stitch || a.action == 1

/-- The cores that an arm concerns on a die, as its shadows stand now (R131). -/
def armCores (m : Mach) (d : Nat) (a : Arm) : List Nat :=
  memberCores m d a.kind (if a.stitch then 0 else a.unit) a.parts

/-- A halt reaches the core in this very clock: its T lies before the replica's next edge (R103, R108). -/
def haltHere (m : Mach) (d p : Nat) : Bool :=
  (stn m d).wpts.any (fun a => armHalts a && decide (a.t < repNow m d + 4) && (armCores m d a).contains p)

/-- The meaning of CORE_SLEEP: a power-down request is held back while an engine is in HALT_PENDING, HALTED, HALTED_LATE or STEPPING, and
where a halt reaches the core in the same cycle; else the core's running engines sleep and the Tap records SLEEP (R102, R103, R264). -/
def execCoreSleep (die tap : Nat) (s : State) : Host.Outcome State Fault Refusal :=
  if !tapOk die tap then .fault .noSuchUnit
  else
    let m := s.m
    if (List.range 4).any (fun e => let st := engState m die tap e; decide (1 ≤ st) && decide (st ≤ 4)) || haltHere m die tap then
      .next { s with m := updCore m die tap (fun c => { c with sleepReq := true }) }
    else if (List.range 4).all (fun e => engState m die tap e == 0) then .next { s with m := sleepCore m die tap }
    else .next s

/-! ### HEADCOUNT -/

/-- The QUERY codes of HEADCOUNT: run state, Stitch progress and mode epochs (R135, R156, R393, R416). -/
def headcountQuery (q : Nat) : Bool := [0x01, 0x10, 0x32, 0x33, 0x34, 0x35].contains q

/-- A HEADCOUNT whose gathers have all returned completes (R135). -/
def completeHeadcount (m : Mach) (c : Cmd) : Mach :=
  let missing := bitmapOf ((scopeDies m c.scope).filter (fun d => !nbit c.seen d))
  let cs := (List.range 8).map (fun k => c.vals.getD k 0)
  let m := if (wAt c.body 4).toNat = 1 then noteCounts m cs else m
  finish m c.id (if missing = 0 then St.ok else St.unitDark) (cs.map (BitVec.ofNat 32) ++ leWords 4 missing)

/-- A HEADCOUNT that has passed its checks: one COUNT gather goes over each ring that is up and holds a Station of the scope; with no
such ring it completes at once (R57, R135). -/
def startHeadcount (m : Mach) (i : Issuer) (p : Pkt) (s : Scope) (q : Nat) (routine : Bool) : Mach :=
  let (c, m) := newCmd m i 0x0209 p.cookie p.body s
  let rings := (upRings m).filter (fun k => (scopeDies m s).any (fun d => ringOf d == k))
  let m := updCmd m c.id (fun x => { x with vals := List.replicate 8 0 })
  if rings.isEmpty then
    match findCmd m c.id with
    | some c => completeHeadcount m c
    | none => m
  else
    let len := if 0x32 ≤ q then 16 else 32
    rings.foldl (fun m k => gatherRing m c.id 0 q len (zeros len) routine k) m

/-- HEADCOUNT (R135, Table 4.12): one COUNT gather on each ring that holds a Station of the scope. -/
def doHeadcount (m : Mach) (i : Issuer) (p : Pkt) (routine : Bool) : Mach :=
  let s := scopeAt m p.body 0
  let q := (wAt p.body 4).toNat
  let level := if decide (0x32 ≤ q) then (List.range 256).any (fun x => decide (1 ≤ issLevel m i x)) else scopeLevel m i s 1
  let st := firstStatus [
    (p.body.length != 5 || !scopeOk m p.body 0 || !headcountQuery q, St.malformed),
    (scopeDark m s, St.unitDark), (!level, St.notAuthorised), (scopeMoved m s, St.bindingMoved)] St.ok
  if st != 0 then answer m i 0x0209 p.cookie st []
  else startHeadcount m i p s q routine

/-- The meaning of HEADCOUNT. -/
def execHeadcount (p : Pkt) (s : State) : Host.Outcome State Fault Refusal :=
  hostRow 0x0209 p s (fun m i => doHeadcount m i p false)

end Sys2Proof.Machine
end

