-- ==== Sys2Proof/Machine/CoreMem.lean ====
section
/-! DEFINITION. The memory behind the block's ports: regions of cores, HBM channels and the Hamper ranges in them (R16, R127,
R128, R167). -/

namespace Sys2Proof.Machine

/-! ### State of cores -/

/-- The region of a core's State Directory (R127). -/
def regionOf (m : Mach) (d p region : Nat) : Option DirEntry := (core_ m d p).dir.find? (fun e => e.region == region)

/-- The key of a byte of core state. -/
def coreKey (d p region off : Nat) : Nat := ((d * 128 + p) * 2 ^ 16 + region) * 2 ^ 24 + off

/-- The LOCAL_MEM region of a core: class 2 of its directory. -/
def localRegion (m : Mach) (d p : Nat) : Option Nat := ((core_ m d p).dir.find? (fun e => e.cls == 2)).map (fun e => e.region)

/-- The byte of the boot image that a core's local memory holds at an offset since its latest boot, when it holds one (R394,
R396). -/
def imageByte (m : Mach) (d p region off : Nat) : Option Byte :=
  let c := core_ m d p
  let n := bytesAt m.bup.bootImg 6 2
  if c.img && localRegion m d p == some region && decide (off < 4096 * n) && !nbit c.missing (off / 4096) then
    some ((m.bup.bootImg[64 + 4 * n + off]?).getD 0)
  else none

/-- What a byte of core state reads as that nothing has written since the core's latest reset: the boot image where the core
holds it, zero before any reset, else a value that the spec leaves open (Table 13.3; log entries 5, 8). -/
def coreDefault (m : Mach) (d p region off : Nat) : Byte :=
  match imageByte m d p region off with
  | some b => b
  | none =>
    let g := max m.bup.memEpoch (core_ m d p).memGen
    if g = 0 then memDefault else Config.undefinedByte g (coreKey d p region off)

/-- Read n bytes of a region. -/
def coreRead (m : Mach) (d p region off : Nat) : Nat → List Byte
  | 0 => []
  | n + 1 =>
    let k := coreKey d p region off
    Store.get (coreDefault m d p region off) m.coreMem k :: coreRead m d p region (off + 1) n

/-- Write bytes of a region. -/
def coreWrite (m : Mach) (d p region off : Nat) : List Byte → Mach
  | [] => m
  | b :: r =>
    let k := coreKey d p region off
    coreWrite { m with coreMem := Store.put (coreDefault m d p region off) m.coreMem k b } d p region (off + 1) r

/-- A reset leaves every byte of a core's state undefined (Table 13.3). -/
def coreForget (m : Mach) (d p : Nat) : Mach :=
  let lo := coreKey d p 0 0
  let hi := coreKey d (p + 1) 0 0
  updCore { m with coreMem := m.coreMem.filter (fun e => decide (e.1 < lo) || decide (hi ≤ e.1)), free := m.free + 1 } d p
    (fun c => { c with memGen := m.free + 1, img := false, sleepReq := false })

/-! ### HBM -/

/-- The channel window that holds a bus address. -/
def chanAt (m : Mach) (a : Nat) : Option ChanWindow :=
  match m.bup.env with
  | some e => e.chans.find? (fun c => decide (c.base ≤ a) && decide (a < c.base + c.size))
  | none => none

/-- A byte range lies in channels bound to a partition; windows that adjoin are followed one after the other. -/
def rangeBound (m : Mach) (part : Nat) : Nat → Nat → Nat → Bool
  | 0, _, _ => false
  | fuel + 1, a, n =>
    match chanAt m a with
    | none => false
    | some c =>
      boundTo m c.die (bindChan c.chan) part && !chanHidden m c.die c.chan &&
      (decide (a + n ≤ c.base + c.size) || rangeBound m part fuel (c.base + c.size) (a + n - (c.base + c.size)))

/-- How many windows a range can cross at most. -/
def chanCount (m : Mach) : Nat := ((m.bup.env.map (fun e => e.chans.length)).getD 0) + 1

/-- The bytes of a Hamper (R167). -/
def hamperSize : Nat := 768 * 2 ^ 20

/-- The base address of the Hamper of stack s: the stack of memory-attach die 64 + s. -/
def hamperBase (m : Mach) (s : Nat) : Nat := sf m (64 + s) R.STN_CAP_HBASE_BASE

/-- A byte range touches a Hamper; before firmware has set their bases there is none. -/
def inHamper (m : Mach) (a n : Nat) : Bool :=
  match m.bup.env with
  | none => false
  | some _ => (List.range 32).any (fun s =>
      decide (a < hamperBase m s + hamperSize) && decide (hamperBase m s < a + n))

/-- Read HBM. -/
def hbmRead (m : Mach) (a n : Nat) : List Byte := memRead m.hbm a n

/-- Write HBM. -/
def hbmWrite (m : Mach) (a : Nat) (b : List Byte) : Mach := { m with hbm := memWrite m.hbm a b }

/-! ### Register rows -/

/-- A register row that holds an offset. -/
def rowHolds (r : RegRow) (off : Nat) : Bool :=
  decide (r.base ≤ off) && (if r.stride = 0 then off == r.base else
    (off - r.base) % r.stride == 0 && decide ((off - r.base) / r.stride < r.count))

/-- The row of an offset of the hub window. -/
def hubRowAt (off : Nat) : Option RegRow := hubRows.find? (fun r => rowHolds r off)

/-- A register that exists on some dies only exists on this one: those of a port, a channel, a core or the watchdog array, and
the Hamper base (Tables 1.4 and 1.6). -/
def stnHas (d a : Nat) : Bool :=
  if 0x200000 ≤ a then decide ((a - 0x200000) / 0x100 < portsOf d)
  else if 0x7200 ≤ a ∧ a < 0x7280 then decide ((a - 0x7200) / 8 < portsOf d)
  else if 0x8480 ≤ a ∧ a < 0x8500 then decide ((a - 0x8480) / 8 < portsOf d)
  else if 0x8580 ≤ a ∧ a < 0x8600 then decide ((a - 0x8580) / 8 < portsOf d)
  else if (0x8400 ≤ a ∧ a < 0x8480) ∨ (0x8600 ≤ a ∧ a < 0x8680) ∨ (0xA080 ≤ a ∧ a < 0xA100) ∨ a = 0x4008 then dieKind d == 1
  else if (0x8000 ≤ a ∧ a < 0x8400) ∨ (0x3000 ≤ a ∧ a < 0x3100) then dieKind d == 0
  else if 0xA008 ≤ a ∧ a < 0xA040 then dieKind d == 0
  else if a = 0x1018 then dieKind d == 2
  else true

/-- The address is a register of a part that this kind of die does not enable; STN_GTC_TRUNK is reserved where it is absent (R15). -/
def stnInactive (d a : Nat) : Bool :=
  decide (a < 0x100000 ∨ 0x200000 ≤ a) && a != 0x1018 && !stnHas d a && stnRows.any (fun r => rowHolds r a)

/-- The row of a Station address, a Tap's rows through its window (R68, R69). -/
def stnRowAt (d a : Nat) : Option RegRow :=
  if 0x100000 ≤ a ∧ a < 0x200000 then
    if d < 64 then tapRows.find? (fun r => rowHolds r ((a - 0x100000) % 0x2000)) else none
  else if stnHas d a then stnRows.find? (fun r => rowHolds r a) else none

end Sys2Proof.Machine
end

