-- ==== Sys2Proof/Machine/Trigger.lean ====
section
/-! DEFINITION. Triggers: arming, offers, firings and their actions, the trigger pins; starting and unloading Routines
(R299-R301, R306-R313, R381, R382). -/

namespace Sys2Proof.Machine

/-! ### Firings (R309-R311) -/

/-- The trigger's previous action is still in progress. -/
def actionBusy (t : Trigger) : Bool := t.inRun.isSome || t.inHalt.isSome

/-- Runs that wait in the queue. -/
def queuedRuns (m : Mach) : Nat := (m.rtn.runs.filter (fun r => !r.executing)).length

/-- A number for a run that no other run has. -/
def nextRun (m : Mach) : Nat := m.rtn.runs.foldl (fun n r => Nat.max n (r.index + 1)) 0

/-- A dropped firing: counted, and reported at most once per millisecond (R309) to the Session that armed the trigger and to the observers
of the source's die and of the scope of a halt (R519). -/
def dropFiring (m : Mach) (n : Nat) : Mach :=
  match trigger m n with
  | none => m
  | some t =>
    let now := gtcNow m
    let due := match t.lastDrop with
      | none => true
      | some x => decide (x + 1000000 ≤ now)
    let m := incHf m R.RTN_CNT_DROPPED
    let m := setTrigger m n (some { t with
      dropped := satN 16 (t.dropped + 1), lastDrop := if due then some now else t.lastDrop })
    if due then
      raiseOn m (hubDie m) { code := EvCode.triggerDropped, source := hubPath m, stamp := now, detail := [], named := [t.sid],
                             parts := (if t.source < 4 then partBit t.part else 0) |||
                               (if t.action = 1 then (scopeAt m t.scope 0).parts else 0), cookie := t.cookie }
    else m

/-- OBSERVE for a notification: over PART, or for a source that names none over at least one partition (log entry 28). -/
def notifyLevel (m : Mach) (sid source part : Nat) : Bool :=
  if source < 4 then decide (1 ≤ levelOf m sid part) else (List.range 256).any (fun p => decide (1 ≤ levelOf m sid p))

/-- The action of a firing (Table 9.8): a run queued, a halt armed, or a notification. -/
def performTrigger (m : Mach) (n : Nat) (stamp : Nat) (source : W32) : Mach :=
  match trigger m n with
  | none => m
  | some t =>
    match t.action with
    | 0 =>
      if 64 ≤ queuedRuns m then dropFiring m n
      else
        let r : Run := { index := nextRun m, routine := t.routine, sid := t.sid, trigger := some n, t0 := stamp,
                         source := source }
        let m := { m with rtn := { m.rtn with runs := m.rtn.runs ++ [r] } }
        setTrigger m n (some { t with inRun := some r.index })
    | 1 =>
      let s := scopeAt m t.scope 0
      let i : Issuer := { origin := .trigger n m.nextId, sess := t.sid, port := .host }
      let lead := leadOf s.kind
      let at_ := if t.source = 5 then stamp else earliest m lead
      if waypointStatus m i s 2 lead at_ 1 (!scopeOk m t.scope 0) false != 0 then m
      else
        let (id, m) := startHalt m i t.cookie [] s at_ 0 7
        setTrigger m n (some { t with inHalt := some id })
    | _ =>
      if notifyLevel m t.sid t.source t.part then
        raiseEv m { code := EvCode.triggerFired, source := source, stamp := stamp,
                    detail := w1 n ++ [source] ++ w2 stamp, named := [t.sid], wide := false, cookie := t.cookie }
      else m

/-- A firing reaches a trigger: it is counted, drives its pin, and acts, waits or is dropped (R306, R309, R311). ONESHOT
disarms after the first firing. -/
def fire (m : Mach) (n : Nat) (stamp : Nat) (source : W32) : Mach :=
  match trigger m n with
  | none => m
  | some t =>
    let m := setTrigger m n (some { t with fires := satN 32 (t.fires + 1) })
    let start := if t.source = 5 then stamp else gtcNow m
    let m := if t.outEn then { m with pins := { m.pins with trigStart := m.pins.trigStart ++ [(t.outPin, start)] } } else m
    if t.pending.isSome then dropFiring m n
    else if actionBusy t then
      setTrigger m n (some { t with fires := satN 32 (t.fires + 1), pending := some (stamp, source) })
    else
      let m := performTrigger m n stamp source
      if t.oneshot then setTrigger m n none else m

/-- An offer that names a trigger, from a unit that shadow `inst` of die d binds (R307). -/
def offer (m : Mach) (n kind d inst : Nat) (stamp : Nat) (source : W32) : Mach :=
  match trigger m n with
  | none => m
  | some t =>
    if t.source != kind then m
    else if boundTo m d inst t.part then fire m n stamp source
    else incHf m R.RTN_CNT_FOREIGN

/-- An event of source 2 or 3 is offered to every trigger of that source (R307). -/
def offerAll (m : Mach) (kind d inst : Nat) (stamp : Nat) (source : W32) : Mach :=
  (List.range 64).foldl (fun m n => offer m n kind d inst stamp source) m

/-- The meaning of PENDING_FIRING: a pending firing acts once the previous action has ended (R309). -/
def execPendingFiring (n : Nat) (s : State) : Host.Outcome State Fault Refusal :=
  match trigger s.m n with
  | some t =>
    match t.pending with
    | some (stamp, source) =>
      if actionBusy t then .next s
      else .next { s with m := performTrigger (setTrigger s.m n (some { t with pending := none })) n stamp source }
    | none => .next s
  | none => .next s

/-- The meaning of RTN_DOORBELL: each one fires an armed trigger of source 6 (R306). -/
def execRtnDoorbell (v : W64) (s : State) : Host.Outcome State Fault Refusal :=
  if s.m.peer.isolated then .next s
  else
  let m := (bitsOf v.toNat 64).foldl (fun m n =>
    match trigger m n with
    | some t => if t.source = 6 then fire m n (gtcNow m) (hubPath m) else m
    | none => m) s.m
  .next { s with m := m }

/-- The meaning of TRIG_IN: an edge that the stamping clock takes now, stamped 8 ticks back; a second edge of one kind
within 100 ns is ignored (R306, R381). -/
def execTrigIn (pin : Nat) (level : Bool) (s : State) : Host.Outcome State Fault Refusal :=
  if 4 ≤ pin then .fault .noSuchUnit
  else
    let m := s.m
    if nbit m.pins.trigIn pin == level then .next s
    else
      let stamp := gtcNow m - 8
      let key := 2 * pin + b2n level
      let near := m.pins.lastEdge.any (fun e => e.1 == key && decide (stamp < e.2 + 100))
      let lv := if level then setBit m.pins.trigIn pin else clrBit m.pins.trigIn pin
      let edges := if near then m.pins.lastEdge else (m.pins.lastEdge.filter (fun e => e.1 != key)) ++ [(key, stamp)]
      let m := { m with pins := { m.pins with trigIn := lv, lastEdge := edges } }
      if near then .next { s with m := m }
      else
        let m := (List.range 64).foldl (fun m n =>
          match trigger m n with
          | some t => if t.source == 4 && t.pin == pin && t.falling != level then fire m n stamp (hubPath m) else m
          | none => m) m
        .next { s with m := m }

/-- The meaning of LINK_LAYER_ERROR: triggers of source 3 on the partition of the endpoint fire (R306, R307). -/
def execLinkLayerError (die port : Nat) (s : State) : Host.Outcome State Fault Refusal :=
  if 100 ≤ die ∨ portsOf die ≤ port then .fault .noSuchUnit
  else .next { s with m := offerAll s.m 3 die (bindPort port) (repNow s.m die) (portPath s.m die port) }

/-! ### Periodic firings (R308) -/

/-- The first Waypoint of the series later than x; none for a re-anchored series that no second holds. -/
def nextPeriodic (t : Trigger) (x : Nat) : Option Nat :=
  let after (b : Nat) : Nat :=
    if x < b + t.phase then b + t.phase else b + t.phase + ((x - (b + t.phase)) / t.period + 1) * t.period
  if !t.reanchor then some (after t.base)
  else if 1000000000 ≤ t.phase then none
  else
    let b := Nat.max t.base (x / 1000000000 * 1000000000)
    let c := after b
    some (if c < b + 1000000000 then c else b + 1000000000 + t.phase)

/-- The meaning of PERIODIC_FIRING: the next Waypoint fires ADVANCE_US before it comes (R308). -/
def execPeriodicFiring (n : Nat) (s : State) : Host.Outcome State Fault Refusal :=
  let m := s.m
  match trigger m n with
  | some t =>
    let now := gtcNow m
    let next := if t.nextT ≤ now then nextPeriodic t now else some t.nextT
    match next with
    | some tk =>
      if t.source = 5 ∧ tk ≤ now + 1000 * t.advanceUs then
        let m := setTrigger m n (some { t with nextT := (nextPeriodic t tk).getD 0 })
        .next { s with m := fire m n tk (hubPath m) }
      else .next s
    | none => .next s
  | none => .next s

/-! ### TRIG_OUT (R311, R382) -/

/-- The meaning of TRIG_OUT_START: a pulse rises once its start has come; it lasts 1 µs, or 1 µs after the later one. -/
def execTrigOutStart (pin : Nat) (s : State) : Host.Outcome State Fault Refusal :=
  if 4 ≤ pin then .fault .noSuchUnit
  else
    let m := s.m
    let due := m.pins.trigStart.filter (fun x => x.1 == pin && decide (x.2 ≤ gtcNow m))
    if due.isEmpty || m.peer.isolated then .next s
    else
      let stop := due.foldl (fun a x => Nat.max a (x.2 + 1000)) (Store.get 0 m.pins.trigEnd pin)
      let rest := m.pins.trigStart.filter (fun x => !(x.1 == pin && decide (x.2 ≤ gtcNow m)))
      .next { s with m := { m with pins := { m.pins with
        trigOut := setBit m.pins.trigOut pin, trigEnd := Store.put 0 m.pins.trigEnd pin stop, trigStart := rest } } }

/-- The meaning of TRIG_OUT_END: the pulse falls once its end has come. -/
def execTrigOutEnd (pin : Nat) (s : State) : Host.Outcome State Fault Refusal :=
  if 4 ≤ pin then .fault .noSuchUnit
  else
    let m := s.m
    if nbit m.pins.trigOut pin ∧ Store.get 0 m.pins.trigEnd pin ≤ gtcNow m then
      .next { s with m := { m with pins := { m.pins with trigOut := clrBit m.pins.trigOut pin } } }
    else .next s

/-! ### Residency (R299) -/

/-- The Routine is pinned: a run of it executes or waits, or an armed trigger names it. -/
def routinePinned (m : Mach) (r : Routine) : Bool :=
  m.rtn.runs.any (fun x => x.routine == r.handle && x.sid == r.sid) ||
  m.rtn.triggers.any (fun e => match e.2 with
    | some t => t.action == 0 && t.routine == r.handle && t.sid == r.sid
    | none => false)

/-- The resident Routines. -/
def residents (m : Mach) : List Routine := m.rtn.routines.filter (fun r => r.resident)

/-- The bytes of a save area: scratch, then the 16 counters. -/
def saveBytes (r : Routine) : List Byte :=
  scratchRead r 0 65536 ++ (List.range 16).flatMap (fun k => leBytes 4 (Store.get 0 r.counters k))

/-- Evict a Routine: its scratch and counters go to its save area. -/
def evictRoutine (m : Mach) (r : Routine) : Mach :=
  let m := match bufferOf m r.save with
    | some b => { m with hostMem := memWrite m.hostMem (b.addr + r.saveOff) (saveBytes r) }
    | none => m
  updRoutine m r.handle r.sid (fun x => { x with resident := false, scratch := [], counters := [] })

/-- Make room for one more resident Routine, evicting the unpinned one that ran least recently; none when all 32 are
pinned. -/
def makeRoom (m : Mach) : Option Mach :=
  if (residents m).length < 32 then some m
  else
    match ((residents m).filter (fun r => !routinePinned m r)).foldl (fun (acc : Option Routine) r => match acc with
      | none => some r
      | some b => if r.lastRan < b.lastRan then some r else acc) none with
    | some r => some (evictRoutine m r)
    | none => none

/-- The check value of an image: bytes 0-59, then 64 to the end (Table 9.1). -/
def imageCrc (b : List Byte) : Nat := crc32c (b.take 60 ++ b.drop 64)

/-- Page a Routine in: the image is read again and its check value compared, and the save area is restored. A changed
image spoils the Routine (R299). Gives whether it may run. -/
def pageRoutine (m : Mach) (r : Routine) : Bool × Mach :=
  if r.resident then (!r.spoiled, m)
  else
    let img := bufRead m r.image r.imageOff r.imageLen
    if r.spoiled || imageCrc img != r.crc || img.length != r.imageLen then
      (false, updRoutine m r.handle r.sid (fun x => { x with resident := true, spoiled := true }))
    else
      let b := bufRead m r.save r.saveOff 65600
      let scratch := memWrite [] 0 (b.take 65536)
      let counters := (List.range 16).foldl (fun c k => Store.put 0 c k (bytesAt b (65536 + 4 * k) 4)) ([] : Store Nat)
      (true, updRoutine m r.handle r.sid (fun x => { x with resident := true, scratch := scratch, counters := counters }))

/-! ### Commands (R313) -/

/-- The Routine handle names a loaded Routine of the issuer. -/
def routineStale (m : Mach) (i : Issuer) (h : W32) : Bool := !handleCurrent m 2 h || (routineOf m h i.sess).isNone

/-- The handle is current and names another Session's object (R320). -/
def notOwner (m : Mach) (i : Issuer) (kind : Nat) (h : W32) : Bool :=
  handleCurrent m kind h && descOwner m kind h != ownerHandle m i

/-- Stop a run at its next step boundary: now, when it stands at one (R304, R312). -/
def stopRun (m : Mach) (index : Nat) : Mach :=
  match runOf m index with
  | none => m
  | some r =>
    if atBoundary r && r.result.isNone then finishRun m r St.aborted
    else updRun m index (fun x => { x with stop := true })

/-- DISARM_TRIGGER (R312). -/
def doDisarmTrigger (m : Mach) (i : Issuer) (p : Pkt) : Mach :=
  let n := (wAt p.body 0).toNat
  let flags := (wAt p.body 1).toNat
  let t := trigger m n
  let other := match t with
    | some x => x.sid != i.sess
    | none => false
  let st := firstStatus [
    (p.body.length != 2 || decide (64 ≤ n) || decide (2 ≤ flags), St.malformed), (other, St.notAuthorised),
    (t.isNone, St.staleHandle)] St.ok
  match st, t with
  | 0, some x =>
    let m := setTrigger m n none
    let m := if nbit flags 0 then (match x.inRun with
      | some r => stopRun m r
      | none => m) else m
    answer m i 0x0704 p.cookie St.ok (w2 x.fires ++ w1 x.dropped)
  | st, _ => answer m i 0x0704 p.cookie st []

/-- The meaning of DISARM_TRIGGER. -/
def execDisarmTrigger (p : Pkt) (s : State) : Host.Outcome State Fault Refusal :=
  hostRow 0x0704 p s (fun m i => doDisarmTrigger m i p)

/-- UNLOAD_ROUTINE (Table 9.9). -/
def doUnloadRoutine (m : Mach) (i : Issuer) (p : Pkt) : Mach :=
  let h := wAt p.body 0
  let pinned := ((routineOf m h i.sess).map (fun r => routinePinned m r)).getD false
  let st := firstStatus [
    (p.body.length != 1, St.malformed), (notOwner m i 2 h, St.notAuthorised), (routineStale m i h, St.staleHandle),
    (pinned, St.busy)] St.ok
  let m := if st = 0 then
    { m with rtn := { m.rtn with routines := m.rtn.routines.filter (fun r => !(r.handle == h && r.sid == i.sess)) } } else m
  answer m i 0x0702 p.cookie st []

/-- The meaning of UNLOAD_ROUTINE. -/
def execUnloadRoutine (p : Pkt) (s : State) : Host.Outcome State Fault Refusal :=
  hostRow 0x0702 p s (fun m i => doUnloadRoutine m i p)

/-- RUN_ROUTINE queues a run, and completes when the run ends (R300, R301, R303). -/
def doRunRoutine (m : Mach) (i : Issuer) (p : Pkt) : Mach :=
  let h := wAt p.body 0
  let running := m.rtn.runs.any (fun r => r.routine == h && r.sid == i.sess)
  let st := firstStatus [
    (p.body.length != 3, St.malformed), (notOwner m i 2 h, St.notAuthorised), (routineStale m i h, St.staleHandle),
    (running || decide (64 ≤ queuedRuns m), St.busy)] St.ok
  if st != 0 then answer m i 0x0705 p.cookie st []
  else
    let (c, m) := newCmd m i 0x0705 p.cookie p.body noScope
    let r : Run := { index := nextRun m, routine := h, sid := i.sess, cmd := some c.id, t0 := w64At p.body 1 }
    { m with rtn := { m.rtn with runs := m.rtn.runs ++ [r] } }

/-- The meaning of RUN_ROUTINE. -/
def execRunRoutine (p : Pkt) (s : State) : Host.Outcome State Fault Refusal :=
  hostRow 0x0705 p s (fun m i => doRunRoutine m i p)

/-- Begin a run: the status block and LAST_DETAIL are zeroed and LAST_T, START, SOURCE and RUNS set (R289, R292, R300). -/
def beginRun (m : Mach) (r : Run) : Mach :=
  let now := gtcNow m
  let t0 := if r.t0 = 0 then now else r.t0
  let m := updRoutine m r.routine r.sid (fun x =>
    let x := scratchWrite x 0 (zeros 8 ++ leBytes 8 t0 ++ leBytes 8 now ++ leBytes 4 r.source.toNat ++ leBytes 4 ((x.runs + 1) % 2 ^ 32))
    let x := scratchWrite x 0x40 (zeros 64)
    { x with runs := (x.runs + 1) % 2 ^ 32, lastRan := now })
  updRun m r.index (fun x => { x with executing := true, lastT := t0 })

/-- The meaning of ROUTINE_RUN_START: with fewer than 8 runs executing, the first queued run whose Routine does not run
starts, its Routine being paged in; a Routine whose image has changed ends it with MALFORMED (R299, R301). -/
def execRoutineRunStart (s : State) : Host.Outcome State Fault Refusal :=
  let m := s.m
  let busy (r : Run) : Bool := m.rtn.runs.any (fun x => x.executing && x.routine == r.routine && x.sid == r.sid)
  match m.rtn.runs.find? (fun r => !r.executing && !busy r) with
  | some r =>
    if 8 ≤ (m.rtn.runs.filter (fun x => x.executing)).length then .next s
    else
      match routineOf m r.routine r.sid with
      | none => .next { s with m := finishRun m r St.aborted }
      | some x =>
        match (if x.resident then some m else makeRoom m) with
        | none => .next s
        | some m =>
          let (ok, m) := pageRoutine m x
          .next { s with m := if ok then beginRun m r else finishRun m r St.malformed }
  | none => .next s

end Sys2Proof.Machine
end

