-- ==== Sys2Proof/Machine/Inspect.lean ====
section
/-! DEFINITION. PEEK, POKE, breakpoints and watchpoints, SET_FREEZE, and the writes of a partition's configuration
(R121-R130, R522, R523). -/

namespace Sys2Proof.Machine

/-! ### Splitting an access into frames (R49) -/

/-- The pieces of a range: at most 256 bytes each, none crossing a 4 KiB page. Fuel bounds their number. -/
def pieces : Nat → Nat → Nat → List (Nat × Nat)
  | 0, _, _ => []
  | fuel + 1, a, n =>
    if n = 0 then []
    else
      let k := Nat.min n (Nat.min 256 (4096 - a % 4096))
      (a, k) :: pieces fuel (a + k) (n - k)

/-- The pieces of a range of n bytes. -/
def piecesOf (a n : Nat) : List (Nat × Nat) := pieces (n / 128 + 4) a n

/-! ### PEEK and POKE (Table 4.10) -/

/-- The modes of PEEK and POKE. -/
def peekMode (b : List W32) : Nat := wfld (wAt b 0) 0 2
def peekForce (b : List W32) : Bool := wfld (wAt b 0) 2 1 == 1
def peekPart (b : List W32) : Nat := wfld (wAt b 2) 0 8
def peekRegion (b : List W32) : Nat := wfld (wAt b 4) 0 16
def peekOffset (b : List W32) : Nat := w64At b 5
def peekLength (b : List W32) : Nat := (wAt b 7).toNat

/-- The rows of Table 2.7 as first address and size, the reserved ones left out. -/
def stationMap : List (Nat × Nat) := [
  (0x000000, 0x1000), (0x001000, 0x1000), (0x002000, 0x1000), (0x003000, 0x1000), (0x004000, 0x1000), (0x005000, 0x1000),
  (0x006000, 0x1000), (0x007000, 0x1000), (0x008000, 0x1000), (0x009000, 0x1000), (0x00A000, 0x1000), (0x00B000, 0xF5000),
  (0x100000, 0x100000), (0x200000, 0x200000), (0x400000, 0x400000), (0x800000, 0x10000), (0x810000, 0x7F0000)]

/-- A range lies within one row of Table 2.7. -/
def inOneRow (a n : Nat) : Bool := stationMap.any (fun r => decide (r.1 ≤ a) && decide (a + n ≤ r.1 + r.2))

/-- Row 1 of Table 4.10 for the fields of Table 4.12. -/
def peekMalformed (m : Mach) (b : List W32) (poke : Bool) : Bool :=
  let mode := peekMode b
  let unit := wAt b 1
  let off := peekOffset b
  let len := peekLength b
  let ent := regionOf m (upDie unit) (upTap unit) (peekRegion b)
  mode == 3 || (poke && (mode == 2 || peekForce b)) || wfld (wAt b 0) 3 29 != 0 || wfld (wAt b 2) 8 24 != 0 ||
  wfld (wAt b 4) 16 16 != 0 ||
  (match mode with
   | 0 =>
     !pathOk m unit 1 ||
     (match ent with
      | none => true
      | some e => off % 2 ^ e.grain != 0 || len % 2 ^ e.grain != 0 || decide (e.size < off + len))
   | 1 => unit != 0 || peekRegion b != 0 || off % 8 != 0 || len % 8 != 0 || decide (2 ^ 64 < off + len)
   | _ => !pathOk m unit 6 || peekRegion b != 0 || wAt b 2 != 0 || wAt b 3 != 0 || off % 8 != 0 || len % 8 != 0 ||
          !inOneRow off len)

/-- The cores of the owner scope of a region (Table 4.9): the core, or for SHARED_MEM every core of its cluster; hidden
and DARK cores are not part of it. -/
def ownerCores (m : Mach) (d p : Nat) (e : DirEntry) : List Nat :=
  let l := if e.cls = 3 then (List.range 16).map (fun i => p / 16 * 16 + i) else [p]
  l.filter (fun i => !coreHidden m d i && !coreDark m d i)

/-- A core is in a halted state: all of its engines are. -/
def coreInHalt (m : Mach) (d i : Nat) : Bool := coreHalted m d i

/-- A core is in ASLEEP_HALTED. -/
def coreAsleepHalted (m : Mach) (d i : Nat) : Bool := (List.range 4).any (fun e => engState m d i e == 6)

/-- The checks of Table 4.10 after row 1, in order; 0 when the access is to be made. The third value tells a zero
length. -/
def peekStatus (m : Mach) (i : Issuer) (b : List W32) (poke : Bool) (want : Nat) : Nat :=
  let mode := peekMode b
  let unit := wAt b 1
  let part := peekPart b
  let off := peekOffset b
  let len := peekLength b
  let d := upDie unit
  let p := upTap unit
  let ent := regionOf m d p (peekRegion b)
  let secure := (ent.map (fun e => e.secure)).getD false
  let rs := mode == 0 && (ent.map (fun e => e.rs)).getD false
  let owners := match ent with
    | some e => if mode = 0 ∧ e.cls ≠ 5 then ownerCores m d p e else []
    | none => []
  firstStatus [
    (b.length != want || peekMalformed m b poke, St.malformed),
    ((mode == 0 || mode == 2) && unitDark m unit, St.unitDark),
    (decide (15360 < len), St.doesNotFit),
    (len == 0, St.ok),
    (mode != 2 && (wAt b 3).toNat != epochOf m part, St.bindingMoved),
    ((mode != 2 && decide (issLevel m i part < 2)) || (mode == 2 && !pkgLevel m i 2) ||
      (mode == 0 && secure && decide (issLevel m i part < 3)) ||
      (mode == 1 && (inHamper m off len || !rangeBound m part (chanCount m) off len)), St.notAuthorised),
    (!poke && rs && !peekForce b, St.sideEffectRefused),
    (owners.any (fun c => !coreInHalt m d c), St.busy),
    (owners.any (fun c => coreAsleepHalted m d c), St.unitDark)] St.ok

/-- The requests of an access, in order (R49, R50). Mode 2 touches Station registers on the hub's own authority. -/
def peekReqs (m : Mach) (b : List W32) (poke routine : Bool) (data : List Byte) : List Req :=
  let mode := peekMode b
  let unit := wAt b 1
  let off := peekOffset b
  let part := peekPart b
  let epoch := (wAt b 3).toNat
  (piecesOf off (peekLength b)).map fun x =>
    let d := if mode = 1 then ((chanAt m x.1).map (fun c => c.die)).getD 0 else upDie unit
    let bytes := (data.drop (x.1 - off)).take x.2
    let lead := x.1 % 8
    let f := reqFrame poke ((x.1 - lead) % 2 ^ 24) (roundUp (lead + x.2) 8) part epoch (mode != 2) (peekForce b) routine
      (if poke then padTo (roundUp (lead + x.2) 8) (zeros lead ++ bytes) else [])
    let t := match mode with
      | 0 => .state (upTap unit) (peekRegion b) x.1 x.2
      | 1 => .hbm x.1
      | _ => .reg
    { die := d, frame := f, target := t, idx := x.1 - off }

/-- A PEEK or POKE that has passed its checks sends its requests in order (R49, R53, R128). -/
def startPeek (m : Mach) (i : Issuer) (p : Pkt) (poke routine : Bool) : Mach :=
  let b := p.body
  let (c, m) := newCmd m i (if poke then 0x0205 else 0x0204) p.cookie b noScope
  let reqs := peekReqs m b poke routine (wordsBytes (b.drop 8))
  pump (updCmd m c.id (fun x => { x with
    todo := reqs, need := reqs.length, data := zeros (if poke then 0 else peekLength b) })) c.id

/-- PEEK or POKE (R128). -/
def doPeekPoke (m : Mach) (i : Issuer) (p : Pkt) (poke routine : Bool) : Mach :=
  let op := if poke then 0x0205 else 0x0204
  let b := p.body
  let len := peekLength b
  let want := if poke then 8 + len / 4 else 8
  let st := peekStatus m i b poke want
  if st != 0 then
    let m := if st = St.sideEffectRefused then incHf m R.RUN_EVT_CNT_SE_REFUSED else m
    answer m i op p.cookie st (if st = St.doesNotFit then w1 (len - 15360) else [])
  else if len = 0 then answer m i op p.cookie St.ok (if poke then w1 0 else [])
  else startPeek m i p poke routine

/-- The meaning of PEEK. -/
def execPeek (p : Pkt) (s : State) : Host.Outcome State Fault Refusal :=
  hostRow 0x0204 p s (fun m i => doPeekPoke m i p false false)

/-- The meaning of POKE. -/
def execPoke (p : Pkt) (s : State) : Host.Outcome State Fault Refusal :=
  hostRow 0x0205 p s (fun m i => doPeekPoke m i p true false)

/-- The outcome that a response's STATUS gives its command (Table 2.4); a reserved STATUS, 0x06 and above, is taken as a unit that did
not answer as it should (log entry 83, DESIGN CHOICE). -/
def responseStatus (m : Mach) (status : Nat) (part : Nat) (epoch : Nat) : Nat :=
  match status with
  | 1 => if seqLater (epochOf m part) epoch then St.bindingMoved else St.notAuthorised
  | 2 => St.malformed
  | 3 => St.sideEffectRefused
  | _ => St.unitDark

/-- A response to a PEEK or POKE: its data takes its place, and the last one completes the command; a failing one ends it,
a POKE telling the bytes already written (R130). -/
def peekResponse (m : Mach) (c : Cmd) (q : Req) (status : Nat) (data : List Byte) : Mach :=
  let poke := c.op == 0x0205
  if status = 0 ∨ status = 5 then
    let n := c.done + 1
    let (lead, size) := match q.target with
      | .state _ _ off n => (off % 8, n)
      | _ => (0, q.frame.len)
    let bytes := if poke then c.skipped + size else 0
    let buf := if poke then [] else patch c.data q.idx ((data.drop lead).take size)
    let m := updCmd m c.id (fun x => { x with done := n, skipped := bytes, data := buf })
    if n = c.need then finish m c.id St.ok (if poke then w1 bytes else bytesWords buf) else pump m c.id
  else
    let st := responseStatus m status (peekPart c.body) (wAt c.body 3).toNat
    finish m c.id st (if poke then w1 c.skipped else [])

/-! ### SET_BREAK and CLEAR_BREAK (R123, R522) -/

/-- The writable bits of a breakpoint's CTL image and of a watchpoint's. -/
def brkCtlMask : Nat := 0x0000FFFFFFFF0FFF
def wpCtlMask : Nat := 0x0000000FFFFF1FFF

/-- The register images of a slot: offset in the Tap window and value. -/
def slotImages (slot : Nat) (b : List W32) : List (Nat × Nat) :=
  if slot < 8 then [(0x408 + 0x10 * slot, w64At b 6), (0x400 + 0x10 * slot, w64At b 4)]
  else
    let w := slot - 8
    [(0x480 + 0x18 * w, w64At b 6), (0x488 + 0x18 * w, w64At b 8), (0x490 + 0x18 * w, w64At b 4)]

/-- The zero images that clear a slot. -/
def zeroImages (slot : Nat) : List (Nat × Nat) := (slotImages slot []).map (fun x => (x.1, 0))

/-- The images of SET_BREAK have no reserved bit set (R522). -/
def imagesOk (slot : Nat) (b : List W32) : Bool :=
  if slot < 8 then w64At b 4 &&& brkCtlMask == w64At b 4 && w64At b 6 &&& 0xFFFFFFFF == w64At b 6 && w64At b 8 == 0
  else w64At b 4 &&& wpCtlMask == w64At b 4

/-- The writes of register images into a Tap, fenced to the core's partition. -/
def tapWrites (d p part epoch : Nat) (images : List (Nat × Nat)) : List Req :=
  images.map fun x =>
    { die := d, frame := reqFrame true (tapBase p + x.1) 8 part epoch true false false (leBytes 8 x.2) }

/-- The checks that R522 gives to SET_BREAK and CLEAR_BREAK. -/
def breakStatus (m : Mach) (i : Issuer) (b : List W32) (bad : Bool) : Nat :=
  let unit := wAt b 0
  let part := (wAt b 1).toNat
  firstStatus [
    (bad || !pathOk m unit 1 || decide (256 ≤ part), St.malformed), (unitDark m unit, St.unitDark),
    (decide (issLevel m i part < 2), St.notAuthorised),
    ((wAt b 2).toNat != epochOf m part || !boundTo m (upDie unit) (upTap unit) part, St.bindingMoved)] St.ok

/-- Begin the writes of a command. -/
def startWrites (m : Mach) (i : Issuer) (op : Nat) (p : Pkt) (reqs : List Req) : Mach :=
  if reqs.isEmpty then answer m i op p.cookie St.ok []
  else
    let (c, m) := newCmd m i op p.cookie p.body noScope
    pump (updCmd m c.id (fun x => { x with todo := reqs, need := reqs.length })) c.id

/-- SET_BREAK. -/
def doSetBreak (m : Mach) (i : Issuer) (p : Pkt) : Mach :=
  let b := p.body
  let slot := (wAt b 3).toNat
  let st := breakStatus m i b (b.length != 10 || decide (11 < slot) || !imagesOk slot b)
  if st != 0 then answer m i 0x0206 p.cookie st []
  else
    let unit := wAt b 0
    startWrites m i 0x0206 p (tapWrites (upDie unit) (upTap unit) (wAt b 1).toNat (wAt b 2).toNat (slotImages slot b))

/-- The meaning of SET_BREAK. -/
def execSetBreak (p : Pkt) (s : State) : Host.Outcome State Fault Refusal :=
  hostRow 0x0206 p s (fun m i => doSetBreak m i p)

/-- CLEAR_BREAK: the named slots are written with zero. -/
def doClearBreak (m : Mach) (i : Issuer) (p : Pkt) : Mach :=
  let b := p.body
  let mask := (wAt b 3).toNat
  let st := breakStatus m i b (b.length != 4 || decide (2 ^ 12 ≤ mask))
  if st != 0 then answer m i 0x0207 p.cookie st []
  else
    let unit := wAt b 0
    startWrites m i 0x0207 p (tapWrites (upDie unit) (upTap unit) (wAt b 1).toNat (wAt b 2).toNat
      ((bitsOf mask 12).flatMap zeroImages))

/-- The meaning of CLEAR_BREAK. -/
def execClearBreak (p : Pkt) (s : State) : Host.Outcome State Fault Refusal :=
  hostRow 0x0207 p s (fun m i => doClearBreak m i p)

/-- Who set a slot, and whether at SECURE_DEBUG: what a firing and R123 need. -/
def noteBreaks (m : Mach) (c : Cmd) : Mach :=
  let unit := wAt c.body 0
  let secure := decide (3 ≤ issLevel m { origin := c.origin, sess := c.sid, port := c.port } (wAt c.body 1).toNat)
  let slots := if c.op = 0x0206 then [(wAt c.body 3).toNat] else bitsOf (wAt c.body 3).toNat 12
  let sid := if c.op = 0x0206 then c.sid else 0
  updCore m (upDie unit) (upTap unit) (fun x => slots.foldl (fun x k => { x with
    brkSess := Store.put 0 x.brkSess k sid,
    brkSecure := if secure && c.op == 0x0206 then setBit x.brkSecure k else clrBit x.brkSecure k }) x)

/-- A response to SET_BREAK or CLEAR_BREAK. -/
def breakResponse (m : Mach) (c : Cmd) (status : Nat) : Mach :=
  if status = 0 ∨ status = 5 then
    let m := updCmd m c.id (fun x => { x with done := x.done + 1 })
    if c.done + 1 = c.need then finish (noteBreaks m c) c.id St.ok [] else pump m c.id
  else finish m c.id (responseStatus m status (wAt c.body 1).toNat (wAt c.body 2).toNat) []

/-! ### Partition configuration (R124, R523) -/

/-- The hub's copy of a partition's configuration. -/
def hubCfg (m : Mach) (part : Nat) : PartCfg := Store.get { } m.run.cfg part

/-- Change it. -/
def setHubCfg (m : Mach) (part : Nat) (x : PartCfg) : Mach :=
  { m with run := { m.run with cfg := Store.put { } m.run.cfg part x } }

/-- What a Station keeps for a partition. -/
def stnCfg (m : Mach) (d part : Nat) : PartCfg := Store.get { } (stn m d).cfg part

/-- Replace it. -/
def setStnCfg (m : Mach) (d part : Nat) (x : PartCfg) : Mach :=
  updStn m d (fun s => { s with cfg := Store.put { } s.cfg part x })

/-- The write of a partition's configuration into one Station. -/
def configReq (d kind part a b : Nat) : Req :=
  { die := d, frame := reqFrame true 0 16 part 0 false false false (leBytes 8 a ++ leBytes 8 b), target := .config kind part a b }

/-- The die holds a core of the partition. -/
def dieHolds (m : Mach) (d part : Nat) : Bool := !(memberCores m d 4 0 (1 <<< part)).isEmpty

/-- Note that a Station missed a configuration write (R523). -/
def oweConfig (m : Mach) (d kind part : Nat) : Mach :=
  let l := Store.get [] m.run.configOwed d
  if l.contains (kind, part) then m
  else { m with run := { m.run with configOwed := Store.put [] m.run.configOwed d (l ++ [(kind, part)]) } }

/-- A Station is skipped by a configuration write: it is owed, and a core of the partition there is dark (R523). -/
def skipConfig (m : Mach) (id d kind part : Nat) : Mach :=
  let m := oweConfig m d kind part
  if dieHolds m d part then updCmd m id (fun x => { x with dark := x.dark + 1 }) else m

/-- Complete a configuration command when every Station has answered or was skipped. -/
def configDone (m : Mach) (id : Nat) (detail : Cmd → List W32) : Mach :=
  match findCmd m id with
  | some c => if c.done = c.need then finish m id (if c.dark = 0 then St.ok else St.unitDark) (detail c) else pump m id
  | none => m

/-- The reply detail of a configuration command: nothing for SET_FREEZE, else the cores or entries written (R523). -/
def configDetail (c : Cmd) : List W32 := if c.op = 0x0208 then [] else w1 c.retired

/-- Write a partition's configuration into every Station of the package (R523). -/
def startConfig (m : Mach) (i : Issuer) (op : Nat) (p : Pkt) (kind part a b : Nat) : Mach :=
  let (c, m) := newCmd m i op p.cookie p.body noScope
  let up := (List.range 100).filter (fun d => stnAnswers m d)
  let down := (List.range 100).filter (fun d => !stnAnswers m d)
  let m := down.foldl (fun m d => skipConfig m c.id d kind part) m
  let reqs := up.map (fun d => configReq d kind part a b)
  configDone (updCmd m c.id (fun x => { x with todo := reqs, need := reqs.length })) c.id configDetail

/-- A Station has answered the write of its configuration, or is given up (none). One that gives no answer is owed it; the status of a
refusal ends the command (Table 2.4), and DARK cores are not counted as written (R241). -/
def configResponse (m : Mach) (c : Cmd) (q : Req) (status : Option Nat) : Mach :=
  let m := updCmd m c.id (fun x => { x with done := x.done + 1 })
  match q.target, status with
  | .config kind part _ _, some st =>
    if st = 0 ∨ st = 5 then
      let cores := (memberCores m q.die 4 0 (1 <<< part)).filter (fun p => !coreDark m q.die p)
      configDone (updCmd m c.id (fun x => { x with retired := x.retired + cores.length * (if kind = 3 then 4 else 1) })) c.id configDetail
    else finish m c.id (responseStatus m st (wAt c.body 0).toNat (wAt c.body 1).toNat) (configDetail c)
  | .config kind part _ _, none => configDone (skipConfig m c.id q.die kind part) c.id configDetail
  | _, _ => configDone m c.id configDetail

/-- The freeze settings of a core change at its next halt: a core that stands halted keeps those with which it halted
(R124). -/
def writeFreeze (m : Mach) (d p set : Nat) : Mach :=
  let held := (List.range 4).any (fun e => isHalted (engState m d p e))
  let m := if held && (core_ m d p).frzHeld.isNone then
    updCore m d p (fun c => { c with frzHeld := some (tf m d p R.TAP_FRZ_SET) }) else m
  setTf m d p R.TAP_FRZ_SET set

/-- A Station applies a freeze setting: kept for the partition, and written to the cores of it (R124). -/
def applyFreeze (m : Mach) (d part mask value : Nat) : Mach :=
  let x := stnCfg m d part
  let set := (x.freeze - (x.freeze &&& mask)) ||| (value &&& mask)
  let m := setStnCfg m d part { x with freeze := set }
  (memberCores m d 4 0 (1 <<< part)).foldl (fun m p => writeFreeze m d p set) m

/-- SET_FREEZE (R124, R522, R523). -/
def doSetFreeze (m : Mach) (i : Issuer) (p : Pkt) : Mach :=
  let b := p.body
  let part := (wAt b 0).toNat
  let w := (wAt b 2).toNat
  let mask := nfld w 0 5
  let value := nfld w 8 5
  let st := firstStatus [
    (b.length != 3 || decide (256 ≤ part) || w != mask + value * 2 ^ 8, St.malformed),
    (decide (issLevel m i part < 2), St.notAuthorised), ((wAt b 1).toNat != epochOf m part, St.bindingMoved)] St.ok
  if st != 0 then answer m i 0x0208 p.cookie st []
  else
    let x := hubCfg m part
    let m := setHubCfg m part { x with freeze := (x.freeze - (x.freeze &&& mask)) ||| (value &&& mask) }
    startConfig m i 0x0208 p 1 part mask value

/-- The meaning of SET_FREEZE. -/
def execSetFreeze (p : Pkt) (s : State) : Host.Outcome State Fault Refusal :=
  hostRow 0x0208 p s (fun m i => doSetFreeze m i p)

/-! ### Firings of breakpoints and watchpoints (R121, R122) -/

/-- What a firing does beside halting: its HIT bit, BREAK_HIT, and the offer to its trigger (R122). -/
def breakFires (m : Mach) (d p e slot : Nat) (trig : Option Nat) : Mach :=
  let hit := tf m d p ⟨0x4E0, 0, 0, 12⟩
  let m := setTf m d p ⟨0x4E0, 0, 0, 12⟩ (setBit hit slot)
  let now := repNow m d
  let who := Store.get 0 (core_ m d p).brkSess slot
  let m := stnEvent m d { code := EvCode.breakHit, source := engPath m d p e, stamp := now, detail := w1 slot,
                          named := if who = 0 then [] else [who], cookie := Store.get 0 (core_ m d p).brkCookie slot }
  match trig with
  | some n => offer m n 1 d (bindCore p) now (engPath m d p e)
  | none => m

/-- Count a match of a slot: it fires when SKIP matches lie before it. -/
def slotMatch (m : Mach) (d p slot skip : Nat) : Bool × Mach :=
  let n := Store.get 0 (core_ m d p).brkSkip slot
  if n < skip then (false, updCore m d p (fun c => { c with brkSkip := Store.put 0 c.brkSkip slot (n + 1) })) else (true, m)

/-- The Session of a breakpoint's halt. -/
def slotHalter (m : Mach) (d p slot : Nat) : Halter := { sid := Store.get 0 (core_ m d p).brkSess slot }

/-- The engine halts at the boundary before the entry, whatever sequence it lies in (R100, R118, R121). -/
def breakHalt (m : Mach) (d p e slot clid entry : Nat) : Mach :=
  let st := engState m d p e
  if st = 0 ∨ st = 1 ∨ st = 4 then
    let x := eng m d p e
    let b : Boundary := { clid := clid, entry := entry, midEntry := false, inSequence := x.inSeq, lockHeld := x.lock }
    let m := updEng m d p e (fun y => { y with
      reason := 1, haltSess := (slotHalter m d p slot).sid, haltPart := partNow m d p })
    haltEngine m d p e b (boundaryLate { x with reason := 1 } b)
  else m

/-- The other engines of the core halt at their next boundaries (ACTION 1). -/
def haltOthers (m : Mach) (d p e slot reason : Nat) : Mach :=
  ((List.range 4).filter (fun k => k != e && isHalted (engState m d p k) == false)).foldl
    (fun m k => haltReach m d p k reason true (slotHalter m d p slot)) m

/-- The breakpoint slots that an entry of engine e matches (R121). -/
def breakHits (m : Mach) (d p e clid entry : Nat) : List Nat :=
  (List.range 8).filter (fun b =>
    tf m d p R.TAP_BRK_CTL_EN b == 1 && tf m d p R.TAP_BRK_CTL_ENGINE b == e && tf m d p R.TAP_BRK_CTL_CLID b == clid &&
    tf m d p R.TAP_BRK_ENTRY_ENTRY b == entry)

/-- The trigger a slot drives, where it drives one (R122). -/
def slotTrigger (m : Mach) (d p : Nat) (en trg : Fld) (k : Nat) : Option Nat :=
  if tf m d p en k = 1 then some (tf m d p trg k) else none

/-- A breakpoint slot that matches: it is skipped and counted, or acts: ACTION 0 halts the engine, 1 the core, and each way it marks
the hit, is told and drives its trigger (R121, R122). -/
def breakSlot (m : Mach) (d p e clid entry b : Nat) : Mach :=
  let (go, m) := slotMatch m d p b (tf m d p R.TAP_BRK_CTL_SKIP b)
  if !go then m
  else
    let act := tf m d p R.TAP_BRK_CTL_ACTION b
    let trig := slotTrigger m d p R.TAP_BRK_CTL_TRIG_EN R.TAP_BRK_CTL_TRIGGER b
    let m := if act < 2 then breakHalt m d p e b clid entry else m
    breakFires (if act = 1 then haltOthers m d p e b 1 else m) d p e b trig

/-- An entry before which the engine stands, as its halt record names it, so that a release passes it (R121). -/
def standsBefore (m : Mach) (d p e clid entry : Nat) : Bool :=
  (eng m d p e).passBreak && tf m d p R.TAP_RUN_HREC_CLID e == clid && tf m d p R.TAP_RUN_HREC_ENTRY e == entry &&
  tf m d p R.TAP_RUN_HREC_MID_ENTRY e == 0

/-- The meaning of ENTRY_BREAKPOINT: engine e is about to start an entry (R121, R122). A release passes the breakpoint
before which the engine stands. -/
def execEntryBreakpoint (die tap e clid entry : Nat) (s : State) : Host.Outcome State Fault Refusal :=
  if !engOk die tap e then .fault .noSuchUnit
  else if standsBefore s.m die tap e clid entry then .next { s with m := updEng s.m die tap e (fun y => { y with passBreak := false }) }
  else .next { s with m := (breakHits s.m die tap e clid entry).foldl (fun m b => breakSlot m die tap e clid entry b) s.m }

/-- The watchpoint slots that a transaction of engine e matches: its type, its engine, its word in the range, and for a privileged or
secure one a slot that may see it (R121, R123). -/
def watchHits (m : Mach) (d p e addr ttype : Nat) (privileged : Bool) : List Nat :=
  (List.range 4).filter (fun w =>
    tf m d p R.TAP_WP_CTL_EN w == 1 && nbit (tf m d p R.TAP_WP_CTL_TYPES w) ttype && nbit (tf m d p R.TAP_WP_CTL_ENGMASK w) e &&
    decide (tf m d p R.TAP_WP_BASE_VAL w / 8 ≤ addr / 8) && decide (addr / 8 ≤ tf m d p R.TAP_WP_LIMIT_VAL w / 8) &&
    (!privileged || nbit (core_ m d p).brkSecure (8 + w)))

/-- A watchpoint slot that matches: the address is kept, and the slot is skipped and counted, or acts as a breakpoint's does, its halt
at the engine's next boundary (R121, R122). -/
def watchSlot (m : Mach) (d p e addr w : Nat) : Mach :=
  let m := setTf m d p R.TAP_WP_LAST_ADDR addr
  let (go, m) := slotMatch m d p (8 + w) (tf m d p R.TAP_WP_CTL_SKIP w)
  if !go then m
  else
    let act := tf m d p R.TAP_WP_CTL_ACTION w
    let trig := slotTrigger m d p R.TAP_WP_CTL_TRIG_EN R.TAP_WP_CTL_TRIGGER w
    let m := if act < 2 then haltReach m d p e 2 true (slotHalter m d p (8 + w)) else m
    breakFires (if act = 1 then haltOthers m d p e (8 + w) 2 else m) d p e (8 + w) trig

/-- The meaning of WATCHPOINT: a transaction of engine e completes at an address (R121-R123). Types: 0 read, 1 write,
2 atomic; `privileged` stands for a privileged or secure transaction. -/
def execWatchpoint (die tap e : Nat) (addr : W64) (ttype : Nat) (privileged : Bool) (s : State) :
    Host.Outcome State Fault Refusal :=
  if !engOk die tap e then .fault .noSuchUnit
  else .next { s with m :=
    (watchHits s.m die tap e addr.toNat ttype privileged).foldl (fun m w => watchSlot m die tap e addr.toNat w) s.m }

end Sys2Proof.Machine
end

