-- ==== Sys2Proof/Machine/Faults.lean ====
section
/-! DEFINITION. Faults of the block: the single-fault promise, latching and reporting, the ledger, Stations that fall silent
or fault, and Taps that fault (R406, R408, R483-R490, R520). -/

namespace Sys2Proof.Machine

/-! ### The promise (R483, R485) -/

/-- The time condition of R483. -/
def promiseTime (m : Mach) : Bool := hf m R.GTC_STATUS_HOLDOVER == 0 || decide (hf m R.GTC_STATUS_HOLD_MS ≤ 10000)

/-- Every present Station reports RATED. -/
def promiseRated (m : Mach) : Bool :=
  ((List.range 100).filter (fun d => stnAnswers m d)).all (fun d => sf m d R.STN_SENSE_RATED == 1)

/-- Bring HTH_STATUS into line with the conditions of R483; when PROMISE falls, PROMISE_LAPSED is raised with the register's
image (R485). -/
def promiseSync (m : Mach) : Mach :=
  let was := hf m R.HTH_STATUS_PROMISE
  let hubs := hf m R.HUB_STATUS_PEER_OK
  let fw := hf m R.HUB_STATUS_FW_IN_SERVICE
  let now := hubs == 1 && fw == 1 && promiseTime m && promiseRated m
  let m := setHf (setHf m R.HTH_STATUS_BOTH_HUBS hubs) R.HTH_STATUS_FW fw
  let m := setHf (setHf m R.HTH_STATUS_TIME_OK (b2n (promiseTime m))) R.HTH_STATUS_RATED (b2n (promiseRated m))
  let m := setHf m R.HTH_STATUS_PROMISE (b2n now)
  if was = 1 ∧ !now then
    raiseOn m (hubDie m) { code := EvCode.promiseLapsed, source := hubPath m, stamp := gtcNow m,
                           detail := w2 (hget m 0x1100).toNat }
  else m

/-! ### Latching and reporting (R484) -/

/-- What the hub keeps of a die's health. -/
def dieHealth (m : Mach) (d : Nat) : DieHealth := Store.get { } m.hth.dies d

/-- Change it. -/
def updDie (m : Mach) (d : Nat) (g : DieHealth → DieHealth) : Mach :=
  { m with hth := { m.hth with dies := Store.put { } m.hth.dies d (g (dieHealth m d)) } }

/-- A masked fault of codes 0x01, 0x03 and 0x04 counts as MASKED, any other as DETECTED. -/
def maskedCode (code : Nat) : Bool := code == 1 || code == 3 || code == 4

/-- Latch a fault in HTH_LAST, HTH_LAST_T, the counters and the die's record (R484; log entry 39). -/
def latchFault (m : Mach) (code : Nat) (source : W32) (d : Nat) : Mach :=
  let m := incHf m (if maskedCode code then R.HTH_FAULT_CNT_MASKED else R.HTH_FAULT_CNT_DETECTED)
  let m := setHf (setHf m R.HTH_LAST_CODE code) R.HTH_LAST_SOURCE source.toNat
  let m := setHf (setHf m R.HTH_LAST_T_STAMP (gtcNow m)) R.HTH_STATUS_FAULT 1
  let m := { m with hth := { m.hth with faults := m.hth.faults + 1 } }
  updDie m d (fun x => { x with faults := x.faults + 1, lastT := gtcNow m, lastCode := code })

/-- Report a fault of a unit on die d: latch it, and raise its event with the code in the detail to the observers of the die
and to the tray (R484). -/
def reportFault (m : Mach) (ev code : Nat) (source : W32) (d : Nat) : Mach :=
  raiseOn (latchFault m code source d) d
    { code := ev, source := source, stamp := gtcNow m, detail := w1 code, tray := true }

/-! ### The ledger (R406-R408, R490) -/

/-- Bits [31:0] of the time of day in PTP seconds; 0 without TOD_VALID (Table 12.6). -/
def todSeconds (m : Mach) : Nat :=
  if hf m R.GTC_STATUS_TOD_VALID = 1 then gtcNow m / 1000000000 else 0

/-- A path as the ledger holds it: Package field 0. -/
def ledgerUnit (w : W32) : W32 := w &&& 0x00FFFFFF

/-- A new ledger entry. -/
def newEntry (m : Mach) (unit : W32) (cause detail : Nat) : LedgerEntry :=
  { unit := ledgerUnit unit, cause := cause, detail := detail, seconds := todSeconds m % 2 ^ 32 }

/-- The flashes that the serving hub reaches: its own, and the other's while that instance is present (R387). -/
def reachesFlash (m : Mach) (a2 : Bool) : Bool := m.peer.onA2 == a2 || m.peer.present

/-- Change the flashes that the serving hub writes. -/
def updFlash (m : Mach) (g : Flash → Flash) : Mach :=
  { m with bup := { m.bup with
      flash0 := if reachesFlash m false then g m.bup.flash0 else m.bup.flash0,
      flash2 := if reachesFlash m true then g m.bup.flash2 else m.bup.flash2 } }

/-- Append to the ledger summary of the flashes. -/
def summaryAdd (m : Mach) (e : LedgerEntry) : Mach := updFlash m (fun f => { f with ledger := f.ledger ++ [e] })

/-- The Die Notebook of a die. -/
def note (m : Mach) (d : Nat) : Notebook := Store.get { } m.bup.notes d

/-- Change it. -/
def updNote (m : Mach) (d : Nat) (g : Notebook → Notebook) : Mach :=
  { m with bup := { m.bup with notes := Store.put { } m.bup.notes d (g (note m d)) } }

/-- Count a write to a partition of a Die Notebook: 0 user, 1 training, 2 ledger. -/
def countMram (m : Mach) (d k : Nat) : Mach := incSf m d R.STN_MRAM_WRITES 1 k

/-- Write the shadow of a unit (R30). -/
def setShadow (m : Mach) (d inst bound part epoch : Nat) : Mach :=
  setSf (setSf (setSf m d R.STN_BIND_BOUND bound inst) d R.STN_BIND_PART part inst) d R.STN_BIND_EPOCH epoch inst

/-- A unit that becomes hidden lies in the free pool, and with an internal endpoint its far end (R22, R30). -/
def freeUnit (m : Mach) (d inst : Nat) : Mach :=
  let free (m : Mach) (d inst : Nat) : Mach := if sf m d R.STN_BIND_BOUND inst = 1 then setShadow m d inst 0 0 0 else m
  let m := free m d inst
  match if inst < 144 then none else farEnd d (inst - 144) with
  | some (d', p') => free m d' (bindPort p')
  | none => m

/-- Hide a die whole: every unit of it lies in the free pool. -/
def hideDie (m : Mach) (d : Nat) : Mach :=
  (List.range 160).foldl (fun m inst => freeUnit m d inst)
    { m with bup := { m.bup with hiddenDies := setBit m.bup.hiddenDies d } }

/-- Append to a die's ledger partition; the need for entry 1,023 writes LEDGER_FULL there and hides the die (R408). -/
def ledgerAppend (m : Mach) (d : Nat) (e : LedgerEntry) : Mach :=
  let n := (note m d).ledger.length
  if n < 1023 then countMram (updNote m d (fun x => { x with ledger := x.ledger ++ [e] })) d 2
  else if n = 1023 then
    let full := newEntry m (mkPath 0 d 0 0 0 3) 9 0
    hideDie (countMram (updNote m d (fun x => { x with ledger := x.ledger ++ [full] })) d 2) d
  else m

/-! ### Stations and Taps (R487-R490, R520) -/

/-- The hub takes a Station as silent: it is taken as not having acted, and no command waits for it any longer (R520). -/
def silence (m : Mach) (d : Nat) : Mach :=
  let arms := m.run.arms.filter (fun a => nbit a.dies d)
  let m := { m with spine := { m.spine with silent := setBit m.spine.silent d },
                    cmds := m.cmds.map (fun c => { c with quiet := setBit c.quiet d }) }
  let m := arms.foldl (fun m a => armGone m a.armId d) m
  fenceAll ((arms.map (fun a => a.cmd)).dedup.foldl (fun m c => armsGone m c) m)

/-- The Station answers again. -/
def unsilence (m : Mach) (d : Nat) : Mach := { m with spine := { m.spine with silent := clrBit m.spine.silent d } }

/-- Every engine of a core is DARK from now on (R102). -/
def darkCore (m : Mach) (d p : Nat) : Mach :=
  (List.range 4).foldl (fun m e => wdtSync (setEngState m d p e 7) d p e false) m

/-- The hub declares a Station faulted: it is silent until the next start, its engines are DARK, and the summary lists it
(R487, R489, R490). -/
def declareFaulted (m : Mach) (d : Nat) : Mach :=
  if nbit m.hth.faulted d then m
  else
    let m := silence { m with hth := { m.hth with faulted := setBit m.hth.faulted d } } d
    let m := if d < 64 then (List.range 128).foldl (fun m p => darkCore m d p) m else m
    let m := incHf (summaryAdd m (newEntry m (stnPath m d) 7 0)) R.HTH_STATUS_FAULTED
    promiseSync (reportFault m EvCode.stationFault 9 (stnPath m d) d)

/-- A Tap faults: its engines go DARK, the Station stops all access to it, lists it and raises TAP_FAULT (R488, R490). -/
def faultTap (m : Mach) (d p : Nat) : Mach :=
  if coreDark m d p then m
  else
    let m := ledgerAppend (darkCore m d p) d (newEntry m (corePath m d p) 6 0)
    let m := incHf m R.HTH_STATUS_TAPS_DARK
    let m := updDie m d (fun x => { x with tapsDark := x.tapsDark + 1 })
    reportFault m EvCode.tapFault 10 (corePath m d p) d

end Sys2Proof.Machine
end

