-- ==== Sys2Proof/Machine/Ring.lean ====
section
/-! DEFINITION. The segments of a ring and the routes that they leave, as the hub's and the Stations' status registers show them (R39,
R61, R63). -/

namespace Sys2Proof.Machine

/-- The segments of a ring in a list, ascending: segment p joins positions p and p + 1 (mod 25). -/
def ringBreaks (l : List (Nat × Nat)) (k : Nat) : List Nat := (List.range 25).filter (fun p => l.contains (k, p))

/-- The segment before position p. -/
def segBefore (p : Nat) : Nat := (p + 24) % 25

/-- The die of position p came up at the start. -/
def posPresent (m : Mach) (k p : Nat) : Bool := stnPresent m (dieAt k p)

/-- A Station that is present and has not faulted works, whether or not the ring reaches it. -/
def stnUp (m : Mach) (d : Nat) : Bool := posPresent m (ringOf d) (posOf d) && !nbit m.hth.faulted d

/-- The routes reach position p of a ring that is up (R61, R63). -/
def routeReaches (breaks : List Nat) (p : Nat) : Bool :=
  match breaks.head?, breaks.getLast? with
  | some lo, some hi => decide (p ≤ lo) || decide (hi < p)
  | _, _ => true

/-- A bit of a ring's word in SPN_STATUS. -/
def setRingBit (m : Mach) (f : Fld) (k : Nat) (v : Bool) : Mach :=
  setHf m f (if v then setBit (hf m f) k else clrBit (hf m f) k)

/-- The SEG and WRAP bits of the Station at position p (R61). -/
def syncStation (k : Nat) (breaks : List Nat) (m : Mach) (p : Nat) : Mach :=
  let d := dieAt k p
  let cw := breaks.contains p
  let ccw := breaks.contains (segBefore p)
  setSf (setSf (setSf (setSf m d R.STN_SPN_STAT_SEG_CW_OK (b2n !cw)) d R.STN_SPN_STAT_SEG_CCW_OK (b2n !ccw))
    d R.STN_SPN_STAT_WRAP_CW (b2n cw)) d R.STN_SPN_STAT_WRAP_CCW (b2n ccw)

/-- The SEG and WRAP bits of every Station of a ring. -/
def syncStations (m : Mach) (k : Nat) : Mach := (List.range 25).foldl (syncStation k (ringBreaks m.spine.down k)) m

/-- Bring a ring's status registers into line with the breaks that the hub knows, its anchor and the trunks (R39, R61, R63). -/
def syncRoutes (m : Mach) (k : Nat) : Mach :=
  let breaks := ringBreaks m.spine.known k
  let up := m.bup.env.isSome && trunkPath m k && posPresent m k 0 && !nbit m.hth.faulted (96 + k)
  let masked := up && !breaks.isEmpty
  let m := setRingBit m R.SPN_STATUS_RING_UP k up
  let m := setRingBit (setRingBit m R.SPN_STATUS_MASKED k masked) R.SPN_STATUS_SPLIT k (masked && decide (2 ≤ breaks.length))
  let m := setHf m R.SPN_RING_STAT_BREAK_POS (if masked then breaks.headD 0 else 0) k
  let m := setHf m R.SPN_RING_STAT_BREAK_HI (if masked then breaks.getLastD 0 else 0) k
  setHf m R.SPN_RING_STAT_REACH
    (if up then bitmapOf ((List.range 25).filter (fun p => routeReaches breaks p && posPresent m k p)) else 0) k

end Sys2Proof.Machine
end

