-- ==== Sys2Proof/Machine/Receive.lean ====
section
/-! DEFINITION. What a Station does with any frame before it acts on it: liveness, CRC, end of frame, reserved kinds, and what it
passes on (R41, R45, R46, R54, R57, R60-R62, R83, R96, R525). -/

namespace Sys2Proof.Machine

/-- Both segments of the Station of die d are down, so that no frame passes it; an anchor stands beside the hub's own path. -/
def cutOff (m : Mach) (d : Nat) : Bool :=
  let p := posOf d
  p != 0 && m.spine.down.contains (ringOf d, p) && m.spine.down.contains (ringOf d, p - 1)

/-- The Station of die d takes frames: the ring's routes reach it, it has not faulted, and some segment of it is whole. -/
def stnLive (m : Mach) (d : Nat) : Bool := reachable m d && !nbit m.hth.faulted d && !cutOff m d

/-- A broadcast copy acts at this Station: the CW copy at positions 1-12 and the CCW copy at 13-24, or in masked mode each up to
the break; the anchor takes none (R54, R61, R63). -/
def copyActs (m : Mach) (d dir : Nat) : Bool :=
  let k := ringOf d
  let p := posOf d
  let last := if ringMasked m k then hf m R.SPN_RING_STAT_BREAK_POS k else 12
  let first := if ringMasked m k then hf m R.SPN_RING_STAT_BREAK_HI k + 1 else 13
  p != 0 && (if dir = 0 then decide (p ≤ last) else decide (first ≤ p))

/-- The frame is addressed to this Station, or to every Station of its ring and acts here; a gather acts at each Station that
it passes (Table 2.2, R54, R56). -/
def addressed (m : Mach) (d : Nat) (f : Frame) : Bool :=
  f.dest == d || (f.dest == 0x7F && (f.ftype == 6 || f.ftype == 10 || copyActs m d f.dir))

/-- The Station drops a frame as one of a reserved kind (R46). -/
def badType (m : Mach) (d : Nat) : Mach := incSf m d R.STN_SPN_ERR_BAD_TYPE

/-- DEST names neither a die, nor the serving hub, nor every Station of the ring (Table 2.2). -/
def destReserved (f : Frame) : Bool := !(decide (f.dest < 100) || f.dest == 0x7E || f.dest == 0x7F)

/-- A gather or heartbeat. -/
def isGather (f : Frame) : Bool := f.ftype == 6 || f.ftype == 10

/-- This Station takes a frame off the ring: a unicast to itself; at the end of its arm, or where the arm would turn back, a broadcast
copy; at position 0 any broadcast copy, and any frame but a gather that a break has turned back (R54, R61, R62). -/
def removes (m : Mach) (d : Nat) (f : Frame) : Bool :=
  let p := posOf d
  let last := if ringMasked m (ringOf d) then hf m R.SPN_RING_STAT_BREAK_POS (ringOf d) else 12
  let first := if ringMasked m (ringOf d) then hf m R.SPN_RING_STAT_BREAK_HI (ringOf d) + 1 else 13
  f.dest == d || (p == 0 && (f.wrapped || f.dest == 0x7F) && !isGather f) ||
  (f.dest == 0x7F && !isGather f && ((turned m d f).wrapped || (if f.dir = 0 then decide (last ≤ p) else decide (p ≤ first))))

/-- A frame that this Station does not take off goes on (R41, R45). -/
def passOn (m : Mach) (d : Nat) (f : Frame) (fin : FrameEnd) : Mach := if removes m d f then m else stnSend m d false f fin

/-- A Station raises SEGMENT_DOWN for a segment (R60). -/
def segEvent (m : Mach) (k q p lanes : Nat) : Mach :=
  let d := dieAt k q
  if nbit m.hth.faulted d || !posPresent m k q then m
  else stnEvent m d { code := EvCode.segmentDown, source := stnPath m d, stamp := repNow m d,
                      detail := w1 k ++ w1 p ++ w1 lanes, tray := true }

/-- Both Stations of a segment declare it down (R60). -/
def breakSegment (m : Mach) (k p lo hi : Nat) : Mach :=
  if m.spine.down.contains (k, p) then m
  else
    let m := syncStations { m with spine := { m.spine with down := m.spine.down ++ [(k, p)],
                                                           retrained := m.spine.retrained.filter (fun x => x != (k, p)) } } k
    segEvent (segEvent m k p p lo) k ((p + 1) % 25) p hi

/-- A receiver counts the frames in a row from one neighbour that end in EOF_BAD; the fourth declares the segment down, on the lanes
of the frames' direction, and the neighbour can not tell the lanes (R60). -/
def noteEnd (m : Mach) (d : Nat) (f : Frame) (fin : FrameEnd) : Mach :=
  let dir := travelDir f
  let n := if fin = .eofBad then Store.get 0 (stn m d).badRun dir + 1 else 0
  let m := updStn m d (fun x => { x with badRun := Store.put 0 x.badRun dir (if n < 4 then n else 0) })
  if n < 4 then m
  else if dir = 0 then breakSegment m (ringOf d) (segBefore (posOf d)) 3 0
  else breakSegment m (ringOf d) (posOf d) 1 3

/-- What a Station does with a frame that reaches it (R45, R46, R62): a wrong CRC counts and goes on as EOF_BAD; an EOF_BAD frame goes on
unchanged; a whole frame with a reserved DEST counts and is dropped; one that is addressed here is passed on where others take it too
and then acted on by `g`; any other is passed on. A gather goes on as `g` leaves it. -/
def rxFrame (m : Mach) (d : Nat) (f : Frame) (fin : FrameEnd) (g : Mach → Mach) : Mach :=
  let m := noteEnd m d f fin
  match fin with
  | .crcBad => passOn (incSf m d R.STN_SPN_ERR_CRC_ERR) d f .eofBad
  | .eofBad => passOn m d f .eofBad
  | .good =>
    if destReserved f then badType m d
    else if posOf d = 0 && f.wrapped && !isGather f then m
    else if !addressed m d f then passOn m d f .good
    else if isGather f then g m
    else g (passOn m d f .good)

/-- A frame of TYPE `ty` reaches Station d. -/
def rxRow (die : Nat) (f : Frame) (fin : FrameEnd) (ty : Nat) (s : State) (g : Mach → Mach) :
    Host.Outcome State Fault Refusal :=
  if 100 ≤ die then .fault .noSuchUnit
  else if !stnLive s.m die || f.ftype != ty then .next s
  else .next { s with m := rxFrame s.m die f fin g }

/-- A frame of TYPE `ty` on its way to the hub: with `die` its originator it reaches the hub, where a bad one is counted for its ring
and dropped (R45); with any other die it reaches that Station, which passes it on. -/
def hubRow (die : Nat) (f : Frame) (fin : FrameEnd) (ty : Nat) (s : State) (g : Mach → Mach) :
    Host.Outcome State Fault Refusal :=
  if 100 ≤ die then .fault .noSuchUnit
  else if f.ftype != ty then .next s
  else if f.src != die then rxRow die f fin ty s (fun m => m)
  else
    match fin with
    | .good => .next { s with m := g s.m }
    | _ => .next { s with m := incHf s.m R.SPN_RING_ERR_CRC_ERR 1 (ringOf die) }

/-- A gather whose GKIND or LEN breaks Table 2.6 (R46, R57). -/
def gatherBad (gkind len : Nat) : Bool :=
  match gkind with
  | 0 => len % 4 != 0 || decide (len < 4) || decide (256 < len)
  | 1 => decide (len < 4) || decide (256 < len)
  | 2 => len % 8 != 0 || decide (len < 8) || decide (256 < len)
  | 3 => len != 200
  | _ => true

/-- A frame that a Station drops as reserved: TYPE, DEST, GKIND, TKIND, CUT operation or ARM ACTION (R46, R57, R83, R96,
R525). -/
def reservedFrame (f : Frame) : Bool :=
  destReserved f || f.ftype == 0 || decide (12 ≤ f.ftype) ||
  (f.ftype == 6 && gatherBad (fld f.word1 32 4) f.len) ||
  (f.ftype == 7 && !(decide (1 ≤ payByte f 8) && decide (payByte f 8 ≤ 3))) ||
  (f.ftype == 9 && (payByte f 0 == 0 || decide (4 ≤ payByte f 0) ||
    (payByte f 0 == 3 && (payByte f 1 == 0 || decide (13 ≤ payByte f 1)))))

/-- The meaning of BAD_TYPE_FRAME (R46). -/
def execBadTypeFrame (die : Nat) (f : Frame) (s : State) : Host.Outcome State Fault Refusal :=
  if 100 ≤ die then .fault .noSuchUnit
  else if stnLive s.m die && reservedFrame f then .next { s with m := badType s.m die }
  else .next s

end Sys2Proof.Machine
end

