-- ==== Sys2Proof/Machine/Recovery.lean ====
section
/-! DEFINITION. Watchdogs, the escalation ladder, context epochs, job aborts, control tokens and power-cycle requests
(R420-R445, R451-R453). -/

namespace Sys2Proof.Machine

/-! ### Escalations (R424-R431) -/

/-- The escalation of a partition, or with 256 of the package. -/
def esc (m : Mach) (part : Nat) : Option Esc := Store.get none m.rcv.escs part

/-- Replace it. -/
def setEsc (m : Mach) (part : Nat) (x : Option Esc) : Mach :=
  { m with rcv := { m.rcv with escs := Store.put none m.rcv.escs part x } }

/-- Change it. -/
def updEsc (m : Mach) (part : Nat) (g : Esc → Esc) : Mach :=
  match esc m part with
  | some x => setEsc m part (some (g x))
  | none => m

/-- The scope of an escalation. -/
def escScope (m : Mach) (part : Nat) : Scope :=
  if 256 ≤ part then { kind := 5, part := 0, unit := 0, epoch := 0, parts := BitVec.allOnes 256 }
  else { kind := 4, part := part, unit := 0, epoch := BitVec.ofNat 32 (epochOf m part), parts := 1 <<< part }

/-- The partitions whose observers an escalation's events go to. -/
def escParts (part rung : Nat) : PartMap := if 256 ≤ part ∨ 4 ≤ rung then BitVec.allOnes 256 else 1 <<< part

/-- The bound of a rung in ticks (RCV_BOUNDS). -/
def rungBound (m : Mach) (rung : Nat) : Nat :=
  match rung with
  | 1 => hf m R.RCV_BOUNDS_TEARDOWN_US * 1000
  | 2 => hf m R.RCV_BOUNDS_ENGINE_US * 1000
  | 3 => hf m R.RCV_BOUNDS_PART_US * 1000
  | _ => hf m R.RCV_BOUNDS_WARM_MS * 1000000

/-- RCV_POLICY.START_RUNG; values outside 1-3 act as 1. -/
def startRung (m : Mach) : Nat :=
  let r := hf m R.RCV_POLICY_START_RUNG
  if 1 ≤ r ∧ r ≤ 3 then r else 1

/-- RCV_POLICY.CEILING; values outside 1-5 act as 5. -/
def ceilingRung (m : Mach) : Nat :=
  let r := hf m R.RCV_POLICY_CEILING
  if 1 ≤ r ∧ r ≤ 5 then r else 5

/-- The partition word of an escalation's events. -/
def escWord (part rung : Nat) : Nat := if 256 ≤ part ∨ 4 ≤ rung then 0xFFFFFFFF else part

/-- ESCALATION at the start of a rung, or at its end with the outcome (R428). -/
def escEvent (m : Mach) (part rung cause : Nat) (outcome : List Nat) : Mach :=
  raiseEv m { code := EvCode.escalation, source := hubPath m, stamp := gtcNow m,
              detail := w1 rung ++ w1 (escWord part rung) ++ w1 cause ++ outcome.flatMap w1, parts := escParts part rung, tray := true }

/-- The context epoch of a partition (R432). -/
def ctxOf (m : Mach) (part : Nat) : Nat := Store.get 0 m.rcv.ctx part

/-- Write a context epoch into every Station (R432, R434). -/
def setCtx (m : Mach) (part v : Nat) : Mach :=
  let m := { m with rcv := { m.rcv with ctx := Store.put 0 m.rcv.ctx part v } }
  (answeringDies m).foldl (fun m d =>
    let off := 0x3200 + 8 * (part / 4)
    sput m d off (setFld (sget m d off) (16 * (part % 4)) 16 v)) m

/-- Member engines of an escalation on Stations that answer, as die, Tap and engine. -/
def escEngines (m : Mach) (part : Nat) : List (Nat × Nat × Nat) := scopeMembers m (escScope m part) 0

/-- An engine counts as idle at rung 1 (R431, R432): RUNNING with an empty queue, asleep, or DARK. -/
def engIdle (m : Mach) (d p e : Nat) : Bool :=
  let x := eng m d p e
  match engState m d p e with
  | 0 => !x.work && !x.stopping
  | 5 => true
  | 7 => true
  | _ => false

/-! ### What a rung does to engines, cores and endpoints (R431, R435, Table 13.3) -/

/-- A torn-down or reset engine is idle in RUNNING with an empty queue; a step that it made is aborted. -/
def idleEngine (m : Mach) (d p e : Nat) (inReset : Bool) : Mach :=
  let x := eng m d p e
  let m := stepCheck (stepAborted m x.stepCmd) x.stepCmd
  let m := updEng (setEngState m d p e 0) d p e (fun y => { y with
    work := false, inSeq := false, lock := false, stopping := false, torn := true, inReset := inReset, stepMode := 0,
    stepCmd := 0, stopNext := false, anyBoundary := false, lateOrigin := false })
  wdtSync m d p e false

/-- Held records of a scope's Cut Buffers on a die are discarded, and its cores leave the cut (R160, R431). -/
def cutDrop (m : Mach) (d kind : Nat) (parts : PartMap) : Mach :=
  let m := (memberCores m d kind 0 parts).foldl (fun m p =>
    if cutHolds m d p then class3Sync (updCore m d p (fun c => { c with cutHeld := false })) d p else m) m
  cutLetGo ((scopePorts m d kind parts).foldl (fun m p =>
    if cutState m d p = 0 then m else emit (cutDiscard m d p) (.link d p 2)) m) d

/-- The halts of some engines of a core end; asleep ones stay asleep (R431). -/
def endHalts (m : Mach) (d p : Nat) (es : List Nat) : Mach := releaseCore m d p es 0

/-- The stop of rung 1 on one engine at T_S (R431, R432): an engine that stands at a boundary is idle now, any other
abandons its queue at its next boundary. -/
def stopEngine (m : Mach) (d p e : Nat) : Mach :=
  match engState m d p e with
  | 5 => m
  | 7 => m
  | st =>
    let x := eng m d p e
    if st = 0 ∧ !x.work ∧ !x.inSeq then updEng m d p e (fun y => { y with torn := true })
    else
      let m := stepCheck (stepAborted m x.stepCmd) x.stepCmd
      let m := updEng (setEngState m d p e 0) d p e (fun y => { y with
        stopping := true, stepMode := 0, stepCmd := 0, stopNext := false, anyBoundary := false })
      wdtSync m d p e false

/-- A rung clears every halt flag that covers a partition of its scope: the partitions' own, the job flag when its job holds one of
them, and the package flag (R113, R431). -/
def clearCovering (m : Mach) (d kind : Nat) (parts : PartMap) : Mach :=
  let m := clearFlags m d kind parts
  if kind != 4 || parts == 0 then m
  else
    let m := setSf m d R.STN_RUN_CTL_PKG_HALT 0
    class3All (if m.run.jobHaltParts &&& parts = 0 then m else setSf m d R.STN_RUN_CTL_JOB_HALT 0) d

/-- Rung 1 at T_S on a Station, for the partitions of a map: halts end, engines stop, flags and held records go. -/
def stopOn (m : Mach) (d : Nat) (parts : PartMap) : Mach :=
  let m := clearCovering m d 4 parts
  let es := scopeEngines m d 4 0 parts
  let m := (byCore es).foldl (fun m x =>
    let halted := x.2.filter (fun e => isHalted (engState m d x.1 e))
    let m := endOrphans (endHalts m d x.1 halted) [d * 128 + x.1]
    x.2.foldl (fun m e =>
      if halted.contains e then (if engState m d x.1 e = 0 then idleEngine m d x.1 e false else m)
      else stopEngine m d x.1 e) m) m
  cutDrop m d 4 parts

/-- Rung 2 on one engine: a DARK one is skipped, an asleep one is reset when its core wakes (R431). -/
def resetEngine (m : Mach) (part d p e : Nat) : Mach :=
  if engState m d p e = 7 then m
  else
    let m := endHalts m d p [e]
    if engState m d p e = 5 then updCore m d p (fun c => { c with resetPending := Nat.max c.resetPending 2 })
    else
      let m := emit (idleEngine m d p e true) (.reset d p (1 <<< e))
      updEsc (incHf m R.RCV_CNT_ENGINE_RESETS) part (fun x => { x with reset := x.reset + 1 })

/-- Clear the breakpoint and watchpoint slots of a Tap (R123, R435). -/
def clearPoints (m : Mach) (d p : Nat) : Mach :=
  let offs := (List.range 8).flatMap (fun b => [0x400 + 0x10 * b, 0x408 + 0x10 * b]) ++
    (List.range 4).flatMap (fun w => [0x480 + 0x18 * w, 0x488 + 0x18 * w, 0x490 + 0x18 * w]) ++ [0x4E0]
  let m := offs.foldl (fun m o => sput m d (tapBase p + o) 0) m
  updCore m d p (fun c => { c with brkSess := [], brkSecure := 0, brkSkip := [] })

/-- Clear the breakpoints, watchpoints and Sentinel latches of a Tap (R435). -/
def clearTapWork (m : Mach) (d p : Nat) : Mach :=
  let offs := (List.range 2).flatMap (fun j => [0x808 + 0x40 * j, 0x810 + 0x40 * j, 0x818 + 0x40 * j])
  offs.foldl (fun m o => sput m d (tapBase p + o) 0) (clearPoints m d p)

/-- Rung 3 or 4 on a core: its state is undefined afterwards (Table 13.3). -/
def resetCore (m : Mach) (part d p : Nat) : Mach :=
  if coreDark m d p then m
  else
    let m := endHalts m d p [0, 1, 2, 3]
    if engState m d p 0 = 5 then updCore m d p (fun c => { c with resetPending := 3 })
    else
      let m := (List.range 4).foldl (fun m e => idleEngine m d p e true) m
      let m := emit (coreForget (clearTapWork m d p) d p) (.reset d p 15)
      updEsc m part (fun x => { x with reset := x.reset + 4 })

/-- The reset that a core owes since its sleep, applied at its wake before its first entry (R431). -/
def applyPending (m : Mach) (d p : Nat) : Mach :=
  let k := (core_ m d p).resetPending
  if k = 0 then m
  else
    let m := (List.range 4).foldl (fun m e => updEng m d p e (fun y => { y with work := false, inSeq := false, lock := false })) m
    let m := if k = 3 then coreForget (clearTapWork m d p) d p else m
    emit (updCore m d p (fun c => { c with resetPending := 0 })) (.reset d p 15)

/-- Release the flags and held records of an escalation's whole scope. -/
def clearScope (m : Mach) (part : Nat) : Mach :=
  let s := escScope m part
  (answeringDies m).foldl (fun m d => cutDrop (clearCovering m d s.kind s.parts) d s.kind s.parts) m

/-- The cores of a rung 3. -/
def rung3Cores (m : Mach) (part : Nat) (x : Esc) : List (Nat × Nat) :=
  match x.cores with
  | some l => l.map (fun c => (c / 128, c % 128))
  | none => (answeringDies m).flatMap (fun d => (memberCores m d (escScope m part).kind 0 (escScope m part).parts).map (fun p => (d, p)))

/-- Members that a rung skips because they are DARK, those on silent Stations among them (R431, R520). -/
def escDark (m : Mach) (part : Nat) (x : Esc) : Nat :=
  match x.rung, x.cores with
  | 2, _ => (x.engines.filter (fun k => engState m (k / 512) (k % 512 / 4) (k % 4) == 7 || !stnAnswers m (k / 512))).length
  | 3, some l => 4 * (l.filter (fun c => coreDark m (c / 128) (c % 128) || !stnAnswers m (c / 128))).length
  | _, _ => darkMembers m (escScope m part) 0

/-! ### Power-cycle requests (R383, R444) -/

/-- Raise POWER_CYCLE_REQUEST to the tray and to every open Session, and schedule PWR_CYCLE_REQ_N: 1 ms after the message,
or at once when the tray has no endpoint ID. -/
def powerRequest (m : Mach) (reason : Nat) (source : W32) (detail : Nat) : Mach :=
  let open_ := (m.host.sessions.filter (fun s => s.open_ && !s.closed)).map (fun s => s.sid)
  let m := raiseEv m { code := EvCode.powerCycleRequest, source := hubPath m, stamp := gtcNow m,
                       detail := w1 reason ++ [source] ++ w1 detail, named := open_, wide := false, tray := true }
  if m.pins.pwrReq || m.pins.pwrDue.isSome then m
  else
    let m := setHf (setHf m R.RCV_PWR_REASON reason) R.RCV_PWR_DETAIL detail
    if m.side.eid = 0 then
      setHf { m with pins := { m.pins with pwrReq := true } } R.RCV_STATUS_PWR_REQ 1
    else { m with pins := { m.pins with pwrDue := some (gtcNow m + 1000000) } }

/-- The meaning of PWR_CYCLE_ASSERT: the pin falls 1 ms after the message (R383). -/
def execPwrCycleAssert (s : State) : Host.Outcome State Fault Refusal :=
  match s.m.pins.pwrDue with
  | some t =>
    if t ≤ gtcNow s.m then
      .next { s with m := setHf { s.m with pins := { s.m.pins with pwrReq := true, pwrDue := none } } R.RCV_STATUS_PWR_REQ 1 }
    else .next s
  | none => .next s

/-! ### Rungs (R425-R434) -/

/-- The scope of an escalation overlaps a Stitch that is armed or capturing (R430). -/
def escWaits (m : Mach) (part : Nat) : Bool := stitchOverlaps m (escScope m part)

/-- What the start of a rung does: 1 arms the stop, 2 and 3 reset, 4 requests the warm reset, 5 the power cycle. -/
def rungAction (m : Mach) (part : Nat) (x : Esc) : Mach :=
  match x.rung with
  | 1 =>
    let m := incHf m R.RCV_CNT_TEARDOWNS
    if x.ts != 0 then m
    else
      let t := earliest m (leadOf 4)
      let s := escScope m part
      let a : Arm := { armId := 0, t := t, stitch := false, action := 12, kind := 4, flags := 0, unit := 0, parts := s.parts,
                       p0 := x.cause, p1 := 0 }
      updEsc (sendArm m 0 a (scopeDies m s)).2 part (fun y => { y with ts := t })
  | 2 =>
    let m := clearScope m part
    x.engines.foldl (fun m k =>
      if stnAnswers m (k / 512) then resetEngine m part (k / 512) (k % 512 / 4) (k % 4) else m) m
  | 3 =>
    let m := clearScope (incHf m R.RCV_CNT_PART_RESETS) part
    let m := (rung3Cores m part x).foldl (fun m c => resetCore m part c.1 c.2) m
    match x.cores with
    | some _ => m
    | none => (answeringDies m).foldl (fun m d =>
        ((scopePorts m d 4 (1 <<< part)).filter (fun p => (farEnd d p).isSome)).foldl (fun m p => emit m (.link d p 3)) m) m
  | 4 =>
    let m := clearScope (incHf m R.RCV_CNT_WARM_RESETS) part
    let m := (rung3Cores m part { x with cores := none }).foldl (fun m c => resetCore m part c.1 c.2) m
    emit m .warmReq
  | _ => powerRequest m 1 (hubPath m) (x.start % 2 ^ 32)

/-- Begin a rung: its bound runs from now, and ESCALATION tells the start (R424, R428). -/
def beginRung (m : Mach) (part rung cause : Nat) : Mach :=
  let old := (esc m part).map (fun x => x.start)
  let m := updEsc m part (fun x => { x with
    rung := rung, cause := cause, start := if rung = 5 then old.getD 0 else gtcNow m, drained := false, waitStitch := false })
  let m := updEsc m part (fun x => { x with dark := escDark m part x })
  match esc m part with
  | some x => rungAction (escEvent m part rung cause []) part x
  | none => m

/-- The package's escalation absorbs every other one (R427). -/
def absorbAll (m : Mach) : Mach :=
  let others := m.rcv.escs.filterMap (fun e => if e.1 = 256 then none else e.2)
  let m := { m with rcv := { m.rcv with escs := m.rcv.escs.filter (fun e => e.1 == 256) } }
  updEsc m 256 (fun x => { x with
    cmds := x.cmds ++ others.flatMap (fun y => y.cmds), reset := x.reset + sumBy (fun y => y.reset) others,
    dropped := x.dropped + sumBy (fun y => y.dropped) others })

/-- Begin a rung of a partition's escalation; from rung 4 on it is the package's. -/
def enterRung (m : Mach) (part rung cause : Nat) : Mach :=
  if rung < 4 ∨ part = 256 then
    let m := beginRung m part rung cause
    if part = 256 ∧ rung = 4 then absorbAll m else m
  else
    match esc m part, esc m 256 with
    | some x, none => absorbAll (beginRung (setEsc (setEsc m part none) 256 (some x)) 256 rung cause)
    | some x, some _ => updEsc (setEsc m part none) 256 (fun y => { y with cmds := y.cmds ++ x.cmds })
    | none, _ => m

/-- Start or join an escalation (R425, R427, R430). -/
def startEsc (m : Mach) (part rung cause ceiling ts : Nat) (cores : Option (List Nat)) (engines cmds : List Nat) : Mach :=
  let part := if (esc m 256).any (fun x => decide (4 ≤ x.rung) && !x.waitStitch) then 256 else part
  match esc m part with
  | some _ => updEsc m part (fun x => { x with
      engines := x.engines ++ engines.filter (fun k => !x.engines.contains k), cmds := x.cmds ++ cmds })
  | none =>
    let x : Esc := { rung := rung, cause := cause, start := gtcNow m, ceiling := ceiling, ts := ts, cores := cores,
                     engines := engines, cmds := cmds, waitStitch := escWaits m part }
    let m := setEsc m part (some x)
    if x.waitStitch then m else enterRung m part rung cause

/-- Escalations that waited for a Stitch start their first rung; a stop takes a new Waypoint (R430). -/
def stitchDone (m : Mach) : Mach :=
  (m.rcv.escs.map Prod.fst).foldl (fun m part =>
    match esc m part with
    | some x => if x.waitStitch && !escWaits m part then
        enterRung (updEsc m part (fun y => { y with ts := 0 })) part x.rung x.cause else m
    | none => m) m

/-! ### Completion (R423, R442, R452) -/

/-- Reload the EXPIRED entries of an escalation's members (R423). -/
def reloadExpired (m : Mach) (part : Nat) : Mach :=
  let s := escScope m part
  (List.range 64).foldl (fun m d =>
    let ks := (stn m d).wdts.filter (fun e => e.2.expired && (256 ≤ part ||
      (memberCores m d s.kind 0 s.parts).contains (e.1 / 4)))
    ks.foldl (fun m e =>
      wdtSync (setWdt m d e.1 { e.2 with expired := false, remain := e.2.period, since := none, paused := false })
        d (e.1 / 4) (e.1 % 4) false) m) m

/-- An escalation still holds a command, or an armed abort does. -/
def escHolds (m : Mach) (id : Nat) : Bool :=
  m.rcv.escs.any (fun e => match e.2 with
    | some x => x.cmds.contains id
    | none => false) ||
  m.rcv.aborts.any (fun a => armCmd m a.1 == id)

/-- A command's escalation has ended: RESET_SCOPE completes, ABORT_JOB when its last one has (R442, R452; log entry
41). -/
def escFinish (m : Mach) (id : Nat) (x : Esc) (stuck : Bool) : Mach :=
  let m := updCmd m id (fun c => { c with
    done := Nat.max c.done x.rung, limit := c.limit || stuck, dark := c.dark + x.dark, retired := c.retired + x.reset })
  match findCmd m id with
  | none => m
  | some c =>
    if escHolds m id then m
    else
      let st := firstStatus [(c.limit, St.timeout), (c.dark != 0, St.unitDark)] St.ok
      if c.op = 0x0901 then
        let ctx := if c.scope.kind = 5 then 0 else ctxOf m c.scope.part
        finish m id st (w1 x.rung ++ w1 x.reset ++ w1 x.dark ++ w1 ctx ++ w2 x.dropped)
      else finish m id st (w2 c.t ++ w1 (partsList c.scope.parts).length ++ w1 c.done)

/-- An escalation ends: EXPIRED entries reload and its commands complete. -/
def endEsc (m : Mach) (part : Nat) (stuck : Bool) : Mach :=
  match esc m part with
  | none => m
  | some x =>
    let m := reloadExpired (setEsc m part none) part
    let m := { m with engs := m.engs.map (fun e =>
      (e.1, if e.2.torn && (256 ≤ part || partNow m (e.1 / 512) (e.1 % 512 / 4) == part) then { e.2 with torn := false } else e.2)) }
    x.cmds.foldl (fun m id => escFinish m id x stuck) m

/-- A rung has ended within its bound (R424, R428). -/
def rungDone (m : Mach) (part : Nat) (x : Esc) : Mach :=
  let m := { m with engs := m.engs.map (fun e =>
    (e.1, if e.2.inReset && (256 ≤ part || partNow m (e.1 / 512) (e.1 % 512 / 4) == part) then { e.2 with inReset := false } else e.2)) }
  let m := if x.rung = 3 ∧ part < 256 then setCtx m part ((ctxOf m part + 1) % 2 ^ 16) else m
  endEsc (escEvent m part x.rung x.cause [0]) part false

/-- The meaning of DRAIN_END: the drain of rung 1 ends when every Station reports its counters at zero, or 100 µs after T_S with
transfers outstanding; the context epoch advances (R432, R433; log entry 42). -/
def execDrainEnd (part : Nat) (s : State) : Host.Outcome State Fault Refusal :=
  let m := s.m
  match esc m part with
  | some x =>
    if x.rung = 1 ∧ !x.waitStitch ∧ !x.drained ∧ x.ts ≤ gtcNow m then
      let late := decide (x.ts + hf m R.RCV_BOUNDS_DRAIN_US * 1000 ≤ gtcNow m)
      let m := if late then
          ((answeringDies m).filter (fun d => (partsOnDie m d).getLsbD part)).foldl (fun m d =>
            let (w, m) := draw m
            if fld w 0 1 = 1 then incSf m d R.STN_RCV_DROP_DRAIN_LATE else m) m
        else m
      let m := setCtx m part ((ctxOf m part + 1) % 2 ^ 16)
      .next { s with m := updEsc m part (fun y => { y with drained := true }) }
    else .next s
  | none => .next s

/-- Every engine of a rung 1 is idle. -/
def rung1Idle (m : Mach) (part : Nat) : Bool := (escEngines m part).all (fun x => engIdle m x.1 x.2.1 x.2.2)

/-- The meaning of RUNG_END: the Stations report the rung's work done (Table 13.1). Rung 1 needs its drain ended and its
engines idle; rung 4 ends by WARM_DONE. -/
def execRungEnd (part : Nat) (s : State) : Host.Outcome State Fault Refusal :=
  let m := s.m
  match esc m part with
  | some x =>
    if !x.waitStitch ∧ ((x.rung = 1 ∧ x.drained ∧ rung1Idle m part) ∨ x.rung = 2 ∨ x.rung = 3) then
      .next { s with m := rungDone m part x }
    else .next s
  | none => .next s

/-- A rung at its bound: the escalation stops at its ceiling, or passes on (R425, R426). -/
def rungExpired (m : Mach) (part : Nat) (x : Esc) : Mach :=
  let m := escEvent m part x.rung x.cause [1]
  if x.ceiling ≤ x.rung then
    let m := raiseEv m { code := EvCode.rcvStuck, source := hubPath m, stamp := gtcNow m,
                         detail := w1 x.rung ++ w1 (escWord part x.rung) ++ w1 x.cause,
                         parts := escParts part x.rung, tray := true }
    endEsc m part true
  else
    let busy := if x.rung = 1 then
      ((escEngines m part).filter (fun y => !engIdle m y.1 y.2.1 y.2.2)).map (fun y => engKey y.1 y.2.1 y.2.2) else []
    let m := updEsc m part (fun y => { y with
      engines := y.engines ++ busy.filter (fun k => !y.engines.contains k), cores := none })
    enterRung m part (x.rung + 1) 6

/-- The meaning of RUNG_BOUND. -/
def execRungBound (part : Nat) (s : State) : Host.Outcome State Fault Refusal :=
  let m := s.m
  match esc m part with
  | some x =>
    if !x.waitStitch ∧ 1 ≤ x.rung ∧ x.rung ≤ 4 ∧ x.start + rungBound m x.rung ≤ gtcNow m then
      .next { s with m := rungExpired m part x }
    else .next s
  | none => .next s

/-- The meaning of EPOCH_ARRIVAL_DROP: an arrival that carries an older context epoch than its receiver is dropped and counted
(R433). -/
def execEpochArrivalDrop (die recv part epoch : Nat) (s : State) : Host.Outcome State Fault Refusal :=
  let m := s.m
  if 100 ≤ die ∨ 160 ≤ recv ∨ 256 ≤ part then .fault .noSuchUnit
  else
    let cur := nfld (sf m die R.STN_CTX_EPOCH (part / 4)) (16 * (part % 4)) 16
    let d := (cur + 2 ^ 16 - epoch % 2 ^ 16) % 2 ^ 16
    if stnUp m die ∧ boundTo m die recv part ∧ 1 ≤ d ∧ d < 2 ^ 15 then
      let m := incSf m die R.STN_RCV_DROP_DROPPED
      .next { s with m := updEsc m part (fun x => { x with dropped := x.dropped + 1 }) }
    else .next s

/-! ### Watchdogs (R420-R423) -/

/-- The meaning of WATCHDOG_EXPIRED: an entry that has counted to zero stops, is reported and offered to triggers, and starts or
joins an escalation (R423, R425, R427). -/
def execWatchdogExpired (die entry : Nat) (s : State) : Host.Outcome State Fault Refusal :=
  if 64 ≤ die ∨ 512 ≤ entry then .fault .noSuchUnit
  else
    let m := s.m
    let x := wdt m die entry
    let p := entry / 4
    let e := entry % 4
    if x.period ≠ 0 ∧ !x.expired ∧ x.since.isSome ∧ wdtLeft m die x = 0 then
      let part := partNow m die p
      let m := setWdt m die entry { x with remain := 0, since := none, expired := true }
      let exp := sf m die R.STN_WDT_EXP_EXP (entry / 64)
      let m := setSf m die R.STN_WDT_EXP_EXP (setBit exp (entry % 64)) (entry / 64)
      let m := stnEvent m die { code := EvCode.watchdogExpired, source := engPath m die p e, stamp := repNow m die,
                                detail := w1 x.period, parts := partBit part, onlyParts := true }
      let m := offerAll (incHf m R.RCV_CNT_EXPIRIES) 2 die (bindCore p) (repNow m die) (engPath m die p e)
      .next { s with m := startEsc m part (startRung m) 1 (ceilingRung m) 0 none [engKey die p e] [] }
    else .next s

/-- Write watchdog periods into the entries of a core and reload them (R421). -/
def setPeriods (m : Mach) (d p : Nat) (periods : List Nat) : Mach :=
  (List.range 4).foldl (fun m e =>
    let x := wdt m d (4 * p + e)
    let n := periods.getD e 0
    wdtSync (setWdt m d (4 * p + e) { x with period := n, remain := n, since := none, paused := false }) d p e false) m

/-- A Station applies the watchdog periods of a partition. -/
def applyWatchdog (m : Mach) (d part : Nat) (periods : List Nat) : Mach :=
  let m := setStnCfg m d part { stnCfg m d part with periods := periods }
  (memberCores m d 4 0 (1 <<< part)).foldl (fun m p => setPeriods m d p periods) m

/-- SET_WATCHDOG (R421, R453, R523). -/
def doSetWatchdog (m : Mach) (i : Issuer) (p : Pkt) : Mach :=
  let b := p.body
  let part := (wAt b 0).toNat
  let st := firstStatus [
    (b.length != 6 || decide (256 ≤ part), St.malformed), (decide (issLevel m i part < 2), St.notAuthorised),
    ((wAt b 1).toNat != epochOf m part, St.bindingMoved)] St.ok
  if st != 0 then answer m i 0x0903 p.cookie st []
  else
    let m := setHubCfg m part { hubCfg m part with periods := [(wAt b 2).toNat, (wAt b 3).toNat, (wAt b 4).toNat, (wAt b 5).toNat] }
    startConfig m i 0x0903 p 3 part (w64At b 2) (w64At b 4)

/-- The meaning of SET_WATCHDOG. -/
def execSetWatchdog (p : Pkt) (s : State) : Host.Outcome State Fault Refusal :=
  hostRow 0x0903 p s (fun m i => doSetWatchdog m i p)

/-! ### RESET_SCOPE, REQUEST_POWER_CYCLE (R451-R453) -/

/-- The rung and scope kind agree with Table 13.8. -/
def rungKindOk (rung kind : Nat) : Bool :=
  match rung with
  | 1 => kind == 4
  | 2 => kind == 0 || kind == 1 || kind == 4
  | 3 => kind == 1 || kind == 4
  | 4 => kind == 5
  | _ => false

/-- A RESET_SCOPE that has passed its checks starts the escalation of its scope at its rung with cause 2 (R424, R425, R452). -/
def startReset (m : Mach) (i : Issuer) (p : Pkt) (s : Scope) (rung ceiling : Nat) : Mach :=
  let (c, m) := newCmd m i 0x0901 p.cookie p.body s
  let part := if s.kind = 5 then 256 else s.part
  let d := upDie s.unit
  let es := if rung = 2 then
      (if s.kind = 4 then (escEngines m s.part).map (fun x => engKey x.1 x.2.1 x.2.2)
       else (scopeEngines m d s.kind s.unit s.parts).map (fun x => engKey d x.1 x.2)) else []
  let cores := if rung = 3 ∧ s.kind = 1 then some ((memberCores m d 1 s.unit s.parts).map (fun k => d * 128 + k)) else none
  startEsc m part rung 2 ceiling 0 cores es [c.id]

/-- RESET_SCOPE. -/
def doResetScope (m : Mach) (i : Issuer) (p : Pkt) : Mach :=
  let b := p.body
  let s := scopeAt m b 0
  let w := (wAt b 4).toNat
  let rung := nfld w 0 3
  let own := nbit w 3
  let high := (esc m 256).any (fun x => !x.waitStitch)
  let st := firstStatus [
    (b.length != 5 || !scopeOk m b 0 || decide (16 ≤ w) || !rungKindOk rung s.kind, St.malformed),
    (scopeDark m s, St.unitDark), (!scopeLevel m i s 2 && !trayAdmits i, St.notAuthorised), (scopeMoved m s, St.bindingMoved),
    (rung == 4 && high, St.busy)] St.ok
  if st != 0 then answer m i 0x0901 p.cookie st []
  else startReset m i p s rung (if own then rung else ceilingRung m)

/-- The meaning of RESET_SCOPE. -/
def execResetScope (p : Pkt) (s : State) : Host.Outcome State Fault Refusal :=
  hostRow 0x0901 p s (fun m i => doResetScope m i p)

/-- REQUEST_POWER_CYCLE. -/
def doRequestPowerCycle (m : Mach) (i : Issuer) (p : Pkt) : Mach :=
  let st := firstStatus [
    (p.body.length != 2 || (wAt p.body 0).toNat != 1, St.malformed), (!pkgLevel m i 2 && !trayAdmits i && i.origin != .firmware, St.notAuthorised)] St.ok
  if st != 0 then answer m i 0x0904 p.cookie st []
  else
    let reason := match i.port with
      | .sideband => 3
      | .firmware => 4
      | _ => 2
    answer (powerRequest m reason (hubPath m) (wAt p.body 1).toNat) i 0x0904 p.cookie St.ok []

/-- The meaning of REQUEST_POWER_CYCLE. -/
def execRequestPowerCycle (p : Pkt) (s : State) : Host.Outcome State Fault Refusal :=
  hostRow 0x0904 p s (fun m i => doRequestPowerCycle m i p)

/-! ### Job abort (R440-R442) -/

/-- Arm the stop of an abort on every Station; a late one stops at once. -/
def armAbort (m : Mach) (cmd : Nat) (job : W32) (t origin : Nat) (late : Bool) : Mach :=
  let parts := (jobParts m job).getD 0
  let a : Arm := { armId := 0, t := if late then 0 else t, stitch := false, action := 12, kind := 6, flags := 0, unit := job, parts := parts,
                   p0 := 4, p1 := 0 }
  let m := { m with rcv := { m.rcv with aborts := m.rcv.aborts ++ [(m.nextId, job.toNat, t, origin, late)] } }
  (sendArm m cmd a (presentDies m)).2

/-- The abort of an arm starts: JOB_ABORT goes to the Sessions of the job's partitions, and rung 1 starts on each (R440,
R441). -/
def abortStarts (m : Mach) (armId cmd t : Nat) (parts : PartMap) : Mach :=
  match m.rcv.aborts.find? (fun x => x.1 == armId) with
  | none => m
  | some (_, job, tok, origin, late) =>
    let m := { m with rcv := { m.rcv with aborts := m.rcv.aborts.filter (fun x => x.1 != armId) } }
    let ts := if t = 0 then gtcNow m else t
    let m := raiseEv m { code := EvCode.jobAbort, source := hubPath m, stamp := gtcNow m,
                         detail := w1 job ++ w2 tok ++ w1 origin ++ w1 (b2n late), parts := parts }
    let cmds := if cmd = 0 then [] else [cmd]
    (partsList parts).foldl (fun m q => startEsc m q 1 4 (ceilingRung m) ts none [] cmds) m

/-- The partitions of a stop arm whose escalation is at a rung 1 that does not wait. -/
def stopParts (m : Mach) (parts : PartMap) : PartMap :=
  ((partsList parts).filter (fun q => (esc m q).any (fun x => x.rung == 1 && !x.waitStitch))).foldl
    (fun acc q => acc ||| (1 <<< q)) 0

/-- Action 0x0C fires on a Station. -/
def actStop (m : Mach) (d : Nat) (a : Arm) : Mach :=
  let m := if a.kind = 6 then abortStarts m a.armId (armCmd m a.armId) a.t a.parts else m
  stopOn m d (stopParts m a.parts)

/-- ABORT_JOB (R440, R453). -/
def doAbortJob (m : Mach) (i : Issuer) (p : Pkt) : Mach :=
  let job := wAt p.body 0
  let t := w64At p.body 1
  let lead := leadOf 6
  let held := jobParts m job
  let dies := presentDies m
  let allowed := trayAdmits i || (match held with
    | some ps => (partsList ps).all (fun q => decide (2 ≤ issLevel m i q))
    | none => false)
  let st := firstStatus [
    (p.body.length != 3 || hf m R.HUB_PKG_IN_JOB == 0 || tooFar m t, St.malformed), (!allowed, St.notAuthorised),
    (held.isSome && !slotsFree m dies 1, St.busy), (tooEarly m lead t, St.timeout)] St.ok
  if st != 0 then answer m i 0x0902 p.cookie st (waypointDetail m st lead)
  else
    let at_ := resolveT m lead t
    let m := (originate m 1 job at_ []).2
    match held with
    | none => answer m i 0x0902 p.cookie St.ok (w2 at_ ++ w1 0 ++ w1 0)
    | some ps =>
      let (c, m) := newCmd m i 0x0902 p.cookie p.body { kind := 6, part := 0, unit := job, epoch := 0, parts := ps }
      armAbort (updCmd m c.id (fun x => { x with t := at_ })) c.id job at_ (pkgNum m) false

/-- The meaning of ABORT_JOB. -/
def execAbortJob (p : Pkt) (s : State) : Host.Outcome State Fault Refusal :=
  hostRow 0x0902 p s (fun m i => doAbortJob m i p)

/-! ### Control tokens (R437-R443) -/

/-- A control token as its bytes spell it. -/
structure Token where
  ttype : Nat
  void : Bool
  origin : Nat
  hops : Nat
  job : W32
  seq : Nat
  t : Nat
  payload : List Byte
  deriving DecidableEq, Repr

/-- Read a token; none when its length or CRC fails (R437). -/
def tokenOf (b : List Byte) : Option Token :=
  let n := bytesAt b 20 2
  if b.length = 36 + n ∧ n ≤ 4096 ∧ crc32c (b.take (32 + n)) = bytesAt b (32 + n) 4 then
    some { ttype := bytesAt b 0 1, void := nbit (bytesAt b 1 1) 0, origin := bytesAt b 2 1, hops := bytesAt b 3 1,
           job := BitVec.ofNat 32 (bytesAt b 4 4), seq := bytesAt b 8 4, t := bytesAt b 12 8, payload := (b.drop 32).take n }
  else none

/-- The bytes of a token with one hop more. -/
def tokenHop (b : List Byte) : List Byte :=
  let n := bytesAt b 20 2
  let h := patch (b.take (32 + n)) 3 [BitVec.ofNat 8 (Nat.min 255 (bytesAt b 3 1 + 1))]
  h ++ leBytes 4 (crc32c h)

/-- Forward a token on every port of the job fabric but the one it came by (R438). -/
def forwardToken (m : Mach) (d p : Nat) (b : List Byte) : Mach :=
  emits m (((fabricPorts m).filter (fun x => x != (d, p))).map (fun x => .token x.1 x.2 (tokenHop b)))

/-- The arrival of a token of one TYPE by a port: CRC, repeats and the counters (R438). An instance that has
failed takes none. -/
def tokenRow (die port : Nat) (b : List Byte) (ty : Nat) (s : State) (g : Mach → Token → Mach) :
    Host.Outcome State Fault Refusal :=
  if 100 ≤ die ∨ portsOf die ≤ port ∨ (farEnd die port).isSome then .fault .noSuchUnit
  else if hubStopped s.m then .next s
  else
    match tokenOf b with
    | none => .next { s with m := incHf s.m R.RCV_JOB_BAD }
    | some t =>
      if t.ttype != ty || s.m.rcv.seen.contains (t.origin, t.seq) then .next s
      else
        let m := { s.m with rcv := { s.m.rcv with seen := s.m.rcv.seen ++ [(t.origin, t.seq)] } }
        .next { s with m := g (incHf m R.RCV_JOB_RECEIVED) t }

/-- The meaning of ABORT_TOKEN: forwarded, and acted on for a job that the hub holds (R438-R441). -/
def execAbortToken (die port : Nat) (token : List Byte) (s : State) : Host.Outcome State Fault Refusal :=
  tokenRow die port token 1 s fun m t =>
    let m := forwardToken m die port token
    if (jobParts m t.job).isNone then m
    else if gtcNow m < t.t then armAbort m 0 t.job t.t t.origin false
    else armAbort (incHf m R.RCV_JOB_LATE) 0 t.job t.t t.origin true

/-- The list of a peer joins that of a FIRST_FAULT which has not completed (R246; log entry 44): its record carries RETURNED, DIES,
TOTAL and the earliest stamp, then the list with its header. -/
def mergeFaultList (m : Mach) (job : W32) (t sid : Nat) (cookie : W64) (rc : List W32) : Mach :=
  match m.cmds.find? (fun c => c.op == 0x0504 && c.scope.kind == 6 && c.scope.unit == job && c.t == t && c.sid == sid &&
      c.cookie == cookie) with
  | some c =>
    if 19 ≤ rc.length ∧ rc.length = 19 + 8 * (wAt rc 9).toNat then
      updCmd m c.id (fun x => { x with
        retired := x.retired + (wAt rc 10).toNat, done := x.done + w64At rc 11, data := x.data ++ wordsBytes (rc.drop 19) })
    else m
  | none => m

/-- The meaning of RESULT_TOKEN: raised as JOB_RESULT to the Session that issued the command while it is open, or forwarded
toward the origin of that command (R438, R443). -/
def execResultToken (die port : Nat) (token : List Byte) (s : State) : Host.Outcome State Fault Refusal :=
  tokenRow die port token 3 s fun m t =>
    let rc := bytesWords t.payload
    let cookie := BitVec.ofNat 64 (w64At rc 2)
    match m.rcv.sent.find? (fun x => x.1 == t.job && x.2.1 == t.t && x.2.2.2 == cookie) with
    | some (_, _, sid, ck) =>
      raiseEv (mergeFaultList m t.job t.t sid ck rc) {
        code := EvCode.jobResult, source := wAt rc 8, stamp := gtcNow m, detail := rc, named := [sid], wide := false,
        cookie := ck, voidFlag := t.void }
    | none =>
      match m.rcv.arrived.find? (fun a => a.1 == t.job && a.2.1 == t.t && a.2.2.1 == cookie) with
      | some a => emit m (.token a.2.2.2.1 a.2.2.2.2 (tokenHop token))
      | none => m

end Sys2Proof.Machine
end

