-- ==== Sys2Proof/Machine/Hamper.lean ====
section
/-! DEFINITION. The Hamper: its areas and their allocation, what a region contributes to a Quire, the plan of a Stitch, and
the bytes of Quire indexes and Colophons (R142, R151, R153, R167-R175). -/

namespace Sys2Proof.Machine

/-! ### Areas (Table 5.4) -/

def indexOffset (slot q : Nat) : Nat := (4 * slot + q) * 262144
def colophonOffset (slot : Nat) : Nat := 0x00800000 + slot * 262144
def captureOffset : Nat := 0x00A00000
def pressedOffset : Nat := 0x2AA00000
def overflowOffset : Nat := 0x2EA00000
def spillOffset : Nat := 0x2FA00000

/-- Folios of the CAPTURE area, units of 512 bytes of PRESSED, Folios of OVERFLOW. -/
def captureFolios : Nat := 672 * 256
def pressedUnits : Nat := 64 * 2048
def overflowFolios : Nat := 4096

/-- The stack is trained and its Hamper usable: its Station answers and some channel is trained (R404; log entry 31). -/
def stackTrained (m : Mach) (s : Nat) : Bool :=
  stnAnswers m (64 + s) && (List.range 16).any (fun c => sf m (64 + s) R.STN_BUP_CHAN_UP c == 1)

/-- The stack and the position of a die's Quire (R153, R167). -/
def quireDest (d : Nat) : Nat × Nat :=
  if d < 64 then (d / 2, d % 2) else if d < 96 then (d - 64, 2)
  else (match d with | 96 => 2 | 97 => 19 | 98 => 30 | _ => 16, 3)

/-! ### Allocation (R168, R174, R176) -/

/-- The runs of a stack's CAPTURE area that dump slots other than `own` hold: reservations, and Folios that PRESS left. -/
def captureUsed (m : Mach) (st : Nat) (own : Option Nat) : List (Nat × Nat) :=
  (List.range 8).flatMap fun s =>
    match dump m s with
    | none => []
    | some x =>
      (if own = some s then [] else (x.reserved.filter (fun e => e.1 == st)).map Prod.snd) ++
      (x.quires.filter (fun q => q.stack == st && q.pressed.isSome)).flatMap
        (fun q => q.inPlace.map (fun n => (q.base + n, 1)))

/-- The runs of a stack's PRESSED area in use, in units of 512 bytes. -/
def pressedUsed (m : Mach) (st : Nat) : List (Nat × Nat) :=
  (List.range 8).flatMap fun s =>
    match dump m s with
    | none => []
    | some x => (x.quires.filter (fun q => q.stack == st)).filterMap
        (fun q => q.pressed.map (fun b => (b, q.folios * (8 / q.cls))))

/-- The OVERFLOW Folios of a stack in use. -/
def overflowUsed (m : Mach) (st : Nat) : List Nat :=
  (List.range 8).flatMap fun s =>
    match dump m s with
    | none => []
    | some x => (x.quires.filter (fun q => q.stack == st)).flatMap (fun q => q.overflow)

/-- The gaps between runs sorted by first unit, from `pos` to `total`. -/
def gapsFrom (total : Nat) : Nat → List (Nat × Nat) → List (Nat × Nat)
  | pos, [] => if pos < total then [(pos, total - pos)] else []
  | pos, (b, n) :: r =>
    (if pos < b then [(pos, b - pos)] else []) ++ gapsFrom total (Nat.max pos (b + n)) r

/-- The free runs of an area. -/
def freeRuns (total : Nat) (used : List (Nat × Nat)) : List (Nat × Nat) :=
  gapsFrom total 0 (sortBy (fun a b => decide (a.1 < b.1)) used)

/-- The largest run. -/
def largest (runs : List (Nat × Nat)) : Nat := runs.foldl (fun n r => Nat.max n r.2) 0

/-- The lowest-addressed run that fits n (R168). -/
def firstFit (runs : List (Nat × Nat)) (n : Nat) : Option Nat := (runs.find? (fun r => decide (n ≤ r.2))).map Prod.fst

/-- The Folios that a dump slot's reservation holds on a stack. -/
def ownFolios (m : Mach) (slot : Option Nat) (st : Nat) : Nat :=
  match slot.bind (dump m) with
  | some x => (Store.get (0, 0) x.reserved st).2
  | none => 0

/-- The space available to a Dump on a stack, in Folios (R174). An untrained stack has none (R153). -/
def available (m : Mach) (slot : Option Nat) (st : Nat) : Nat :=
  if stackTrained m st then largest (freeRuns captureFolios (captureUsed m st none)) + ownFolios m slot st else 0

/-- The Folios by which a need exceeds what a stack can give it in one run (R138 row 7, R175; log entry 33). -/
def shortOn (m : Mach) (slot : Option Nat) (st need : Nat) : Nat :=
  if need ≤ ownFolios m slot st then 0
  else if !stackTrained m st then need
  else if (firstFit (freeRuns captureFolios (captureUsed m st slot)) need).isSome then 0
  else
    let a := Nat.min (available m slot st) (largest (freeRuns captureFolios (captureUsed m st slot)))
    need - a

/-! ### What a region contributes (Table 5.3) -/

/-- One item of a Quire: the unit, its region entry fields, the Folios it takes and the bytes it holds. -/
structure CapItem where
  unit : W32
  region : Nat
  cls : Nat
  flags : Nat
  folios : Nat
  length : Nat
  core : Nat
  port : Option Nat := none
  part : Nat := 256
  deriving DecidableEq, Repr

/-- The cluster of a core holds a core that is neither a member nor hidden. -/
def clusterMixed (m : Mach) (d i : Nat) (cores : List Nat) : Bool :=
  (List.range 16).any (fun k => let c := i / 16 * 16 + k; !coreHidden m d c && !cores.contains c)

/-- A map of the partitions whose SECURE regions may be seen covers a core's partition; that of a core in the free pool, which is of no
partition, where it holds every one (log entry 89). -/
def maySee (see : PartMap) (part : Nat) : Bool := if part < 256 then see.getLsbD part else see == BitVec.allOnes 256

/-- A region of a member core: its entry flag and the bytes copied, by the first row of Table 5.3; none for row 1. `asleep` tells
whether row 2 applies. -/
def regionRow (m : Mach) (d i : Nat) (cores : List Nat) (secure : PartMap) (asleep : Bool) (e : DirEntry) :
    Option (Nat × Nat) :=
  if e.volatile then none
  else if asleep then some (0x08, 0)
  else if e.cls = 3 ∧ clusterMixed m d i cores then some (0x04, 0)
  else if e.rs then some (0x02, 0)
  else if e.secure then
    if maySee secure (partNow m d i) then some (0x40, e.size) else some (0x01, 0)
  else some (0, e.size)

/-- The items of the directory regions of a die's member cores, in Tap order; a DARK core cannot be read (log entry 34). -/
def coreItems (m : Mach) (d : Nat) (cores : List Nat) (secure : PartMap) (asleep : Nat → Bool) : List CapItem :=
  (cores.filter (fun i => !coreDark m d i)).flatMap fun i =>
    (core_ m d i).dir.filterMap fun e =>
      (regionRow m d i cores secure (asleep i) e).map fun r =>
        { unit := corePath m d i, region := e.region, cls := e.cls, flags := r.1, folios := (r.2 + 4095) / 4096,
          length := r.2, core := i, part := partNow m d i }

/-- The items of a die's Cut Buffers, in port order: each takes the Folios of its whole buffer (R174; log entry 32). -/
def portItems (m : Mach) (d : Nat) (ports : List Nat) : List CapItem :=
  ports.map fun p =>
    let b := cutBuf m d p
    { unit := portPath m d p, region := 0xFFFF, cls := 0x0F, flags := if b.inc then 0x20 else 0,
      folios := cutSize d p / 4096, length := cutFill b, core := 0, port := some p }

/-- The region entries of items placed one behind the other, `room` Folios being writable: what lies past them is
TRUNCATED (R161). -/
def placeItems (room : Nat) : Nat → List CapItem → List RegionEntry
  | _, [] => []
  | off, x :: r =>
    let cut := decide (room < off + x.folios)
    { unit := x.unit, region := x.region, cls := x.cls, flags := x.flags + (if cut then 0x10 else 0), folio := off,
      length := if cut then Nat.min x.length ((room - off) * 4096) else x.length, part := x.part } ::
    placeItems room (off + x.folios) r

/-! ### Plans (R142, R153, R174) -/

/-- What a Stitch of a scope would capture of a die. -/
structure DiePlan where
  die : Nat
  folios : Nat
  deriving DecidableEq, Repr

/-- The scope has a member core, an in-scope endpoint or an in-scope channel on the die. -/
def takesPart (m : Mach) (d : Nat) (s : Scope) : Bool :=
  !(memberCores m d s.kind 0 s.parts).isEmpty || !(scopePorts m d s.kind s.parts).isEmpty ||
  !(scopeChans m d s.kind s.parts).isEmpty

/-- A core contributes no data when it is asleep and is not to be woken. -/
def planAsleep (m : Mach) (d : Nat) (wake : Bool) (i : Nat) : Bool :=
  !wake && (engState m d i 0 == 5 || engState m d i 0 == 6)

/-- The plan: the dies that take part, with the Folios of each. A Station that does not answer counts too, so that its Quire is known
to be missing (R142, R157). -/
def stitchPlan (m : Mach) (s : Scope) (secure : PartMap) (wake : Bool) : List DiePlan :=
  ((presentDies m).filter (fun d => takesPart m d s)).map fun d =>
    let cores := memberCores m d s.kind 0 s.parts
    { die := d, folios := sumBy (fun x => x.folios) (coreItems m d cores secure (planAsleep m d wake)) +
        sumBy (fun p => cutSize d p / 4096) (scopePorts m d s.kind s.parts) }

/-- The Folios that a plan needs on a stack. -/
def planNeed (pl : List DiePlan) (st : Nat) : Nat :=
  sumBy (fun x => x.folios) (pl.filter (fun x => (quireDest x.die).1 == st))

/-- The stacks on which a plan needs space. -/
def planStacks (pl : List DiePlan) : List Nat := (List.range 32).filter (fun st => decide (0 < planNeed pl st))

/-- The stacks to which some Quire of a plan goes. -/
def quireStacks (pl : List DiePlan) : List Nat :=
  (List.range 32).filter (fun st => pl.any (fun x => (quireDest x.die).1 == st))

/-- The stack with the largest shortfall, and the shortfall in bytes (R138 row 7). An untrained stack has no space for its
Quires, whatever they need. -/
def planShort (m : Mach) (slot : Option Nat) (pl : List DiePlan) : Option (Nat × Nat) :=
  (quireStacks pl).foldl (fun acc st =>
    let sh := shortOn m slot st (planNeed pl st) * 4096
    let bad := decide (0 < sh) || !stackTrained m st
    match acc with
    | none => if bad then some (st, sh) else none
    | some (s0, b) => if bad && decide (b < sh) then some (st, sh) else some (s0, b)) none

/-- The reservation of a plan: on each stack the run already held when it suffices, else the lowest run that fits. With
`shrink` a larger run is cut to the need. -/
def planReserve (m : Mach) (slot : Nat) (shrink : Bool) (pl : List DiePlan) : Store (Nat × Nat) :=
  (List.range 32).foldl (fun acc st =>
    let need := planNeed pl st
    let own := match dump m slot with
      | some x => Store.get (0, 0) x.reserved st
      | none => (0, 0)
    let run := if need ≤ own.2 then (if shrink then (if need = 0 then (0, 0) else (own.1, need)) else own)
      else ((firstFit (freeRuns captureFolios (captureUsed m st (some slot))) need).getD 0, need)
    Store.put (0, 0) acc st run) []

/-- The Quires of a plan, each with its run: one behind the other on a stack, in order of q (R168). -/
def planQuires (res : Store (Nat × Nat)) (pl : List DiePlan) : List Quire :=
  pl.map fun x =>
    let (st, q) := quireDest x.die
    let before := sumBy (fun y => y.folios) (pl.filter (fun y => (quireDest y.die).1 == st && decide ((quireDest y.die).2 < q)))
    { die := x.die, q := q, stack := st, base := (Store.get (0, 0) res st).1 + before, span := x.folios }

/-- The partitions of a scope with their epochs now, ascending (R172). -/
def scopeEpochs (m : Mach) (s : Scope) : List (Nat × Nat) :=
  let ps := if s.kind = 4 then [s.part] else if s.kind = 5 then pkgParts m else partsList s.parts
  ps.map (fun p => (p, epochOf m p))

/-! ### Index and Colophon bytes (Tables 5.5-5.11) -/

/-- The bytes of a region entry. -/
def entryBytes (e : RegionEntry) : List Byte :=
  leBytes 4 e.unit.toNat ++ leBytes 2 e.region ++ [BitVec.ofNat 8 e.cls, BitVec.ofNat 8 e.flags] ++ leBytes 4 e.folio ++
  leBytes 4 e.length

/-- Entries with REDACTED set. -/
def redactedOf (q : Quire) : Nat := (q.entries.filter (fun e => nbit e.flags 0)).length

/-- A Quire index slot's bytes, from the header to the end of the entries (R170). -/
def indexBytes (m : Mach) (slot t : Nat) (q : Quire) : List Byte :=
  let body := padTo 12288 q.hrecs.flatten ++ q.entries.flatMap entryBytes
  let head := leBytes 4 0x52495551 ++ [1, BitVec.ofNat 8 q.cls] ++ leBytes 2 q.status ++
    [BitVec.ofNat 8 slot, BitVec.ofNat 8 q.q, 0, 0] ++ leBytes 4 (diePath m q.die).toNat ++ leBytes 8 t ++ leBytes 8 q.endT ++
    leBytes 4 q.entries.length ++ leBytes 4 q.hrecs.length ++ leBytes 4 q.folios ++ leBytes 4 q.base ++
    leBytes 4 (q.pressed.getD 0xFFFFFFFF) ++ leBytes 4 (redactedOf q) ++ leBytes 4 (crc32c body)
  head ++ leBytes 4 (crc32c head) ++ body

/-- Write a Quire's index into its INDEX slot. -/
def writeIndex (m : Mach) (slot t : Nat) (q : Quire) : Mach :=
  hbmWrite m (hamperBase m q.stack + indexOffset slot q.q) (indexBytes m slot t q)

/-- The halt record of a member engine (Table 5.6); `asleep` tells that its core was asleep at the cut deadline. -/
def hrecBytes (m : Mach) (d p e : Nat) (asleep : Bool) : List Byte :=
  let st := engState m d p e
  let flags := b2n (st == 3 || tf m d p R.TAP_RUN_HREC_LATE e == 1) + 2 * tf m d p R.TAP_RUN_HREC_LOCK_HELD e +
    4 * b2n asleep + 8 * b2n (st == 7) + 16 * tf m d p R.TAP_RUN_HREC_MID_ENTRY e
  leBytes 4 (engPath m d p e).toNat ++ [BitVec.ofNat 8 (tf m d p R.TAP_RUN_HREC_REASON e), BitVec.ofNat 8 flags] ++
  leBytes 2 (tf m d p R.TAP_RUN_HREC_CLID e) ++ leBytes 4 (tf m d p R.TAP_RUN_HREC_ENTRY e) ++ zeros 4 ++
  leBytes 8 (tf m d p R.TAP_RUN_HREC_T_STAMP e)

/-- A list entry's bytes (Table 5.11). -/
def listBytes (e : ListEntry) : List Byte :=
  leBytes 4 e.unit.toNat ++ [BitVec.ofNat 8 e.kind, BitVec.ofNat 8 e.flags] ++ leBytes 2 e.aux ++ leBytes 8 e.stamp

/-- IN_WINDOW: another entry of the same kind from a different die whose stamp differs by at most 4 ticks (R98); entries
stamped while ALIGNED was 0 carry it already. -/
def inWindow (l : List ListEntry) (e : ListEntry) : Bool :=
  l.any (fun x => x.kind == e.kind && upDie x.unit != upDie e.unit && decide (x.stamp ≤ e.stamp + 4) &&
    decide (e.stamp ≤ x.stamp + 4))

/-- The list of a Colophon in the standard order, flags set (R97, R98, R173). -/
def sortedList (m : Mach) (l : List ListEntry) : List ListEntry :=
  (sortBy (fun a b => decide (a.stamp < b.stamp) || (a.stamp == b.stamp && decide (a.unit.toNat < b.unit.toNat))) l).map
    (fun e => { e with flags := (e.flags ||| b2n (inWindow l e)) ||| (2 * b2n (timeVoid m)) })

/-- The bytes of a Colophon (R172, R173), for a dump whose status, flags and list are final. -/
def colophonBytes (m : Mach) (slot : Nat) (x : Dump) (flags : Nat) (late dark : Nat) : List Byte :=
  let all := sortedList m x.listed
  let room := (262144 - 128 - 8 * x.epochs.length - 16 * x.quires.length) / 16
  let l := all.take room
  let n (k : Nat) : Nat := (all.filter (fun e => e.kind == k)).length
  let body := x.epochs.flatMap (fun e => [BitVec.ofNat 8 e.1, 0, 0, 0] ++ leBytes 4 e.2) ++
    x.quires.flatMap (fun q => leBytes 4 (diePath m q.die).toNat ++ leBytes 2 q.status ++
      [BitVec.ofNat 8 q.stack, BitVec.ofNat 8 q.q] ++ leBytes 4 q.folios ++ leBytes 4 (redactedOf q)) ++
    l.flatMap listBytes
  let notOwned := sumBy (fun q => (q.entries.filter (fun e => nbit e.flags 2)).length) x.quires
  let scope := if x.kind = 4 then x.part else if x.kind = 6 then x.job.toNat else 0
  let head := leBytes 4 0x4F4C4F43 ++ [1, BitVec.ofNat 8 x.kind] ++
    leBytes 2 (flags + 8 * b2n (decide (room < all.length))) ++
    [BitVec.ofNat 8 slot, BitVec.ofNat 8 (pkgNum m), 0, 0] ++ leBytes 4 scope ++ leBytes 8 x.t ++ leBytes 8 (gtcNow m) ++
    leBytes 8 (4096 * sumBy (fun q => q.folios) x.quires) ++ leBytes 2 x.epochs.length ++ leBytes 2 x.quires.length ++
    leBytes 4 l.length ++ leBytes 4 all.length ++ leBytes 4 late ++ leBytes 4 (n 2) ++
    leBytes 4 (sumBy redactedOf x.quires) ++ leBytes 4 (n 8) ++ leBytes 4 dark ++ leBytes 4 notOwned ++
    leBytes 2 x.status ++ zeros 42 ++ leBytes 4 (crc32c body)
  head ++ leBytes 4 (crc32c head) ++ body

end Sys2Proof.Machine
end

