-- ==== Sys2Proof/Machine/StitchCmd.lean ====
section
/-! DEFINITION. STITCH, DUMP_PLAN, RELEASE_HAMPER, PRESS, EXPORT and MIGRATE_CORE (R137-R139, R166, R174-R184, R323, R364,
R365, R524). -/

namespace Sys2Proof.Machine

/-! ### Dump handles -/

/-- The command came in a JOB_CMD token of another package. -/
def isFabric (o : Origin) : Bool :=
  match o with
  | .fabric _ _ _ _ => true
  | _ => false

/-- What the Dump field of STITCH and DUMP_PLAN names (R320, R322, R323, R364): why it fails, the slot to which the Dump
is bound, the one free slot that it may take, and whether another Session holds that slot. -/
structure DumpUse where
  bad : Bool := false
  stale : Bool := false
  denied : Bool := false
  bound : Option Nat := none
  want : Option Nat := none
  taken : Bool := false
  deriving DecidableEq, Repr

/-- The slot to which an owned Dump is bound. -/
def boundSlot (m : Mach) (sid : Nat → Bool) (h : W32) : Option Nat :=
  (List.range 8).find? (fun s => ((dump m s).map (fun x => x.handle == h && sid x.sid)).getD false)

/-- The Dump field of STITCH and DUMP_PLAN. A command of another package, or of firmware with handle 0, names no Dump. -/
def dumpUse (m : Mach) (i : Issuer) (h : W32) : DumpUse :=
  if isFabric i.origin || (i.origin == .firmware && h == 0) then { }
  else if onPort i then
    match portDumpSlot h with
    | none => { bad := h != 0, stale := true }
    | some s =>
      match dump m s with
      | none => { want := some s }
      | some x => if x.sid == i.sess && x.handle == h then { bound := some s } else { taken := true }
  else
    match dumpDescOf m h with
    | none => { stale := true }
    | some d =>
      { bad := d.bySlot || d.byJob, denied := d.owner != ownerHandle m i && i.origin != .firmware,
        bound := boundSlot m (fun x => decide (x < 2 ^ 32)) h }

/-- What the Dump field of the other dump commands names: why it fails, and the slot. An owned Dump that is bound to none has
none. -/
structure DumpName where
  bad : Bool := false
  stale : Bool := false
  denied : Bool := false
  slot : Option Nat := none
  deriving DecidableEq, Repr

/-- The Dump field of RELEASE_HAMPER, PRESS, EXPORT and MIGRATE_CORE (R320, R323, R364). -/
def dumpName (m : Mach) (i : Issuer) (h : W32) : DumpName :=
  match dumpOf m i h with
  | none => { bad := onPort i && h != 0 && (portDumpSlot h).isNone, stale := true }
  | some (referring, slot) =>
    let owner := (dumpDescOf m h).map (fun d => d.owner)
    { denied := !referring && owner != some (ownerHandle m i) && i.origin != .firmware, slot := slot }

/-- The partitions whose SECURE regions an issuer may capture or export: those over which it holds SECURE_DEBUG (Table
5.3, R166). -/
def secureMap (m : Mach) (i : Issuer) : PartMap :=
  if isFabric i.origin then 0
  else ((List.range 256).filter (fun q => decide (3 ≤ issLevel m i q))).foldl (fun acc q => acc ||| (1 <<< q)) 0

/-- The lowest free dump slot. -/
def freeDump (m : Mach) : Option Nat := (List.range 8).find? (fun s => (dump m s).isNone)

/-- The slot that a command takes or uses; none when it needs a new one and all are in use. -/
def slotFor (m : Mach) (u : DumpUse) : Option Nat :=
  match u.bound, u.want with
  | some s, _ => some s
  | none, some s => some s
  | none, none => freeDump m

/-- The Dump already holds a Stitch. -/
def holdsStitch (m : Mach) (u : DumpUse) : Bool := ((u.bound.bind (dump m)).map (fun x => x.state != 1)).getD false

/-- The detail of DOES_NOT_FIT: the stack with the largest shortfall, and the shortfall in bytes. -/
def shortDetail (x : Option (Nat × Nat)) : List W32 := w1 ((x.map Prod.fst).getD 0) ++ w2 ((x.map Prod.snd).getD 0)

/-! ### STITCH and DUMP_PLAN -/

/-- The checks of DUMP_PLAN: the status with its failure detail, the plan and the slot (R174, R175, R524). -/
def dumpPlanPlan (m : Mach) (i : Issuer) (b : List W32) : Nat × List W32 × Option Nat :=
  let s := scopeAt m b 0
  let u := dumpUse m i (wAt b 4)
  let flags := (wAt b 5).toNat
  let reserve := nbit flags 0
  let secure := secureMap m i
  let pl := stitchPlan m s secure (nbit flags 1)
  let slot := slotFor m u
  let short := planShort m slot pl
  let st := firstStatus [
    (b.length != 6 || !scopeOk m b 0 || decide (s.kind < 4) || decide (4 ≤ flags) || u.bad, St.malformed),
    (!scopeLevel m i s (if reserve then 2 else 1) || u.denied, St.notAuthorised), (scopeMoved m s, St.bindingMoved),
    (u.stale, St.staleHandle), (reserve && (holdsStitch m u || u.taken), St.busy), (reserve && slot.isNone, St.noSlot),
    (reserve && short.isSome, St.doesNotFit)] St.ok
  (st, if st = St.doesNotFit then shortDetail short else [], slot)

/-- What DUMP_PLAN tells of a plan: the bytes in all, the stacks, and for each its need and what it has free. -/
def planDetail (m : Mach) (u : DumpUse) (pl : List DiePlan) : List W32 :=
  let need (k : Nat) : Nat := 4096 * planNeed pl k
  let on := planStacks pl
  w2 (sumBy need on) ++ w1 (bitmapOf on) ++ on.flatMap (fun k => w2 (need k) ++ w2 (4096 * available m u.bound k))

/-- DUMP_PLAN (R174, R175, R524). -/
def doDumpPlan (m : Mach) (i : Issuer) (p : Pkt) : Mach :=
  let b := p.body
  let (st, bad, slot) := dumpPlanPlan m i b
  if st != 0 then answer m i 0x0306 p.cookie st bad
  else
    let s := scopeAt m b 0
    let u := dumpUse m i (wAt b 4)
    let pl := stitchPlan m s (secureMap m i) (nbit (wAt b 5).toNat 1)
    let detail := planDetail m u pl
    match nbit (wAt b 5).toNat 0, slot with
    | true, some k =>
      let x : Dump := { state := 1, kind := s.kind, part := s.part, parts := s.parts, sid := i.sess, handle := wAt b 4,
                        reserved := planReserve m k true pl, epochs := scopeEpochs m s, job := if s.kind = 6 then s.unit else 0 }
      answer (setDump m k (some x)) i 0x0306 p.cookie St.ok (w1 k ++ detail)
    | _, _ => answer m i 0x0306 p.cookie St.ok (w1 0xFFFFFFFF ++ detail)

/-- The meaning of DUMP_PLAN. -/
def execDumpPlan (p : Pkt) (s : State) : Host.Outcome State Fault Refusal :=
  hostRow 0x0306 p s (fun m i => doDumpPlan m i p)

/-- A peer refuses the Stitch of another package: JOB_STITCH_REFUSED goes to the Sessions that observe the job (R166). -/
def stitchRefused (m : Mach) (i : Issuer) (s : Scope) (st t : Nat) : Mach :=
  if isFabric i.origin then
    raiseEv m { code := EvCode.jobStitchRefused, source := hubPath m, stamp := gtcNow m,
                detail := w1 st ++ [s.unit] ++ w2 t, parts := s.parts }
  else m

/-- The partitions whose SECURE regions a STITCH captures: all of them for the Composer, else those of its issuer (Table 5.1). A peer
captures none for another package (R166). -/
def stitchSecure (m : Mach) (i : Issuer) (flags : Nat) : PartMap :=
  if nbit flags 2 && !isFabric i.origin then BitVec.allOnes 256 else secureMap m i

/-- The checks of STITCH (Table 5.1): the status with its failure detail, and the slot. -/
def stitchCheck (m : Mach) (i : Issuer) (b : List W32) : Nat × List W32 × Option Nat :=
  let s := scopeAt m b 0
  let u := dumpUse m i (wAt b 4)
  let t := w64At b 5
  let flags := (wAt b 7).toNat
  let composer := nbit flags 2
  let fab := isFabric i.origin
  let lead := leadOf s.kind
  let slot := slotFor m u
  let short := planShort m slot (stitchPlan m s (stitchSecure m i flags) (nbit flags 1))
  let st := firstStatus [
    (b.length != 8 || !scopeOk m b 0 || decide (s.kind < 4) || decide (8 ≤ flags) || u.bad || tooFar m t, St.malformed),
    (!scopeLevel m i s 2 || (composer && i.origin != .firmware && !fab) || u.denied, St.notAuthorised),
    (scopeMoved m s, St.bindingMoved), (u.stale, St.staleHandle),
    (stitchOverlaps m s || holdsStitch m u || u.taken || !slotsFree m (scopeDies m s) 1, St.busy),
    (slot.isNone, St.noSlot), (short.isSome, St.doesNotFit), (!fab && tooEarly m lead t, St.timeout)] St.ok
  (st, if st = St.doesNotFit then shortDetail short else waypointDetail m st lead, slot)

/-- A STITCH that has passed its checks begins in slot k: the reservation, the dump slot, and one ARM_STITCH to the Stations of
the scope (R139, R174). -/
def startStitch (m : Mach) (i : Issuer) (p : Pkt) (k : Nat) : Mach :=
  let b := p.body
  let s := scopeAt m b 0
  let flags := (wAt b 7).toNat
  let at_ := resolveT m (leadOf s.kind) (w64At b 5)
  let secure := stitchSecure m i flags
  let pl := stitchPlan m s secure (nbit flags 1)
  let res := planReserve m k false pl
  let (c, m) := newCmd m i 0x0301 p.cookie b s
  let m := updCmd m c.id (fun x => { x with t := at_, flags := flags, aux := [k] })
  let x : Dump := {
      state := 2, kind := s.kind, composer := nbit flags 2, part := s.part, parts := s.parts, epochs := scopeEpochs m s,
      job := if s.kind = 6 then s.unit else 0, sid := i.sess, handle := if isFabric i.origin then 0 else wAt b 4, cmd := c.id, t := at_,
      flags := flags, secure := secure, reserved := res, quires := planQuires res pl, nextGather := at_ + 8000 }
  let m := setDump m k (some x)
  let a : Arm := { armId := 0, t := at_, stitch := true, action := k, kind := s.kind, flags := flags, unit := 0,
                   parts := s.parts, p0 := 0, p1 := 0 }
  let (id, m) := sendArm m c.id a (scopeDies m s)
  let m := updCmd m c.id (fun y => { y with arms := [id] })
  (match findCmd m c.id with
   | some c => sendJobCmd m c
   | none => m)

/-- STITCH (Table 5.1, R139, R166). -/
def doStitch (m : Mach) (i : Issuer) (p : Pkt) : Mach :=
  match stitchCheck m i p.body with
  | (0, _, some k) => startStitch m i p k
  | (st, detail, _) => answer (stitchRefused m i (scopeAt m p.body 0) st (w64At p.body 5)) i 0x0301 p.cookie st detail

/-- The meaning of STITCH. -/
def execStitch (p : Pkt) (s : State) : Host.Outcome State Fault Refusal :=
  hostRow 0x0301 p s (fun m i => doStitch m i p)

/-! ### RELEASE_HAMPER -/

/-- The partitions of a dump. -/
def dumpParts (x : Dump) : List Nat := if x.kind = 4 then [x.part] else x.epochs.map Prod.fst

/-- A level over every partition of a dump (R180); firmware acts on the authority under which it was taken. -/
def dumpLevel (m : Mach) (i : Issuer) (x : Dump) (lvl : Nat) : Bool :=
  let ps := dumpParts x
  i.origin == .firmware || (if ps.isEmpty then pkgLevel m i lvl else ps.all (fun q => decide (lvl ≤ issLevel m i q)))

/-- The Stitch of a dump is between its arm and its completion. -/
def dumpBusy (x : Dump) : Bool := decide (2 ≤ x.state) && decide (x.state ≤ 4)

/-- RELEASE_HAMPER (R181, R524). The scope is not resumed, and HELD Cut Buffers stay. -/
def doReleaseHamper (m : Mach) (i : Issuer) (p : Pkt) : Mach :=
  let u := dumpName m i (wAt p.body 0)
  let x := u.slot.bind (dump m)
  let st := firstStatus [
    (p.body.length != 1 || u.bad, St.malformed), (u.stale, St.staleHandle),
    (u.denied || (x.map (fun x => !dumpLevel m i x 2)).getD false, St.notAuthorised),
    ((x.map dumpBusy).getD false, St.busy)] St.ok
  if st != 0 then answer m i 0x0304 p.cookie st []
  else
    let m := match u.slot with
      | some k => setDump m k none
      | none => m
    answer m i 0x0304 p.cookie St.ok []

/-- The meaning of RELEASE_HAMPER. -/
def execReleaseHamper (p : Pkt) (s : State) : Host.Outcome State Fault Refusal :=
  hostRow 0x0304 p s (fun m i => doReleaseHamper m i p)

/-! ### Folios of a dump -/

/-- Replace a Quire of a dump. -/
def setQuire (x : Dump) (q : Quire) : Dump :=
  { x with quires := x.quires.map (fun y => if y.die == q.die then q else y) }

/-- The bytes of Folio n of a Quire in CAPTURE. -/
def captureFolio (m : Mach) (q : Quire) (n : Nat) : List Byte :=
  hbmRead m (hamperBase m q.stack + captureOffset + 4096 * (q.base + n)) 4096

/-- The bytes of an OVERFLOW Folio. -/
def overflowFolio (m : Mach) (st k : Nat) : List Byte := hbmRead m (hamperBase m st + overflowOffset + 4096 * k) 4096

/-- The address of slot n of a pressed Quire. -/
def pressedAddr (m : Mach) (q : Quire) (run cls n : Nat) : Nat :=
  hamperBase m q.stack + pressedOffset + 512 * run + n * (4096 / cls)

/-- The Folios that an entry's data takes. -/
def entryFolios (e : RegionEntry) : Nat := (e.length + 4095) / 4096

/-- The valid bytes of Folio n: the last data Folio of a region has LENGTH mod 4,096 (R176). -/
def folioValid (q : Quire) (n : Nat) : Nat :=
  match q.entries.find? (fun e => decide (0 < e.length) && e.folio + entryFolios e == n + 1) with
  | some e => if e.length % 4096 = 0 then 4096 else e.length % 4096
  | none => 4096

/-- A Folio as captured: read from CAPTURE, decoded from its slot, or found through its stub; none when it does not decode or
its CRC fails (R177, R183). -/
def dumpFolio (m : Mach) (q : Quire) (n : Nat) : Option (List Byte) :=
  match q.pressed with
  | none => some (captureFolio m q n)
  | some run =>
    match decodeSlot (hbmRead m (pressedAddr m q run q.cls n) (4096 / q.cls)) q.cls (some n) with
    | .bytes l => some (padTo 4096 l)
    | .stub a crc =>
      let raw := if a = 0xFFFFFFFF then captureFolio m q n else overflowFolio m q.stack a
      if crc32c raw = crc then some raw else none
    | _ => none

/-! ### PRESS (R176, R177) -/

/-- What PRESS counts. -/
structure PressCount where
  folios : Nat := 0
  pressed : Nat := 0
  overflowed : Nat := 0
  inPlace : Nat := 0
  selfcheck : Nat := 0
  deriving DecidableEq, Repr

/-- The runs that the Quires of a dump take in PRESSED, one after the other: for each die its run, or the shortfall in units of
512 bytes. -/
def pressRuns (m : Mach) (cls : Nat) : List (Nat × Nat × Nat) → List Quire → List (Nat × Option Nat × Nat)
  | _, [] => []
  | took, q :: r =>
    let n := q.folios * (8 / cls)
    let used := pressedUsed m q.stack ++ (took.filter (fun e => e.1 == q.stack)).map (fun e => (e.2.1, e.2.2))
    let runs := freeRuns pressedUnits used
    match if n = 0 then some 0 else firstFit runs n with
    | some b => (q.die, some b, 0) :: pressRuns m cls ((q.stack, b, n) :: took) r
    | none => (q.die, none, n - largest runs) :: pressRuns m cls took r

/-- Press Folio n of a Quire into its slot; a refused one goes raw to OVERFLOW or stays in CAPTURE, with a stub (R177). -/
def pressFolio (slot cls run : Nat) (a : Mach × Quire × PressCount) (n : Nat) : Mach × Quire × PressCount :=
  let (m, q, k) := a
  let raw := captureFolio m q n
  let r := encodeBlock raw (folioValid q n) 0 0 cls 0 n
  let m := stnCodecCount m (64 + q.stack) r n 0 slot
  let addr := pressedAddr m q run cls n
  let k := { k with folios := k.folios + 1 }
  match r with
  | .slot bytes _ => (hbmWrite m addr bytes, q, { k with pressed := k.pressed + 1 })
  | _ =>
    let k := if r = .selfcheckFail then { k with selfcheck := k.selfcheck + 1 } else k
    let used := overflowUsed m q.stack ++ q.overflow
    let free := (List.range overflowFolios).find? (fun f => !used.contains f)
    let stub := [BitVec.ofNat 8 0x5A, 0, 0, 0] ++ leBytes 4 (free.getD 0xFFFFFFFF) ++ leBytes 4 (crc32c raw) ++ leBytes 4 n
    let m := hbmWrite m addr (padTo (4096 / cls) stub)
    match free with
    | some f =>
      (hbmWrite m (hamperBase m q.stack + overflowOffset + 4096 * f) raw, { q with overflow := q.overflow ++ [f] },
        { k with overflowed := k.overflowed + 1 })
    | none => (m, { q with inPlace := q.inPlace ++ [n] }, { k with inPlace := k.inPlace + 1 })

/-- Press one Quire: its Folios in order, then its index and its CAPTURE space. -/
def pressQuire (slot cls t : Nat) (runs : List (Nat × Option Nat × Nat)) (a : Mach × PressCount) (q : Quire) :
    Mach × PressCount :=
  let run := ((runs.find? (fun e => e.1 == q.die)).bind (fun e => e.2.1)).getD 0
  let (m, q, k) := (List.range q.folios).foldl (pressFolio slot cls run) (a.1, q, a.2)
  let q := { q with cls := cls, pressed := some run, status := if q.inPlace.isEmpty then q.status else setBit q.status 6 }
  (updDump (writeIndex m slot t q) slot (fun x => setQuire x q), k)

/-- The Quires of a dump that are not pressed yet. -/
def unpressed (x : Dump) : List Quire := x.quires.filter (fun q => q.pressed.isNone)

/-- The checks of PRESS: the status with its failure detail. -/
def pressCheck (m : Mach) (i : Issuer) (b : List W32) : Nat × List W32 :=
  let u := dumpName m i (wAt b 0)
  let x := u.slot.bind (dump m)
  let cls := (wAt b 1).toNat
  let runs := pressRuns m cls [] ((x.map unpressed).getD [])
  let short := runs.foldl (fun n e => Nat.max n e.2.2) 0
  let st := firstStatus [
    (b.length != 2 || u.bad || !(cls == 2 || cls == 4 || cls == 8), St.malformed),
    (u.stale || (x.map (fun x => decide (x.state < 2))).getD true, St.staleHandle),
    (u.denied || (x.map (fun x => !dumpLevel m i x 2)).getD false, St.notAuthorised),
    ((x.map dumpBusy).getD false, St.busy), (decide (0 < short), St.doesNotFit)] St.ok
  (st, if st = St.doesNotFit then w1 (512 * short) else [])

/-- A PRESS that has passed its checks presses each Quire in turn, and the CAPTURE reservation ends. -/
def pressDump (m : Mach) (slot cls : Nat) (x : Dump) : Mach × PressCount :=
  let (m, k) := (unpressed x).foldl (pressQuire slot cls x.t (pressRuns m cls [] (unpressed x))) (m, { })
  (incHf (updDump m slot (fun x => { x with reserved := [] })) R.STH_CNT_IN_PLACE k.inPlace, k)

/-- PRESS. A dump that is pressed already is left as it is (log entry 35). -/
def doPress (m : Mach) (i : Issuer) (p : Pkt) : Mach :=
  let b := p.body
  let u := dumpName m i (wAt b 0)
  match pressCheck m i b, u.slot, u.slot.bind (dump m) with
  | (0, _), some slot, some x =>
    let (m, k) := pressDump m slot (wAt b 1).toNat x
    answer m i 0x0302 p.cookie St.ok (w1 k.folios ++ w1 k.pressed ++ w1 k.overflowed ++ w1 k.inPlace ++ w1 k.selfcheck)
  | (st, bad), _, _ => answer m i 0x0302 p.cookie st bad

/-- The meaning of PRESS. -/
def execPress (p : Pkt) (s : State) : Host.Outcome State Fault Refusal :=
  hostRow 0x0302 p s (fun m i => doPress m i p)

/-! ### EXPORT (R178-R180, R365) -/

/-- One record of an export stream, with what the Station Codec made of its Folio: stack, result and SEQ. -/
structure ExportRec where
  bytes : List Byte
  coded : Option (Nat × Encoded × Nat) := none
  deriving DecidableEq, Repr

/-- A record of an export stream. -/
def exportRec (ty cls quire n : Nat) (data : List Byte) : List Byte :=
  [BitVec.ofNat 8 ty, BitVec.ofNat 8 cls, 0, 0] ++ leBytes 4 quire ++ leBytes 4 n ++ leBytes 4 data.length ++ data

/-- An entry whose data this issuer may not have. -/
def hiddenEntry (see : PartMap) (e : RegionEntry) : Bool := nbit e.flags 6 && !maySee see e.part

/-- A Quire as exported: SECURE entries that the issuer may not see are REDACTED with LENGTH 0 (R180). -/
def redactQuire (see : PartMap) (q : Quire) : Quire :=
  { q with entries := q.entries.map (fun e =>
      if hiddenEntry see e then { e with flags := setBit (clrBit e.flags 6) 0, length := 0 } else e) }

/-- The record of Folio n of Quire `ord`. -/
def exportFolio (m : Mach) (cls ord : Nat) (q : Quire) (n : Nat) : ExportRec :=
  match q.pressed with
  | some run =>
    { bytes := exportRec 4 q.cls ord n (hbmRead m (pressedAddr m q run q.cls n) (4096 / q.cls)) }
  | none =>
    let raw := captureFolio m q n
    if cls = 0 then { bytes := exportRec 3 0 ord n raw }
    else
      let r := encodeBlock raw (folioValid q n) 0 2 cls 0 n
      match r with
      | .slot bytes _ => { bytes := exportRec 4 cls ord n bytes, coded := some (q.stack, r, n) }
      | _ => { bytes := exportRec 3 0 ord n raw, coded := some (q.stack, r, n) }

/-- The records of a dump in order. -/
def exportRecs (m : Mach) (slot cls : Nat) (see : PartMap) (x : Dump) : List ExportRec :=
  [{ bytes := exportRec 1 0 0 0 x.colophon }] ++
  ((List.range x.quires.length).zip x.quires).flatMap (fun e =>
    let q := e.2
    let skip := (q.entries.filter (hiddenEntry see)).map (fun y => (y.folio, entryFolios y))
    let ns := (List.range q.folios).filter (fun n => !skip.any (fun r => decide (r.1 ≤ n) && decide (n < r.1 + r.2)))
    { bytes := exportRec 2 0 e.1 0 (indexBytes m slot x.t (redactQuire see q)) } :: ns.map (exportFolio m cls e.1 q)) ++
  [{ bytes := exportRec 5 0 0 0 [] }]

/-- The records from byte `start` on; none when no record begins there. The end of the stream is a boundary too. -/
def recsFrom : Nat → List ExportRec → Option (List ExportRec)
  | 0, l => some l
  | _, [] => none
  | n + 1, r :: l => if r.bytes.length ≤ n + 1 then recsFrom (n + 1 - r.bytes.length) l else none

/-- The records that fit a length. -/
def recsFitting : Nat → List ExportRec → List ExportRec
  | _, [] => []
  | n, r :: l => if r.bytes.length ≤ n then r :: recsFitting (n - r.bytes.length) l else []

/-- Count what the Station Codecs did for records. -/
def countCoded (m : Mach) (slot : Nat) (l : List ExportRec) : Mach :=
  l.foldl (fun m r => match r.coded with
    | some (st, e, n) => stnCodecCount m (64 + st) e n 2 slot
    | none => m) m

/-- The records that an EXPORT command names, in order. -/
def exportOf (m : Mach) (i : Issuer) (b : List W32) : List ExportRec :=
  let u := dumpName m i (wAt b 0)
  match u.slot, u.slot.bind (dump m) with
  | some slot, some x => exportRecs m slot (wAt b 5).toNat (secureMap m i) x
  | _, _ => []

/-- The bytes that an EXPORT may write. -/
def exportRoom (m : Mach) (i : Issuer) (b : List W32) : Nat := Nat.min (wAt b 4).toNat (bufLen m i (wAt b 1))

/-- The checks of EXPORT: the status with its failure detail. The record boundaries of a dump that still captures are those of the stream as
it stands (R524; log entry 90). -/
def exportCheck (m : Mach) (i : Issuer) (b : List W32) : Nat × List W32 :=
  let u := dumpName m i (wAt b 0)
  let x := u.slot.bind (dump m)
  let h := wAt b 1
  let start := w64At b 2
  let cls := (wAt b 5).toNat
  let room := exportRoom m i b
  let recs := exportOf m i b
  let total := sumBy (fun r => r.bytes.length) recs
  let rest := recsFrom start recs
  let badStart := if onPort i then decide (total ≤ start) else rest.isNone
  let first := (((rest.getD []).head?).map (fun r => r.bytes.length)).getD 0
  let st := firstStatus [
    (b.length != 6 || u.bad || bufMalformed i h 0 || !(cls == 0 || cls == 2 || cls == 4 || cls == 8), St.malformed),
    (u.stale || (x.map (fun x => decide (x.state < 2))).getD true || bufStale m i h, St.staleHandle),
    (u.denied || bufDenied m i h false true || (x.map (fun x => !dumpLevel m i x 2)).getD false, St.notAuthorised),
    (badStart, St.malformed), ((x.map dumpBusy).getD false, St.busy),
    (!onPort i && decide (room < first), St.doesNotFit)] St.ok
  (st, if st = St.doesNotFit then w1 (first - room) else [])

/-- EXPORT: whole records into a Buffer, or bytes into a port's reply stream. The length is that of the field or of the
buffer, whichever is less (log entry 36). -/
def doExport (m : Mach) (i : Issuer) (p : Pkt) : Mach :=
  let b := p.body
  let (st, bad) := exportCheck m i b
  if st != 0 then answer m i 0x0303 p.cookie st bad
  else
    let h := wAt b 1
    let start := w64At b 2
    let room := exportRoom m i b
    let recs := exportOf m i b
    let total := sumBy (fun r => r.bytes.length) recs
    let fit := recsFitting room ((recsFrom start recs).getD [])
    let slot := (dumpName m i (wAt b 0)).slot.getD 0
    if onPort i then
      let bytes := ((recs.flatMap (fun r => r.bytes)).drop start).take room
      let next := start + bytes.length
      answer (countCoded m slot recs) i 0x0303 p.cookie St.ok
        (w2 next ++ w1 bytes.length ++ w1 (b2n (next == total)) ++ replyData i h bytes)
    else
      let bytes := fit.flatMap (fun r => r.bytes)
      let next := start + bytes.length
      answer (bufWrite (countCoded m slot fit) i h 0 bytes) i 0x0303 p.cookie St.ok
        (w2 next ++ w1 bytes.length ++ w1 (b2n (next == total)))

/-- The meaning of EXPORT. -/
def execExportDump (p : Pkt) (s : State) : Host.Outcome State Fault Refusal :=
  hostRow 0x0303 p s (fun m i => doExport m i p)

/-! ### MIGRATE_CORE (R182, R183) -/

/-- The Quire that holds a core's halt record or an endpoint's Cut Buffer. -/
def quireOf (x : Dump) (w : W32) : Option Quire :=
  x.quires.find? (fun q =>
    if upLevel w = 1 then q.hrecs.any (fun h => (bytesAt h 0 4) / 2 ^ 10 == w.toNat / 2 ^ 10)
    else q.entries.any (fun e => e.unit == w))

/-- The halt record of engine e of a core in a Quire. -/
def hrecOf (q : Quire) (w : W32) (e : Nat) : Option (List Byte) :=
  q.hrecs.find? (fun h => bytesAt h 0 4 / 2 ^ 10 == w.toNat / 2 ^ 10 && nfld (bytesAt h 0 4) 8 2 == e)

/-- The bytes of a region entry; none when some Folio does not decode. -/
def entryData (m : Mach) (q : Quire) (e : RegionEntry) : Option (List Byte) :=
  ((List.range (entryFolios e)).foldl (fun acc n => acc.bind (fun l => (dumpFolio m q (e.folio + n)).map (l ++ ·)))
    (some [])).map (fun l => l.take e.length)

/-- The records of a captured Cut Buffer (Table 5.8). -/
def cutRecsOf : Nat → List Byte → List CutRec
  | 0, _ => []
  | fuel + 1, l =>
    if l.length < 16 then []
    else
      let n := bytesAt l 8 2
      { stamp := bytesAt l 0 8, vc := bytesAt l 10 1, err := nbit (bytesAt l 11 1) 0, bytes := (l.drop 16).take n } ::
        cutRecsOf fuel (l.drop (16 + roundUp n 16))

/-- The entries that a restore writes, with the core that gets each: those of the core itself but SHARED_MEM, and with SHARED the
SHARED_MEM of its cluster, to the core of the target's cluster whose directory lists it. -/
def restoreList (m : Mach) (q : Quire) (src dst : W32) (shared : Bool) : List (RegionEntry × Nat) :=
  let live := q.entries.filter (fun e => upLevel e.unit == 1 && !nbit e.flags 1 && !nbit e.flags 2)
  (live.filter (fun e => e.unit == src && e.cls != 3)).map (fun e => (e, upTap dst)) ++
  (if shared then
    (live.filter (fun e => e.cls == 3 && upCluster e.unit == upCluster src)).filterMap (fun e =>
      (((List.range 16).map (fun k => upCluster dst * 16 + k)).find?
        (fun k => ((regionOf m (upDie dst) k e.region).map (fun r => r.cls == 3)).getD false)).map (fun k => (e, k)))
   else [])

/-- Place the engines of the target as the source's halt records give (R112, R183; log entry 38). -/
def placeEngines (m : Mach) (q : Quire) (src dst : W32) : Mach :=
  let d := upDie dst
  let p := upTap dst
  (List.range 4).foldl (fun m e =>
    match hrecOf q src e with
    | some h =>
      let flags := bytesAt h 5 1
      let m := latchRecord m d p e 3 (bytesAt h 6 2) (bytesAt h 8 4) (repNow m d) false (nbit flags 1) (nbit flags 4)
      updEng m d p e (fun y => { y with reason := 3, lock := nbit flags 1, passBreak := false })
    | none => m) m

/-- The partition of an endpoint now: 256 for the free pool. -/
def portPart (m : Mach) (d p : Nat) : Nat :=
  if sf m d R.STN_BIND_BOUND (bindPort p) = 1 then sf m d R.STN_BIND_PART (bindPort p) else 256

/-- The freeze class 3 of an endpoint is asserted: a cut holds it, or a halt flag covers its partition, whose class 3 is FREEZE (R125,
R141, Table 4.7). -/
def portFrozen (m : Mach) (d p : Nat) : Bool :=
  let part := portPart m d p
  (cutBuf m d p).frozen || (decide (part < 256) && covered m d part && nbit (stnCfg m d part).freeze 3)

/-- The cluster of a core lies wholly in a partition, and all of it is halted; hidden cores are not part of it. -/
def clusterReady (m : Mach) (d p part : Nat) : Bool :=
  (List.range 16).all (fun k =>
    let c := p / 16 * 16 + k
    coreHidden m d c || (boundTo m d c part && coreHalted m d c))

/-- The regions of a core's directory as Table 5.12 compares them. -/
def dirShape (m : Mach) (w : W32) : List (Nat × Nat × Nat) :=
  (core_ m (upDie w) (upTap w)).dir.map (fun e => (e.region, e.cls, e.size))

/-- The dump holds a unit; one that still captures holds the members and endpoints of its Quires (R182). -/
def inDump (m : Mach) (x : Dump) (w : W32) : Bool :=
  if dumpBusy x then
    x.quires.any (fun q => q.die == upDie w) &&
    (if upLevel w = 1 then (memberCores m (upDie w) x.kind 0 x.parts).contains (upTap w)
     else (scopePorts m (upDie w) x.kind x.parts).contains (upPort w))
  else (quireOf x w).isSome

/-- Table 5.12: the status of a MIGRATE_CORE; 0 when it restores. UNIT_DARK for the target stands directly after the MALFORMED checks (R26);
the source is a unit of the dump, which was whole when it was captured, and is not held to it (log entry 91, DESIGN CHOICE). -/
def migrateStatus (m : Mach) (i : Issuer) (b : List W32) : Nat :=
  let u := dumpName m i (wAt b 0)
  let x := u.slot.bind (dump m)
  let src := wAt b 1
  let dst := wAt b 2
  let part := (wAt b 3).toNat
  let shared := (wAt b 5).toNat == 1
  let core := upLevel src == 1
  let q := x.bind (fun x => quireOf x src)
  let ents := (q.map (fun q => if core then q.entries.filter (fun e => e.unit == src ||
    (shared && e.cls == 3 && upLevel e.unit == 1 && upCluster e.unit == upCluster src)) else q.entries.filter (fun e => e.unit == src))).getD []
  let any (k : Nat) : Bool := ents.any (fun e => nbit e.flags k)
  let d := upDie dst
  let hrecs := (List.range 4).filterMap (fun e => q.bind (fun q => hrecOf q src e))
  let stale := u.stale || (x.map (fun x => decide (x.state < 2))).getD true
  firstStatus [
    (b.length != 6 || decide (256 ≤ part) || decide (2 ≤ (wAt b 5).toNat) || u.bad ||
      !((pathOk m src 1 && pathOk m dst 1) || (pathOk m src 5 && pathOk m dst 5)), St.malformed),
    (!stale && !(x.map (fun x => inDump m x src)).getD false, St.malformed),
    (core && dirShape m src != dirShape m dst, St.malformed),
    (unitDark m dst, St.unitDark), (stale, St.staleHandle),
    (u.denied || (x.map (fun x => !dumpLevel m i x 2)).getD false || decide (issLevel m i part < 2) || any 0, St.notAuthorised),
    ((wAt b 4).toNat != epochOf m part ||
      !boundTo m d (if core then bindCore (upTap dst) else bindPort (upPort dst)) part, St.bindingMoved),
    ((x.map dumpBusy).getD false ||
      (if core then (List.range 4).any (fun e => engState m d (upTap dst) e != 2) || (shared && !clusterReady m d (upTap dst) part)
       else !portFrozen m d (upPort dst)), St.busy),
    ((core && hrecs.any (fun h => nbit (bytesAt h 5 1) 2 || nbit (bytesAt h 5 1) 3)) || any 3, St.unitDark),
    (any 4, St.hamperFull), (!core && any 5, St.cutIncomplete)] St.ok

/-- Restore a core: each region, then the places of the engines. -/
def migrateCore (m : Mach) (q : Quire) (src dst : W32) (shared : Bool) : Option (Mach × Nat × Nat) :=
  let l := restoreList m q src dst shared
  (l.foldl (fun acc e => acc.bind (fun a => (entryData m q e.1).map (fun data =>
    (coreWrite a.1 (upDie dst) e.2 e.1.region 0 data, a.2.1 + 1, a.2.2 + data.length)))) (some (m, 0, 0))).map
    (fun a => (placeEngines a.1 q src dst, a.2.1, a.2.2))

/-- Restore an endpoint: what it holds is discarded, and the dump's records take its place. -/
def migratePort (m : Mach) (q : Quire) (src dst : W32) : Option (Mach × Nat × Nat) :=
  (q.entries.find? (fun e => e.unit == src)).bind fun e => (entryData m q e).map fun data =>
    let rs := cutRecsOf data.length data
    let d := upDie dst
    let p := upPort dst
    let old := cutBuf m d p
    (setCut (cutDiscard m d p) d p 4 { old with recs := rs, behind := [], inc := false }, rs.length, data.length)

/-- MIGRATE_CORE. A Folio that does not decode ends it with CRC_MISMATCH, and nothing is restored. -/
def doMigrateCore (m : Mach) (i : Issuer) (p : Pkt) : Mach :=
  let b := p.body
  let st := migrateStatus m i b
  let src := wAt b 1
  let dst := wAt b 2
  let shared := (wAt b 5).toNat == 1
  match st, ((dumpName m i (wAt b 0)).slot.bind (dump m)).bind (fun x => quireOf x src) with
  | 0, some q =>
    let skipped := (q.entries.filter (fun e => (nbit e.flags 1 || nbit e.flags 2) && (e.unit == src ||
      (shared && e.cls == 3 && upLevel e.unit == 1 && upCluster e.unit == upCluster src)))).length
    if upLevel src = 1 then
      match migrateCore m q src dst shared with
      | some (m, n, bytes) => answer m i 0x0305 p.cookie St.ok (w1 n ++ w1 skipped ++ w2 bytes ++ w1 0)
      | none => answer m i 0x0305 p.cookie St.crcMismatch []
    else
      match migratePort m q src dst with
      | some (m, n, bytes) => answer m i 0x0305 p.cookie St.ok (w1 0 ++ w1 0 ++ w2 bytes ++ w1 n)
      | none => answer m i 0x0305 p.cookie St.crcMismatch []
  | _, _ => answer m i 0x0305 p.cookie st []

/-- The meaning of MIGRATE_CORE. -/
def execMigrateCore (p : Pkt) (s : State) : Host.Outcome State Fault Refusal :=
  hostRow 0x0305 p s (fun m i => doMigrateCore m i p)

end Sys2Proof.Machine
end

