-- ==== Sys2Proof/Machine/Cut.lean ====
section
/-! DEFINITION. The cut and the capture on the Stations, and the end of a Stitch at the hub (R139-R164). -/

namespace Sys2Proof.Machine

/-! ### What a Station keeps of a Stitch -/

/-- What die d keeps of the Stitch in slot k. -/
def cap (m : Mach) (d k : Nat) : Option Cap := Store.get none (stn m d).caps k

/-- Replace it. -/
def setCap (m : Mach) (d k : Nat) (x : Option Cap) : Mach :=
  updStn m d (fun s => { s with caps := Store.put none s.caps k x })

/-- Show the progress of the Capture Engine in STN_CAP_STAT. -/
def capStat (m : Mach) (d k state : Nat) : Mach := setSf (setSf m d R.STN_CAP_STAT_STATE state) d R.STN_CAP_STAT_SLOT k

/-- Change the Quire of a die. -/
def updQuire (m : Mach) (k d : Nat) (g : Quire → Quire) : Mach :=
  updDump m k (fun x => { x with quires := x.quires.map (fun q => if q.die == d then g q else q) })

/-- The Quire of a die in a dump slot. -/
def quireAt (m : Mach) (k d : Nat) : Option Quire := (dump m k).bind (fun x => x.quires.find? (fun q => q.die == d))

/-- Add an entry to the list of a Colophon; one that die d stamps while its ALIGNED bit is 0 carries IN_WINDOW (R98). -/
def listAdd (m : Mach) (k d kind aux stamp : Nat) (unit : W32) : Mach :=
  let e : ListEntry := { unit := unit, kind := kind, aux := aux, stamp := stamp,
                         flags := if sf m d R.STN_GTC_STAT_ALIGNED = 1 then 0 else 1 }
  updDump m k (fun x => { x with listed := x.listed ++ [e] })

/-- The Session that issued the Stitch of a slot. -/
def dumpSid (m : Mach) (k : Nat) : List Nat := ((dump m k).map (fun x => [x.sid])).getD []

/-- The channels of a Stitch's scope are pinned from T on, whichever Stations act for it (R149). -/
def pinScope (m : Mach) (k : Nat) : Mach :=
  updDump m k (fun x => { x with pins := x.pins ++ ((List.range 32).flatMap (fun n =>
    (scopeChans m (64 + n) x.kind x.parts).map (fun c => (64 + n) * 16 + c))).filter (fun c => !x.pins.contains c) })

/-! ### The arm (R94, R139, R150, R164) -/

/-- An arm reaches a Station whose replica has reached T: WPT_EXPIRED, and the command knows it (R94). -/
def lateArm (m : Mach) (d : Nat) (a : Arm) : Mach :=
  let cmd := armCmd m a.armId
  let m := stnEvent m d { code := EvCode.wptExpired, source := stnPath m d, stamp := repNow m d, detail := w2 a.t,
                          parts := a.parts, named := [cmdSid m cmd] }
  armGone (updCmd m cmd (fun c => { c with late := true })) a.armId d

/-- The Station holds this arm already. -/
def armHeld (m : Mach) (d : Nat) (a : Arm) : Bool :=
  (stn m d).wpts.any (fun x => x.armId == a.armId) || (stn m d).late.contains a.armId ||
  (stn m d).caps.any (fun e => (e.2.map (fun c => c.armId == a.armId)).getD false)

/-- Keep an arm in a Waypoint slot. -/
def holdArm (m : Mach) (d : Nat) (a : Arm) : Mach :=
  let m := updStn m d (fun s => { s with wpts := s.wpts ++ [a] })
  setSf m d R.STN_GTC_STAT_WPT_PENDING (stn m d).wpts.length

/-- A buffer that still holds an earlier Stitch's records goes on recording (R150). -/
def reopenCut (m : Mach) (d k p : Nat) : Mach :=
  if cutState m d p = 4 then
    let b := cutBuf m d p
    let m := setCut m d p 1 { b with slot := k, recs := b.recs ++ b.behind, behind := [], inc := false, ext := false }
    setSf (setSf m d R.STN_CUT_STAT_MARKER 0 p) d R.STN_CUT_STAT_FULL 0 p
  else m

/-- The meaning of ARM_STITCH (R139): kept for T, or late and its Quire MISSED (R164). -/
def execArmStitch (die : Nat) (f : Frame) (fin : FrameEnd) (s : State) : Host.Outcome State Fault Refusal :=
  rxRow die f fin 9 s fun m =>
    let a := armOfPayload f.word1.toNat f.payload
    let k := a.action
    if !a.stitch || f.payload.length != 48 || decide (8 ≤ k) || armHeld m die a then m
    else if a.t ≤ repNow m die then
      let m := pinScope (updStn (lateArm m die a) die (fun x => { x with late := x.late ++ [a.armId] })) k
      match quireAt m k die with
      | some _ => listAdd (updQuire m k die (fun q => { q with status := setBit q.status 7 })) k die 5 0 (repNow m die)
                    (stnPath m die)
      | none => m
    else
      let m := capStat (holdArm m die a) die k 1
      let m := setCap m die k (some { cmd := armCmd m a.armId, armId := a.armId, t := a.t, kind := a.kind, flags := a.flags,
                                      parts := a.parts })
      (scopePorts m die a.kind a.parts).foldl (fun m p => reopenCut m die k p) m

/-! ### The cut (R140-R149) -/

/-- A Stitch fires on a Station (R140, R142, R144, R149): the members halt, the endpoints record and the channels are pinned.
A die that no reservation covers gets a Quire with no room (log entry 31). -/
def actStitch (m : Mach) (d : Nat) (a : Arm) : Mach :=
  let k := a.action
  let cmd := armCmd m a.armId
  let cores := memberCores m d a.kind 0 a.parts
  let ports := scopePorts m d a.kind a.parts
  let chans := scopeChans m d a.kind a.parts
  let m := actHalt m d { a with action := 1, flags := b2n (nbit a.flags 1), p0 := 5 }
  let first := ((dump m k).map (fun x => !x.fired)).getD false
  let m := match findCmd m cmd with
    | some c =>
      if first then pinScope (updDump m k (fun x => { x with fired := true, state := 3, epochs := scopeEpochs m c.scope })) k else m
    | none => m
  if cores.isEmpty && ports.isEmpty && chans.isEmpty && (quireAt m k d).isNone then capStat (setCap m d k none) d k 0
  else
    let m := if (quireAt m k d).isSome then m
      else updDump m k (fun x => { x with quires := sortBy (fun a b => decide (a.die < b.die)) (x.quires ++
        [{ die := d, q := (quireDest d).2, stack := (quireDest d).1 }]) })
    let m := ports.foldl (fun m p =>
      if cutState m d p = 1 then m else setCut m d p 1 { (cutBuf m d p) with slot := k }) m
    let x := (cap m d k).getD {}
    let y : Cap := { x with cmd := cmd, armId := a.armId, t := a.t, kind := a.kind, flags := a.flags, parts := a.parts,
                            fired := true, cores := cores, ports := ports, chans := chans }
    capStat (setCap m d k (some y)) d k 2

/-- The slots whose Stitch has fired on a die and satisfies a condition. -/
def capsWhere (m : Mach) (d : Nat) (g : Cap → Bool) : List Nat :=
  (List.range 8).filter (fun k => ((cap m d k).map (fun x => x.fired && g x)).getD false)

/-- Every member engine is in a halted state, asleep or DARK (R141). -/
def cutReady (m : Mach) (d : Nat) (x : Cap) : Bool :=
  x.cores.all (fun i => (List.range 4).all (fun e =>
    let st := engState m d i e
    isHalted st || st == 5 || st == 7))

/-- The port-4 links over which a die's capture moves into the Hamper: its own, and for an anchor also that of the compute die at the far
end; a memory-attach die writes its own stack (R153, R154). -/
def captureLinks (d : Nat) : List (Nat × Nat) :=
  if d < 64 then [(d, 4)]
  else if d < 96 then []
  else (d, 4) :: (match farEnd d 4 with
    | some (d', _) => [(d', 4)]
    | none => [])

/-- The capture takes its links: in frozen mode, or in shared mode one that is bound to a partition outside the scope (R4, R154). -/
def takeLinks (m : Mach) (d : Nat) (x : Cap) : Mach :=
  emits m ((captureLinks d).map (fun l =>
    let part := portPart m l.1 l.2
    .link l.1 l.2 (if decide (part < 256) && x.kind != 5 && !x.parts.getLsbD part then 6 else 4)))

/-- And gives them back. -/
def giveLinks (m : Mach) (d : Nat) : Mach := emits m ((captureLinks d).map (fun l => .link l.1 l.2 5))

/-- A die reaches its cut point (R141, R143): classes 1 and 3 of its members and endpoints are asserted, its senders owe their
markers, and its Capture Engine starts. -/
def cutAt (m : Mach) (d k : Nat) : Mach :=
  match cap m d k with
  | none => m
  | some x =>
    let late := x.cores.any (fun i => (List.range 4).any (fun e => engState m d i e == 3))
    let m := (x.cores.filter (fun i => !coreDark m d i)).foldl (fun m i =>
      let m := updCore m d i (fun c => { c with cutHeld := true })
      setTf m d i R.TAP_FRZ_ASSERTED (tf m d i R.TAP_FRZ_ASSERTED ||| 0x0A)) m
    let m := x.ports.foldl (fun m p =>
      setCut m d p (cutState m d p) { (cutBuf m d p) with frozen := true, owes := true }) m
    let m := takeLinks m d x
    let m := if late then updQuire m k d (fun q => { q with status := setBit q.status 3 }) else m
    let m := updDump m k (fun y => { y with state := 4 })
    capStat (setCap m d k (some { x with cutAt := some (repNow m d) })) d k 3

/-- The meaning of CUT_POINT. -/
def execCutPoint (die : Nat) (s : State) : Host.Outcome State Fault Refusal :=
  if 100 ≤ die then .fault .noSuchUnit
  else if !stnUp s.m die then .next s
  else
    let ks := capsWhere s.m die (fun x => x.cutAt.isNone && cutReady s.m die x)
    .next { s with m := ks.foldl (fun m k => cutAt m die k) s.m }

/-- A sender emits its cut marker behind the last packet that it had queued before the cut point and the last response to a request accepted
before T. Which clock that is, the mission fabric tells: on each clock a free value (R143; log entry 92). -/
def sendMarkers (m : Mach) : Mach :=
  let owed := m.stns.flatMap (fun s => (s.2.cuts.filter (fun c => c.2.owes)).map (fun c => (s.1, c.1)))
  owed.foldl (fun m x =>
    let (w, m) := draw m
    if fld w 0 1 = 0 then m
    else emit (setCut m x.1 x.2 (cutState m x.1 x.2) { (cutBuf m x.1 x.2) with owes := false }) (.link x.1 x.2 0)) m

/-- The port exists. -/
def portOk (d p : Nat) : Bool := decide (d < 100) && decide (p < portsOf d)

/-- The meaning of CUT_BUFFER_RECORD: a packet arrives at an endpoint (R144, R145). While the buffer records it is held, and
when it does not fit it stays with the sender; behind the marker it waits in the link's receive buffer. An anchor in a cut holds what its
external endpoints outside the scope are offered (R143). -/
def execCutBufferRecord (die port : Nat) (bytes : List Byte) (vc : Nat) (err : Bool) (s : State) :
    Host.Outcome State Fault Refusal :=
  if !portOk die port then .fault .noSuchUnit
  else
    let m := s.m
    let b := cutBuf m die port
    let st := cutState m die port
    let r : CutRec := { stamp := repNow m die, vc := vc, err := err, bytes := bytes }
    let held := decide (96 ≤ die) && (farEnd die port).isNone && dieInCut m die
    if !stnUp m die ∨ bytes.isEmpty ∨ 65536 ≤ bytes.length ∨ (st = 0 ∧ !held) ∨ st = 5 then .next s
    else if sf m die R.STN_CUT_STAT_FULL port = 1 then
      .next { s with m := setCut m die port st { b with refused := b.refused + 1 } }
    else if st = 1 then
      if cutFill b + cutRecSize r ≤ cutSize die port then
        .next { s with m := setCut m die port 1 { b with recs := b.recs ++ [r] } }
      else
        let m := setCut m die port 1 { b with refused := b.refused + 1 }
        .next { s with m := emit (setSf m die R.STN_CUT_STAT_FULL 1 port) (.link die port 1) }
    else .next { s with m := setCut m die port st { b with behind := b.behind ++ [r] } }

/-- An endpoint whose peer sends no marker: an external one, unless its peer package takes part in the job (R147). -/
def noMarker (m : Mach) (d p kind : Nat) : Bool :=
  (farEnd d p).isNone && !(kind == 6 && (fabricPorts m).contains (d, p))

/-- The meaning of CUT_MARKER: the receiver closes its Cut Buffer (R144). -/
def execCutMarker (die port : Nat) (s : State) : Host.Outcome State Fault Refusal :=
  if !portOk die port then .fault .noSuchUnit
  else
    let m := s.m
    let b := cutBuf m die port
    let x := cap m die b.slot
    if stnUp m die ∧ cutState m die port = 1 ∧ sf m die R.STN_CUT_STAT_FULL port = 0 ∧
       (x.map (fun x => x.fired && !noMarker m die port x.kind)).getD false then
      let m := setCut m die port 2 { b with closedAt := repNow m die }
      .next { s with m := setSf m die R.STN_CUT_STAT_MARKER 1 port }
    else .next s

/-- An endpoint that still records at the cut deadline (R145-R147). -/
def closeLate (m : Mach) (d k kind p : Nat) : Mach :=
  let b := cutBuf m d p
  let now := repNow m d
  if noMarker m d p kind && sf m d R.STN_CUT_STAT_FULL p == 0 then
    let m := setCut m d p 2 { b with closedAt := now, ext := true }
    let m := updQuire m k d (fun q => { q with status := setBit q.status 9 })
    listAdd m k d 3 0 now (portPath m d p)
  else
    let m := setCut m d p 3 { b with closedAt := now, inc := true }
    let m := updQuire m k d (fun q => { q with status := setBit q.status 2 })
    let m := incHf (listAdd m k d 2 0 now (portPath m d p)) R.STH_CNT_CUT_INCOMPLETE
    stnEvent m d { code := EvCode.cutOpenClosed, source := portPath m d p, stamp := now, detail := w1 k,
                   named := dumpSid m k, parts := ((dump m k).map (fun x => x.parts)).getD 0 }

/-- The channels that have not drained by the deadline: whether one has not is the surroundings' to say (log entry 42). -/
def drainCheck (m : Mach) (d k : Nat) (x : Cap) : Mach :=
  if x.chans.isEmpty then m
  else
    let (w, m) := draw m
    let late := x.chans.filter (fun c => nbit w.toNat c)
    if late.isEmpty then m
    else
      let m := updQuire m k d (fun q => { q with status := setBit q.status 10 })
      late.foldl (fun m c => listAdd m k d 4 c (repNow m d) (diePath m d)) m

/-- The cut deadline of one Stitch on a die. -/
def deadlineOf (m : Mach) (d k : Nat) : Mach :=
  match cap m d k with
  | none => m
  | some x =>
    let ports := x.ports.filter (fun p => cutState m d p == 1 && (cutBuf m d p).slot == k)
    let m := ports.foldl (fun m p => closeLate m d k x.kind p) m
    let asleep := x.cores.filter (fun i => (List.range 4).any (fun e => engState m d i e == 6))
    setCap (drainCheck m d k x) d k (some { x with deadline := true, asleep := asleep })

/-- The meaning of CUT_DEADLINE: T + 8,000 (R146-R148). -/
def execCutDeadline (die : Nat) (s : State) : Host.Outcome State Fault Refusal :=
  if 100 ≤ die then .fault .noSuchUnit
  else if !stnUp s.m die then .next s
  else
    let ks := capsWhere s.m die (fun x => !x.deadline && decide (x.t + 8000 ≤ repNow s.m die))
    .next { s with m := ks.foldl (fun m k => deadlineOf m die k) s.m }

/-! ### Capture (R151-R155, R161) -/

/-- The bytes of Cut Buffer records, numbered from n (R171). -/
def cutBytes : Nat → List CutRec → List Byte
  | _, [] => []
  | n, r :: l =>
    leBytes 8 r.stamp ++ leBytes 2 r.bytes.length ++ [BitVec.ofNat 8 r.vc, BitVec.ofNat 8 (b2n r.err)] ++ leBytes 4 n ++
    padTo (roundUp r.bytes.length 16) r.bytes ++ cutBytes (n + 1) l

/-- The bytes of an item: a region read through the Tap, or a Cut Buffer. -/
def itemBytes (m : Mach) (d : Nat) (x : CapItem) : List Byte :=
  match x.port with
  | some p => cutBytes 0 (cutBuf m d p).recs
  | none => coreRead m d x.core x.region 0 x.length

/-- Copy the items into CAPTURE, each from a Folio boundary and padded to whole Folios, as far as the room goes. -/
def copyItems (d base room : Nat) : Nat → List CapItem → Mach → Mach
  | _, [], m => m
  | off, x :: r, m =>
    let fit := Nat.min x.folios (room - off)
    let m := if fit = 0 then m else hbmWrite m (base + 4096 * off) (padTo (4096 * fit) (itemBytes m d x))
    copyItems d base room (off + x.folios) r m

/-- A core of the Stitch is asleep and may still wake before the cut deadline, which decides what it contributes (R151, R152). -/
def wakesOwed (m : Mach) (d : Nat) (x : Cap) : Bool :=
  !x.deadline && x.cores.any (fun i => (List.range 4).any (fun e => engState m d i e == 6))

/-- The endpoints of a Stitch on a die have closed. -/
def cutsClosed (m : Mach) (d : Nat) (x : Cap) : Bool := x.ports.all (fun p => cutState m d p != 1)

/-- The Capture Engine of a die finishes: regions, Cut Buffers, halt records and index (R151, R155, R161). -/
def captureDie (m : Mach) (d k : Nat) : Mach :=
  match cap m d k, dump m k, quireAt m k d with
  | some x, some dp, some q =>
    let asleep (i : Nat) : Bool := x.asleep.contains i
    let items := coreItems m d x.cores dp.secure asleep ++ portItems m d x.ports
    let room := Nat.min q.span (x.claim.getD q.span)
    let entries := placeItems room 0 items
    let folios := Nat.min room (sumBy (fun i => i.folios) items)
    let cut := entries.any (fun e => nbit e.flags 4)
    let engs := x.cores.flatMap (fun i => (List.range 4).map (fun e => (i, e)))
    let status := (((q.status ||| 1) ||| (2 * b2n cut)) ||| (16 * b2n (timeVoid m)))
    let late := engs.filter (fun y => engState m d y.1 y.2 == 3)
    let status := if late.isEmpty then status else setBit status 3
    let m := copyItems d (hamperBase m q.stack + captureOffset + 4096 * q.base) room 0 items m
    let m := late.foldl (fun m y => listAdd m k d 1 0 (tf m d y.1 R.TAP_RUN_HREC_T_STAMP y.2) (engPath m d y.1 y.2)) m
    let m := if cut then listAdd m k d 7 0 (repNow m d) (diePath m d) else m
    let q' := { q with status := status, folios := folios, endT := repNow m d, entries := entries,
                       hrecs := engs.map (fun y => hrecBytes m d y.1 y.2 (asleep y.1)) }
    let m := writeIndex (updQuire m k d (fun _ => q')) k dp.t q'
    let m := x.ports.foldl (fun m p =>
      if (cutBuf m d p).slot = k ∧ (cutState m d p = 2 ∨ cutState m d p = 3) then setCut m d p 4 (cutBuf m d p) else m) m
    setSf (capStat (setCap (giveLinks m d) d k (some { x with done := true })) d k 5) d R.STN_CAP_STAT_FOLIOS_DONE folios
  | _, _, _ => m

/-- The Quire may still be written: its Station has not been given up (R162, R164). -/
def quireOpen (m : Mach) (k d : Nat) : Bool :=
  ((quireAt m k d).map (fun q => !nbit q.status 7 && !nbit q.status 8)).getD false

/-- The meaning of CAPTURE_DONE. -/
def execCaptureDone (die : Nat) (s : State) : Host.Outcome State Fault Refusal :=
  if 100 ≤ die then .fault .noSuchUnit
  else if !stnUp s.m die then .next s
  else
    let m := s.m
    let ks := (capsWhere m die (fun x =>
      !x.done && x.cutAt.isSome && cutsClosed m die x && !wakesOwed m die x)).filter (fun k => quireOpen m k die)
    .next { s with m := ks.foldl (fun m k => captureDie m die k) m }

/-- The meaning of HAMPER_CLAIM: a row repair takes a CAPTURE Folio of a stack; the Quire that a Capture Engine has still to write
there ends at it (R161). -/
def execHamperClaim (stack folio : Nat) (s : State) : Host.Outcome State Fault Refusal :=
  if 32 ≤ stack ∨ captureFolios ≤ folio then .fault .noSuchUnit
  else
    let hits := (List.range 8).flatMap (fun k => match dump s.m k with
      | some x => if dumpBusy x then
          (x.quires.filter (fun q => q.stack == stack && decide (q.base ≤ folio) && decide (folio < q.base + q.span) &&
            ((cap s.m q.die k).map (fun c => !c.done)).getD false)).map (fun q => (k, q)) else []
      | none => [])
    let claim (m : Mach) (h : Nat × Quire) : Mach :=
      let (k, q) := h
      match cap m q.die k with
      | none => m
      | some c =>
        let n := Nat.min (folio - q.base) (c.claim.getD (folio - q.base))
        let m := setCap m q.die k (some { c with claim := some n })
        let m := incHf m R.STH_CNT_CLAIMS
        stnEvent m q.die { code := EvCode.hamperClaim, source := stnPath m q.die, stamp := repNow m q.die,
                           detail := w1 k ++ w1 stack ++ w1 folio ++ w1 (4096 * n), named := dumpSid m k,
                           parts := ((dump m k).map (fun x => x.parts)).getD 0 }
    .next { s with m := hits.foldl claim s.m }

/-! ### The end of a Stitch (R156-R159, R162) -/

/-- The engines of a dump's halt records with a flag bit (Table 5.6). -/
def hrecCount (x : Dump) (bit : Nat) : Nat :=
  sumBy (fun q => (q.hrecs.filter (fun h => nbit (bytesAt h 5 1) bit)).length) x.quires

/-- A Quire with a status bit. -/
def anyQuire (x : Dump) (bit : Nat) : Bool := x.quires.any (fun q => nbit q.status bit)

/-- A silent Station's die takes part in a Stitch: a core, an endpoint or a channel of it is in scope (R142, R520). -/
def stitchSilent (m : Mach) (c : Cmd) : Bool :=
  (presentDies m).any (fun d => silentFor m c.quiet d && takesPart m d c.scope)

/-- The completion status of a Stitch (R157). -/
def stitchStatus (m : Mach) (c : Cmd) (x : Dump) : Nat :=
  firstStatus [(foundNone m c, St.bindingMoved), (anyQuire x 8 || stitchSilent m c, St.unitDark), (anyQuire x 7, St.timeout),
    (anyQuire x 1, St.hamperFull), (anyQuire x 2, St.cutIncomplete), (anyQuire x 3, St.haltLate)] St.ok

/-- The flags of a Colophon but LIST_TRUNC (Table 5.9). -/
def colophonFlags (m : Mach) (x : Dump) (resumed : Bool) : Nat :=
  b2n (x.quires.all (fun q => nbit q.status 0)) + 2 * b2n (timeVoid m) + 4 * b2n x.failover + 16 * b2n resumed +
  32 * b2n x.composer + 64 * b2n (x.quires.any (fun q => q.entries.any (fun e => nbit e.flags 6))) + 128 * b2n (anyQuire x 7)

/-- Write a Colophon to the lowest- and highest-numbered stacks that hold a Quire (R169). -/
def writeColophon (m : Mach) (k : Nat) (x : Dump) (bytes : List Byte) : Mach :=
  let on := (List.range 32).filter (fun st => x.quires.any (fun q => q.stack == st))
  ([on.head?, on.getLast?].filterMap id).dedup.foldl (fun m st => hbmWrite m (hamperBase m st + colophonOffset k) bytes) m

/-- The Quires of Stations that are silent for the Stitch are DARK, whatever they hold (R162, R520). -/
def markDark (m : Mach) (k : Nat) (c : Cmd) : Mach :=
  updDump m k (fun y => { y with quires := y.quires.map (fun q =>
    if silentFor m c.quiet q.die && !nbit q.status 7 then { q with status := setBit (clrBit q.status 0) 8 } else q) })

/-- The body of the RESUME that the hub arms for a STITCH: its scope, T and no flag (R159, Table 4.12). -/
def resumeBody (c : Cmd) (t : Nat) : List W32 := c.body.take 4 ++ w2 t ++ w1 0

/-- The hub completes a Stitch: Quires not done are DARK, the scope resumes when that was asked and no Station is DARK, then the
Colophon and the completion (R157, R159). -/
def completeStitch (m : Mach) (k : Nat) : Mach :=
  match dump m k, (dump m k).bind (fun x => findCmd m x.cmd) with
  | some _, some c =>
    let m := markDark m k c
    let gone := (((dump m k).map (fun x => x.quires)).getD []).filter (fun q => !nbit q.status 0 && !nbit q.status 7)
    let m := gone.foldl (fun m q =>
      listAdd (updQuire m k q.die (fun y => { y with status := setBit y.status 8 })) k q.die 6 0 (gtcNow m) (stnPath m q.die)) m
    match dump m k with
    | none => m
    | some x =>
      let status := stitchStatus m c x
      let resume := nbit x.flags 0 && !anyQuire x 8 && !stitchSilent m c
      let m := if resume then
          let t := earliest m (leadOf c.scope.kind)
          startResume m { origin := .firmware, sess := c.sid, port := .firmware } c.cookie (resumeBody c t) c.scope t (cmdRoutine m c.id)
        else m
      let x := { x with state := 5, status := status }
      let late := hrecCount x 0
      let bytes := colophonBytes m k x (colophonFlags m x resume) late (hrecCount x 3 + silentMembers m c.scope c.quiet)
      let x := { x with colophon := bytes }
      let m := incHf (writeColophon (setDump m k (some x)) k x bytes) R.STH_CNT_STITCHES
      let inc := (x.listed.filter (fun e => e.kind == 2)).length
      stitchDone (finish m c.id status (w1 k ++ w2 x.t ++ w2 (4096 * sumBy (fun q => q.folios) x.quires) ++
        w1 x.quires.length ++ w1 inc ++ w1 late ++ w1 (sumBy redactedOf x.quires)))
  | _, _ => m

/-- Every Station of the Stitch is done, which counter 3 of the gather tells, or was late for its Waypoint, and no arm is out (R157,
R164). A silent Station is awaited until the deadline (log entry 74). -/
def stitchOver (m : Mach) (c : Cmd) (x : Dump) : Bool :=
  x.quires.all (fun q => nbit q.status 0 || nbit q.status 7) && !(m.run.arms.any (fun a => a.cmd == x.cmd)) &&
  c.vals.getD 3 0 == (x.quires.filter (fun q => !nbit q.status 7)).length

/-- The gather of a Stitch has returned on every ring: the hub marks what is silent, and completes when every Station is done. -/
def stitchGathered (m : Mach) (c : Cmd) : Mach :=
  let k := c.aux.headD 0
  let m := markDark m k c
  match dump m k with
  | some x => if x.cmd == c.id && stitchOver m c x then completeStitch m k else m
  | none => m

/-- The hub's gather of a Stitch: QUERY 0x10 over each ring that is up (R156, R302). -/
def gatherStitch (m : Mach) (c : Cmd) : Mach :=
  let m := updCmd m c.id (fun x => { x with vals := List.replicate 8 0, seen := 0 })
  let rings := (upRings m).filter (fun k => (scopeDies m c.scope).any (fun d => ringOf d == k))
  if rings.isEmpty then
    match findCmd m c.id with
    | some c => stitchGathered m c
    | none => m
  else rings.foldl (fun m k => gatherRing m c.id 0 0x10 32 (zeros 32) (cmdRoutine m c.id) k) m

/-- The meaning of STITCH_PROGRESS: the hub starts its gather, every 100 µs from T + 8,000, unless the one before is still out (R156,
R157, R162). -/
def execStitchProgress (slot : Nat) (s : State) : Host.Outcome State Fault Refusal :=
  match dump s.m slot with
  | some x =>
    if dumpBusy x ∧ x.nextGather ≤ gtcNow s.m then
      let due := x.nextGather + 100000 * ((gtcNow s.m - x.nextGather) / 100000 + 1)
      let m := updDump s.m slot (fun y => { y with nextGather := due })
      let m := if x.fired then m else pinScope m slot
      match findCmd m x.cmd with
      | some c => .next { s with m := if m.spine.gathers.any (fun g => g.cmd == c.id) then m else gatherStitch (markDark m slot c) c }
      | none => .next { s with m := m }
    else .next s
  | none => .next s

/-- The meaning of STITCH_DEADLINE: T + 5,000,000 (R157). -/
def execStitchDeadline (slot : Nat) (s : State) : Host.Outcome State Fault Refusal :=
  match dump s.m slot with
  | some x =>
    if dumpBusy x ∧ x.t + 5000000 ≤ gtcNow s.m then .next { s with m := completeStitch s.m slot } else .next s
  | none => .next s

/-- The eight counters that a Station adds to a STITCH_PROGRESS gather for the Stitch of a slot (R156). -/
def stitchCounters (m : Mach) (d k : Nat) : List Nat :=
  match cap m d k, quireAt m k d with
  | some x, q =>
    let ports := x.ports
    [1, b2n (x.fired && cutsClosed m d x), b2n (x.cutAt.isSome && !x.done), b2n x.done,
     b2n ((q.map (fun q => nbit q.status 1)).getD false), (ports.filter (fun p => (cutBuf m d p).inc)).length,
     (ports.filter (fun p => (cutBuf m d p).ext)).length, (q.map redactedOf).getD 0]
  | none, _ => List.replicate 8 0

/-- The slot of the Stitch in progress whose scope contains a scope (R156). -/
def stitchHolding (m : Mach) (s : Scope) : Option Nat :=
  (List.range 8).find? (fun k => match dump m k with
    | some x => dumpBusy x && (x.kind == 5 || (decide (s.kind != 5) && (s.parts &&& ~~~x.parts) == 0))
    | none => false)

end Sys2Proof.Machine
end

