-- ==== Sys2Proof/Machine/Modes.lean ====
section
/-! DEFINITION. Staged mode changes: STAGE_MODE, COMMIT_MODE, the gather at T + 2,000 and the rollback (R415-R417, R419). -/

namespace Sys2Proof.Machine

/-- The units of a class on die d that are not hidden: cores, internal link endpoints, HBM channels, Stations (R415). -/
def modeUnits (m : Mach) (d cls : Nat) : Nat :=
  match cls with
  | 0 => if d < 64 then ((List.range 128).filter (fun i => !coreHidden m d i)).length else 0
  | 1 => ((List.range (portsOf d)).filter (fun p => (farEnd d p).isSome && !portHidden m d p)).length
  | 2 => if dieKind d = 1 then ((List.range 16).filter (fun c => !chanHidden m d c)).length else 0
  | _ => if dieHidden m d then 0 else 1

/-- What die d keeps for a class. -/
def modeCfg (m : Mach) (d cls : Nat) : ModeCfg := Store.get { } (stn m d).modes cls

/-- Change it. -/
def updMode (m : Mach) (d cls : Nat) (g : ModeCfg → ModeCfg) : Mach :=
  updStn m d (fun s => { s with modes := Store.put { } s.modes cls (g (modeCfg m d cls)) })

/-- The epoch in force of a class, and the staged value with its epoch. -/
def modeEpoch (m : Mach) (cls : Nat) : Nat := Store.get 0 m.bup.modeEpoch cls
def modeStaged (m : Mach) (cls : Nat) : Option (Nat × Nat) := Store.get none m.bup.modeStaged cls

/-- Replace them. -/
def setModeEpoch (m : Mach) (cls e : Nat) : Mach :=
  { m with bup := { m.bup with modeEpoch := Store.put 0 m.bup.modeEpoch cls e } }
def setModeStaged (m : Mach) (cls : Nat) (x : Option (Nat × Nat)) : Mach :=
  { m with bup := { m.bup with modeStaged := Store.put none m.bup.modeStaged cls x } }

/-- The epoch after the one in force. -/
def nextModeEpoch (m : Mach) (cls : Nat) : Nat := (modeEpoch m cls + 1) % 2 ^ 32

/-- A COMMIT_MODE of the class is in progress. -/
def committing (m : Mach) (cls : Nat) : Bool := m.cmds.any (fun c => c.op == 0x0805 && wfld (wAt c.body 0) 0 2 == cls)

/-- A class that is split, or is being committed, takes no other command (R417). -/
def modeBusy (m : Mach) (cls : Nat) : Bool := nbit m.bup.split cls || committing m cls

/-- The whole package as a scope. -/
def packageScope : Scope := { kind := 5, part := 0, unit := 0, epoch := 0, parts := BitVec.allOnes 256 }

/-- STAGE_MODE (R415). -/
def doStageMode (m : Mach) (i : Issuer) (p : Pkt) : Mach :=
  let b := p.body
  let cls := wfld (wAt b 0) 0 2
  let cancel := nbit (wAt b 3).toNat 0
  let st := firstStatus [
    (b.length != 4 || decide (4 ≤ (wAt b 0).toNat) || decide (2 ≤ (wAt b 3).toNat), St.malformed),
    (!pkgLevel m i 2, St.notAuthorised), (modeBusy m cls, St.busy)] St.ok
  if st != 0 then answer m i 0x0804 p.cookie st []
  else
    let staged := if cancel then none else some (w64At b 1, nextModeEpoch m cls)
    let dies := (answeringDies m).filter (fun d => decide (0 < modeUnits m d cls))
    let m1 := dies.foldl (fun m d => updMode m d cls (fun x => { x with staged := staged })) (setModeStaged m cls staged)
    answer m1 i 0x0804 p.cookie St.ok
      (w1 (if cancel then 0 else nextModeEpoch m cls) ++ w1 (sumBy (fun d => modeUnits m d cls) dies))

/-- The meaning of STAGE_MODE. -/
def execStageMode (p : Pkt) (s : State) : Host.Outcome State Fault Refusal :=
  hostRow 0x0804 p s (fun m i => doStageMode m i p)

/-- COMMIT_MODE arms the staged value of a class at T (R416). -/
def doCommitMode (m : Mach) (i : Issuer) (p : Pkt) : Mach :=
  let b := p.body
  let cls := wfld (wAt b 0) 0 2
  let e := (wAt b 1).toNat
  let t := w64At b 2
  let lead := leadOf 5
  let bad := b.length != 4 || decide (4 ≤ (wAt b 0).toNat) || (modeStaged m cls).isNone || e != nextModeEpoch m cls || tooFar m t
  let st := firstStatus [
    (bad, St.malformed), (!pkgLevel m i 2, St.notAuthorised),
    (modeBusy m cls || !slotsFree m (presentDies m) 1, St.busy), (tooEarly m lead t, St.timeout)] St.ok
  if st != 0 then answer m i 0x0805 p.cookie st (waypointDetail m st lead)
  else
    let at_ := resolveT m lead t
    let (c, m) := newCmd m i 0x0805 p.cookie b packageScope
    armScope (updCmd m c.id (fun x => { x with t := at_ })) c.id packageScope at_ 10 0 cls e

/-- The meaning of COMMIT_MODE. -/
def execCommitMode (p : Pkt) (s : State) : Host.Outcome State Fault Refusal :=
  hostRow 0x0805 p s (fun m i => doCommitMode m i p)

/-- Each unit of the class on a die applies the staged value, an asleep core's in its Station (action 0x0A). -/
def actModeApply (m : Mach) (d : Nat) (a : Arm) : Mach :=
  updMode m d (a.p0 % 4) (fun x =>
    match x.staged with
    | some (v, e) =>
      if e = a.p1 then { value := v, epoch := e, prevValue := x.value, prevEpoch := x.epoch, staged := none } else x
    | none => x)

/-- Each unit of the class on a die returns to the value of an epoch (action 0x0B). -/
def actModeBack (m : Mach) (d : Nat) (a : Arm) : Mach :=
  updMode m d (a.p0 % 4) (fun x =>
    if x.epoch = a.p1 then { x with staged := none }
    else if x.prevEpoch = a.p1 then { x with value := x.prevValue, epoch := x.prevEpoch, staged := none }
    else x)

/-- The four counters of a Station for a class, against the epoch E in force (R416). -/
def modeCounters (m : Mach) (d cls : Nat) : List Nat :=
  let n := modeUnits m d cls
  let x := modeCfg m d cls
  let e := modeEpoch m cls
  let e1 := nextModeEpoch m cls
  [if x.epoch = e1 then n else 0, if x.epoch = e then n else 0, if x.epoch = e ∨ x.epoch = e1 then 0 else n,
   if x.staged.isSome then n else 0]

/-- The counters of a list of Stations. -/
def sumCounters (m : Mach) (cls : Nat) (dies : List Nat) : List Nat :=
  (List.range 4).map (fun k => sumBy (fun d => (modeCounters m d cls).getD k 0) dies)

/-- The gather after an apply: E + 1 is in force, or a rollback is armed at the earliest legal Waypoint (R417). -/
def modeApplied (m : Mach) (c : Cmd) (cls : Nat) (n : List Nat) (dark : Nat) (silent : Bool) : Mach :=
  let e1 := nextModeEpoch m cls
  if n.getD 1 0 = 0 ∧ n.getD 2 0 = 0 ∧ !silent then
    finish (setModeStaged (setModeEpoch m cls e1) cls none) c.id St.ok (w1 e1 ++ w1 (n.getD 0 0) ++ w1 0 ++ w1 0 ++ w1 0)
  else
    let at_ := earliest m (leadOf 5)
    let m := updCmd m c.id (fun x => { x with phase := 1, t := at_, vals := [n.getD 0 0, n.getD 1 0 + n.getD 2 0, dark] })
    armScope (setModeStaged m cls none) c.id packageScope at_ 11 0 cls (modeEpoch m cls)

/-- The gather after a rollback: every unit is at E, or the class is split until a package warm reset (R417). -/
def modeRolledBack (m : Mach) (c : Cmd) (cls : Nat) (n : List Nat) (dark : Nat) (silent : Bool) : Mach :=
  let whole := n.getD 0 0 == 0 && n.getD 2 0 == 0 && !silent
  let detail := w1 (modeEpoch m cls) ++ w1 (c.vals.getD 0 0) ++ w1 (c.vals.getD 1 0) ++ w1 (Nat.max dark (c.vals.getD 2 0)) ++ w1 (b2n whole)
  if whole then finish m c.id St.aborted detail
  else
    let m := { m with bup := { m.bup with split := setBit m.bup.split cls } }
    let m := raiseEv m { code := EvCode.modeSplit, source := hubPath m, stamp := gtcNow m, detail := w1 cls, named := [c.sid],
                         parts := BitVec.allOnes 256, cookie := c.cookie }
    finish m c.id St.unitDark detail

/-- The hub gathers the mode epochs of a COMMIT_MODE at T + 2,000, once its arms have gone (R416, R417). -/
def gatherMode (m : Mach) (c : Cmd) : Mach :=
  let cls := wfld (wAt c.body 0) 0 2
  let dies := presentDies m
  let up := dies.filter (fun d => stnAnswers m d)
  let n := sumCounters m cls up
  let silent := decide (up.length < dies.length)
  let dark := sumBy (fun d => modeUnits m d cls) (dies.filter (fun d => !stnAnswers m d))
  if c.phase = 0 then modeApplied m c cls n dark silent else modeRolledBack m c cls n dark silent

/-- The meaning of MODE_GATHER. -/
def execModeGather (cmd : Nat) (s : State) : Host.Outcome State Fault Refusal :=
  let m := s.m
  match findCmd m cmd with
  | some c =>
    if c.op = 0x0805 ∧ c.t + 2000 ≤ gtcNow m ∧ !(m.run.arms.any (fun a => a.cmd == cmd)) then
      .next { s with m := fenceAll (gatherMode m c) }
    else .next s
  | none => .next s

end Sys2Proof.Machine
end

