-- ==== Sys2Proof/Machine/TallyFmt.lean ====
section
/-! DEFINITION. Number formats, the exact statistics of a Tally and its record (R214-R227). -/

namespace Sys2Proof.Machine

/-! ### Formats (Tables 7.1, 7.2) -/

/-- The MX formats. -/
def isMx (f : Nat) : Bool := decide (6 ≤ f) && decide (f ≤ 11)

/-- The formats that UNSIGNED admits (R218). -/
def isInt (f : Nat) : Bool := decide (12 ≤ f) && decide (f ≤ 14)

/-- Bytes of a unit. -/
def unitBytes (f : Nat) : Nat :=
  match f with
  | 1 => 4 | 2 => 2 | 3 => 2 | 6 => 32 | 7 => 32 | 8 => 24 | 9 => 24 | 10 => 16 | 11 => 32 | 14 => 4
  | _ => 1

/-- Elements of a unit. -/
def unitElems (f : Nat) : Nat := if isMx f then 32 else if f = 13 then 2 else 1

/-- Bits of an element. -/
def elemBits (f : Nat) : Nat := 8 * unitBytes f / unitElems f

/-- The alignment of START. -/
def startAlign (f : Nat) : Nat := if isMx f then 8 else unitBytes f

/-- Exponent bits, mantissa bits and bias of a floating-point element, and its special encodings: 0 none, 1 as IEEE 754, 2 NaN at
0x7F and 0xFF alone. -/
def floatShape (f : Nat) : Nat × Nat × Nat × Nat :=
  match f with
  | 1 => (8, 23, 127, 1)
  | 2 => (8, 7, 127, 1)
  | 3 => (5, 10, 15, 1)
  | 4 => (4, 3, 7, 2)
  | 5 => (5, 2, 15, 1)
  | 6 => (4, 3, 7, 2)
  | 7 => (5, 2, 15, 1)
  | 8 => (3, 2, 3, 0)
  | 9 => (2, 3, 1, 0)
  | _ => (2, 1, 1, 0)

/-- The classes of Table 7.3. -/
inductive ElemClass where
  | nan
  | posInf
  | negInf
  | zero
  | subnormal
  | normal
  deriving DecidableEq, Repr

/-- An element: its class, its sign, and its magnitude in units of 2^-149 when it is finite. -/
structure Elem where
  cls : ElemClass
  neg : Bool := false
  mag : Nat := 0
  deriving DecidableEq, Repr

/-- A finite element from its sign, its integer significand and the power of two that scales it above 2^-149. -/
def finite (neg subnormal : Bool) (mant sh : Nat) : Elem :=
  { cls := if mant = 0 then .zero else if subnormal then .subnormal else .normal, neg := neg, mag := mant * 2 ^ sh }

/-- Classify an encoding under a scale byte, which is 127 for a format without one (R216-R219). -/
def classify (f : Nat) (uns : Bool) (bits scale : Nat) : Elem :=
  let n := elemBits f
  if isMx f ∧ scale = 255 then { cls := .nan }
  else if isInt f ∨ f = 11 then
    let neg := !uns && nbit bits (n - 1)
    let v := if neg then 2 ^ n - bits else bits
    finite neg false v (if f = 11 then 16 + scale else 149)
  else
    let (eb, mb, bias, sp) := floatShape f
    let mant := nfld bits 0 mb
    let e := nfld bits mb eb
    let neg := nbit bits (eb + mb)
    if sp = 1 ∧ e = 2 ^ eb - 1 then
      { cls := if mant ≠ 0 then .nan else if neg then .negInf else .posInf, neg := neg }
    else if sp = 2 ∧ e = 15 ∧ mant = 7 then { cls := .nan }
    else if e = 0 then finite neg true mant (150 + scale - (bias + mb + 127))
    else finite neg false (2 ^ mb + mant) (149 + e + scale - (bias + mb + 127))

/-- floor(log2 |v|) of a finite non-zero element, plus 149. -/
def log2Mag (x : Elem) : Nat := Nat.log2 x.mag

/-! ### FP64 values (R220, R223) -/

/-- The FP64 encoding of ±mag × 2^-w, rounded to nearest even; w is 149 or 298, and no result is subnormal. -/
def toF64 (neg : Bool) (mag w : Nat) : Nat :=
  let s := b2n neg * 2 ^ 63
  if mag = 0 then s
  else
    let k := Nat.log2 mag
    let mant :=
      if k ≤ 52 then mag * 2 ^ (52 - k)
      else
        let q := mag / 2 ^ (k - 52)
        let r := 2 * (mag % 2 ^ (k - 52))
        if r > 2 ^ (k - 52) ∨ (r = 2 ^ (k - 52) ∧ q % 2 = 1) then q + 1 else q
    s + (k + 1023 - w) * 2 ^ 52 + (mant - 2 ^ 52)

/-- The FP64 encoding of an element that is not NaN. -/
def elemF64 (x : Elem) : Nat :=
  match x.cls with
  | .posInf => 0x7FF0000000000000
  | .negInf => 0xFFF0000000000000
  | _ => toF64 x.neg x.mag 149

/-! ### Statistics (R219-R224) -/

/-- The place of an element in the order of R220. -/
def orderKey (x : Elem) : Int :=
  match x.cls with
  | .posInf => 2 ^ 400
  | .negInf => -(2 ^ 400)
  | _ => if x.neg then -(2 * (x.mag : Int) + 1) else 2 * (x.mag : Int)

/-- The lesser of two extremes, the lower index among equals. -/
def minExt : Option Extreme → Option Extreme → Option Extreme
  | none, b => b
  | a, none => a
  | some a, some b => if b.key < a.key ∨ (b.key = a.key ∧ b.index < a.index) then some b else some a

/-- The greater of two extremes, the lower index among equals. -/
def maxExt : Option Extreme → Option Extreme → Option Extreme
  | none, b => b
  | a, none => a
  | some a, some b => if a.key < b.key ∨ (b.key = a.key ∧ b.index < a.index) then some b else some a

/-- The histogram bin of a finite non-zero element (R224). -/
def histBin (x : Elem) : Nat := Nat.min 63 (log2Mag x - 117)

/-- What one element adds. -/
def elemAcc (f : Nat) (uns : Bool) (index bits scale : Nat) : TallyAcc :=
  let x := classify f uns bits (if isMx f then scale else 127)
  let e : Extreme := { index := index, bits := bits, scale := if isMx f then scale else 0, key := orderKey x, f64 := elemF64 x }
  let v : Int := if x.neg then -(x.mag : Int) else x.mag
  match x.cls with
  | .nan => { nan := 1 }
  | .posInf => { pinf := 1, min := some e, max := some e }
  | .negInf => { ninf := 1, min := some e, max := some e }
  | .zero => { zero := 1, min := some e, max := some e }
  | .subnormal => { sub := 1, min := some e, max := some e, sum := v, sumsq := x.mag * x.mag,
                    hist := (List.replicate 64 0).set (histBin x) 1 }
  | .normal => { normal := 1, min := some e, max := some e, sum := v, sumsq := x.mag * x.mag,
                 hist := (List.replicate 64 0).set (histBin x) 1 }

/-! ### Digests (R225) -/

/-- The reflected polynomials of the lanes. -/
def polyA : Nat := 0xC96C5795D7870F42
def polyB : Nat := 0xD800000000000000

/-- A CRC-64 register after n bits shifted out. -/
def crc64Bits (poly : Nat) : Nat → Nat → Nat
  | 0, c => c
  | n + 1, c => crc64Bits poly n (if c % 2 = 1 then (c / 2) ^^^ poly else c / 2)

/-- A CRC-64 register after bytes. -/
def crc64Run (poly c : Nat) : List Byte → Nat
  | [] => c
  | b :: r => crc64Run poly (crc64Bits poly 8 (c ^^^ b.toNat)) r

/-- A CRC-64 register after n zero bytes. -/
def crc64Zeros (poly : Nat) : Nat → Nat → Nat
  | 0, c => c
  | n + 1, c => crc64Zeros poly n (crc64Bits poly 8 c)

/-! ### Parts (R226) -/

/-- Combine what two ranges gave, the second behind the first: exact in every field. -/
def mergeAcc (a b : TallyAcc) : TallyAcc :=
  { nan := a.nan + b.nan, pinf := a.pinf + b.pinf, ninf := a.ninf + b.ninf, zero := a.zero + b.zero, sub := a.sub + b.sub,
    normal := a.normal + b.normal, min := minExt a.min b.min, max := maxExt a.max b.max, sum := a.sum + b.sum,
    sumsq := a.sumsq + b.sumsq, hist := List.zipWith (· + ·) a.hist b.hist, nanBlocks := a.nanBlocks + b.nanBlocks,
    elemLen := a.elemLen + b.elemLen, elemA := crc64Zeros polyA b.elemLen a.elemA ^^^ b.elemA,
    elemB := crc64Zeros polyB b.elemLen a.elemB ^^^ b.elemB,
    scaleLen := a.scaleLen + b.scaleLen, scaleA := crc64Zeros polyA b.scaleLen a.scaleA ^^^ b.scaleA,
    scaleB := crc64Zeros polyB b.scaleLen a.scaleB ^^^ b.scaleB }

/-- The encodings in one unit (R215). -/
def unitCodes (f : Nat) (u : List Byte) : List Nat := unpackBits (elemBits f) (unitElems f) (leNat u)

/-- What the elements of a unit add, numbered from `index`. -/
def codesAcc (f : Nat) (uns : Bool) (scale : Nat) : Nat → List Nat → TallyAcc
  | _, [] => { }
  | i, c :: r => mergeAcc (elemAcc f uns i c scale) (codesAcc f uns scale (i + 1) r)

/-- What one unit adds, with its own bytes and its scale byte. -/
def unitAcc (f : Nat) (uns : Bool) (index : Nat) (u : List Byte) (scale : Option Byte) : TallyAcc :=
  let s := (scale.map BitVec.toNat).getD 127
  let a := codesAcc f uns s index (unitCodes f u)
  let sb := (scale.map (fun b => [b])).getD []
  { a with nanBlocks := b2n (isMx f && s == 255), elemLen := u.length, elemA := crc64Run polyA 0 u, elemB := crc64Run polyB 0 u,
           scaleLen := sb.length, scaleA := crc64Run polyA 0 sb, scaleB := crc64Run polyB 0 sb }

/-- What whole units add to what came before, the first numbered from `index`; a format without scale bytes has none. -/
def unitsAcc (f : Nat) (uns : Bool) : Nat → List (List Byte) → List Byte → TallyAcc → TallyAcc
  | _, [], _, a => a
  | i, u :: r, ss, a =>
    unitsAcc f uns (i + unitElems f) r ss.tail
      (mergeAcc a (unitAcc f uns i u (if isMx f then some (ss.headD 0) else none)))

/-- What a range of bytes gives. -/
def bytesAcc (f : Nat) (uns : Bool) (index : Nat) (b scales : List Byte) : TallyAcc :=
  unitsAcc f uns index (chunks (unitBytes f) (b.length / unitBytes f) b) scales { }

/-- Lane A over the whole digest stream. -/
def digestA (a : TallyAcc) : Nat :=
  let n := a.elemLen + a.scaleLen
  (crc64Zeros polyA n (2 ^ 64 - 1) ^^^ (crc64Zeros polyA a.scaleLen a.elemA ^^^ a.scaleA)) ^^^ (2 ^ 64 - 1)

/-- Lane B over the whole digest stream. -/
def digestB (a : TallyAcc) : Nat := crc64Zeros polyB a.scaleLen a.elemB ^^^ a.scaleB

/-! ### The record (Table 7.5) -/

/-- FINITE and ELEMENTS. -/
def finiteOf (a : TallyAcc) : Nat := a.zero + a.sub + a.normal
def elementsOf (a : TallyAcc) : Nat := a.nan + a.pinf + a.ninf + finiteOf a

/-- The bytes of a Tally record. -/
def tallyRecord (f : Nat) (uns readErr void : Bool) (a : TallyAcc) (start end_ parts errs : Nat) : List Byte :=
  let z : Extreme := { index := 0, bits := 0, scale := 0, key := 0, f64 := 0 }
  let lo := a.min.getD z
  let hi := a.max.getD z
  let sumMag := a.sum.natAbs
  let body := leBytes 4 0x594C4C54 ++ [BitVec.ofNat 8 1, BitVec.ofNat 8 f,
      BitVec.ofNat 8 (b2n uns + 2 * b2n a.min.isSome + 4 * b2n a.max.isSome + 8 * b2n readErr + 16 * b2n void), 0] ++
    leBytes 8 (a.elemLen + a.scaleLen) ++ leBytes 8 (elementsOf a) ++ leBytes 8 a.nan ++ leBytes 8 a.pinf ++ leBytes 8 a.ninf ++
    leBytes 8 a.zero ++ leBytes 8 a.sub ++ leBytes 8 (finiteOf a) ++ leBytes 8 lo.index ++ leBytes 8 hi.index ++
    leBytes 4 lo.bits ++ leBytes 4 lo.scale ++ leBytes 4 hi.bits ++ leBytes 4 hi.scale ++ leBytes 8 lo.f64 ++ leBytes 8 hi.f64 ++
    leBytes 8 (toF64 (decide (a.sum < 0)) sumMag 149) ++ leBytes 8 (toF64 false a.sumsq 298) ++
    leBytes 48 (unsignedOf 384 a.sum) ++ leBytes 80 a.sumsq ++ leBytes 8 (digestA a) ++ leBytes 8 (digestB a) ++
    leBytes 8 start ++ leBytes 8 end_ ++ a.hist.flatMap (leBytes 8) ++ leBytes 8 a.nanBlocks ++ leBytes 4 parts ++
    leBytes 4 errs ++ zeros 4
  body ++ leBytes 4 (crc32c body)

end Sys2Proof.Machine
end

