-- ==== Sys2Proof/Machine/TallyCmd.lean ====
section
/-! DEFINITION. TALLY and COMPARE: checks, parts, the reads of the Stations, and their results (R228-R235, R247). -/

namespace Sys2Proof.Machine

/-! ### Runs -/

/-- The Tally run of a command. -/
def tallyRun (m : Mach) (cmd : Nat) : Option TallyRun := m.tly.find? (fun r => r.cmd == cmd)

/-- Change it. -/
def updTally (m : Mach) (cmd : Nat) (g : TallyRun → TallyRun) : Mach :=
  { m with tly := m.tly.map (fun r => if r.cmd == cmd then g r else r) }

/-- The bytes of a part (R228). -/
def partSize : Nat := 3145728

/-- The memory-attach Station whose stack holds a byte. -/
def stackDie (m : Mach) (a : Nat) : Nat := ((chanAt m a).map (fun c => c.die)).getD 64

/-- The parts of one range in HBM. -/
def hbmParts (m : Mach) (f entry addr len saddr : Nat) : List TallyPart :=
  (List.range ((len + partSize - 1) / partSize)).map fun k =>
    let n := Nat.min partSize (len - k * partSize)
    let u := k * partSize / unitBytes f
    { entry := entry, die := stackDie m (addr + k * partSize), addr := addr + k * partSize, len := n, first := u * unitElems f,
      saddr := if isMx f then saddr + u else 0, slen := if isMx f then n / unitBytes f else 0 }

/-- Arm the reading Stations (R230, Table 3.3): each one's first part and how many it has. -/
def armTally (m : Mach) (cmd t : Nat) (parts : List TallyPart) (pm : PartMap) : Mach :=
  ((parts.map (fun p => p.die)).dedup).foldl (fun m d =>
    let mine := ((List.range parts.length).zip parts).filter (fun x => x.2.die == d)
    let a : Arm := { armId := 0, t := t, stitch := false, action := 6, kind := 3, flags := 0, unit := diePath m d, parts := pm,
                     p0 := (mine.head?.map Prod.fst).getD 0, p1 := mine.length }
    (sendArm m cmd a [d]).2) m

/-- The accumulated result of an entry, the parts that were read and those that were lost (R232). -/
def entryResult (r : TallyRun) (entry : Nat) : TallyAcc × Nat × Nat :=
  let ps := r.parts.filter (fun p => p.entry == entry)
  (ps.foldl (fun a p => mergeAcc a (p.acc.getD { })) { }, (ps.filter (fun p => p.acc.isSome)).length,
    (ps.filter (fun p => p.acc.isNone)).length)

/-- When the first part of an entry began and the last one ended, and whether GTC_STATUS.VOID was set in between; an empty entry has the
times of its run (R234). -/
def entryTimes (r : TallyRun) (entry : Nat) : Nat × Nat × Bool :=
  let ps := r.parts.filter (fun p => p.entry == entry)
  let starts := ps.filterMap (fun p => p.began)
  (starts.foldl Nat.min (starts.headD (r.start.getD r.last)), if ps.isEmpty then r.last else (ps.map (fun p => p.finished)).foldl Nat.max 0,
    if ps.isEmpty then r.void else ps.any (fun p => p.void))

/-- The record of an entry. -/
def entryRecord (r : TallyRun) (entry : Nat) : List Byte :=
  let (a, n, errs) := entryResult r entry
  let (start, stop, void) := entryTimes r entry
  tallyRecord r.format r.uns (decide (0 < errs)) void a start stop n errs

/-! ### Comparing (R234, R235) -/

/-- What COMPARE looks at: both lanes and the sum; none for an entry with READ_ERR. -/
def entryKey (r : TallyRun) (entry : Nat) : Option (Nat × Nat × Int) :=
  let (a, _, errs) := entryResult r entry
  if errs = 0 then some (digestA a, digestB a, a.sum) else none

/-- The outcome of a comparison: reference, its group's size, the groups, and the three bitmaps. -/
structure Comparison where
  ref : Option Nat
  size : Nat
  groups : Nat
  mismatch : Nat
  digestDiff : Nat
  sumDiff : Nat
  deriving DecidableEq, Repr

/-- Compare entries by their keys. -/
def compareKeys (keys : List (Option (Nat × Nat × Int))) : Comparison :=
  let es := (List.range keys.length).zip keys
  let sizeOf (k : Option (Nat × Nat × Int)) : Nat := (keys.filter (fun x => x == k)).length
  let good := es.filter (fun e => e.2.isSome)
  let ref := good.foldl (fun acc e => match acc with
    | none => some e
    | some b => if sizeOf b.2 < sizeOf e.2 then some e else acc) none
  let key := (ref.bind Prod.snd).getD (0, 0, 0)
  let out := es.filter (fun e => ref.isSome && e.2 != ref.bind Prod.snd || e.2.isNone)
  { ref := ref.map Prod.fst, size := (ref.map (fun e => sizeOf e.2)).getD 0, groups := (good.map Prod.snd).dedup.length,
    mismatch := bitmapOf (out.map Prod.fst),
    digestDiff := bitmapOf ((out.filter (fun e => (e.2.map (fun k => k.1 != key.1 || k.2.1 != key.2.1)).getD false)).map Prod.fst),
    sumDiff := bitmapOf ((out.filter (fun e => (e.2.map (fun k => k.2.2 != key.2.2)).getD false)).map Prod.fst) }

/-- The header of a COMPARE (Table 7.7). -/
def compareHeader (f n t : Nat) (c : Comparison) : List Byte :=
  let first := (bitsOf c.mismatch 64).head?
  let b := leBytes 4 0x52504D43 ++ [BitVec.ofNat 8 1, BitVec.ofNat 8 f] ++ leBytes 2 n ++ leBytes 4 (c.ref.getD 0xFFFFFFFF) ++
    leBytes 4 c.size ++ leBytes 4 c.groups ++ leBytes 4 (first.getD 0xFFFFFFFF) ++ leBytes 8 c.mismatch ++
    leBytes 8 c.digestDiff ++ leBytes 8 c.sumDiff ++ leBytes 8 t ++ zeros 4
  b ++ leBytes 4 (crc32c b)

/-- The reply detail of a COMPARE. -/
def compareDetail (c : Comparison) : List W32 :=
  w1 (c.ref.getD 0xFFFFFFFF) ++ w1 c.size ++ w1 c.groups ++ w1 ((bitsOf c.mismatch 64).head?.getD 0xFFFFFFFF) ++ w2 c.mismatch

/-! ### Completion -/

/-- The result handle and offset of a TALLY, COMPARE or FIRST_FAULT. -/
def resultPlace (c : Cmd) : W32 × Nat :=
  match c.op with
  | 0x0501 => (wAt c.body 11, w64At c.body 12)
  | 0x0502 => (wAt c.body 2, w64At c.body 3)
  | _ => (wAt c.body 6, w64At c.body 7)

/-- Write a result into its Buffer, or behind the detail on a port, and complete (R364). -/
def finishResult (m : Mach) (c : Cmd) (status : Nat) (detail : List W32) (bytes : List Byte) : Mach :=
  let (h, off) := resultPlace c
  finish (bufWrite m (issuerOf c) h off bytes) c.id status (detail ++ replyData (issuerOf c) h bytes)

/-- A Tally ends: `status` tells why when it is not by its last part; nothing is written then, and the detail is that of the parts
that ended (R231, R341; log entry 73). -/
def endTally (m : Mach) (c : Cmd) (r : TallyRun) (status : Nat) : Mach :=
  let m := { m with tly := m.tly.filter (fun x => x.cmd != c.id) }
  let m := incHf m (if c.op = 0x0501 then R.TLY_CNT_TALLIES else R.TLY_CNT_COMPARES)
  let errs := r.parts.any (fun p => p.acc.isNone)
  let st := if errs then St.aborted else St.ok
  if c.op = 0x0501 then
    let a := (entryResult r 0).1
    let detail := w2 (elementsOf a) ++ w2 a.nan ++ w2 (a.pinf + a.ninf) ++ w1 (r.parts.filter (fun p => p.ended)).length
    if status != 0 then finish m c.id status detail else finishResult m c st detail (entryRecord r 0)
  else
    let n := (wAt c.body 1).toNat
    let cmp := compareKeys ((List.range n).map (entryKey r))
    if status != 0 then finish m c.id status (compareDetail cmp)
    else
      finishResult (incHf m R.TLY_CNT_MISMATCHES (bitsOf cmp.mismatch 64).length) c st (compareDetail cmp)
        (compareHeader r.format n c.t cmp ++ (List.range n).flatMap (entryRecord r))

/-- A part can still end: its Station answers, and it is armed or reads. -/
def partLive (m : Mach) (cmd : Nat) (p : TallyPart) : Bool :=
  !p.ended && stnAnswers m p.die && (p.active || m.run.arms.any (fun a => a.cmd == cmd && nbit a.dies p.die))

/-- A Tally whose parts have all ended, or can no longer end, completes (R94, R232, R520). -/
def tallyCheck (m : Mach) (cmd : Nat) : Mach :=
  match findCmd m cmd, tallyRun m cmd with
  | some c, some r =>
    if r.parts.any (partLive m cmd) then m
    else
      let silent := r.parts.any (fun p => !p.ended && !stnAnswers m p.die)
      endTally m c r (firstStatus [(silent, St.unitDark), (c.late || r.parts.any (fun p => !p.ended), St.timeout)] St.ok)
  | _, _ => m

/-- An HBM channel leaves a partition: a Tally of that partition which touches it stops (R231). -/
def tallyMoved (m : Mach) (d ch part : Nat) : Mach :=
  let hits (p : TallyPart) : Bool := p.core.isNone && (match m.bup.env with
    | some e => e.chans.any (fun w => w.die == d && w.chan == ch &&
        ((decide (w.base < p.addr + p.len) && decide (p.addr < w.base + w.size)) ||
         (decide (w.base < p.saddr + p.slen) && decide (p.saddr < w.base + w.size))))
    | none => false)
  let partOf (c : Cmd) (p : TallyPart) : Nat :=
    if c.op = 0x0501 then wfld (wAt c.body 2) 0 8 else wfld (wAt c.body (9 + 6 * p.entry)) 0 8
  (m.tly.filter (fun r => ((findCmd m r.cmd).map (fun c => r.parts.any (fun p => hits p && partOf c p == part))).getD false)).foldl
    (fun m r =>
      match findCmd m r.cmd with
      | some c =>
        let arms := (m.run.arms.filter (fun a => a.cmd == c.id)).map (fun a => a.armId)
        endTally (incHf (arms.foldl cancelArm m) R.TLY_ERR_MOVED) c r St.bindingMoved
      | none => m) m

/-! ### TALLY and COMPARE -/

/-- Row 5 of Table 7.6: the bytes by which a result buffer is too short. -/
def resultShort (m : Mach) (i : Issuer) (h : W32) (off need : Nat) : Nat := off + need - bufLen m i h

/-- A range in HBM that row 7 of Table 7.6 refuses. -/
def rangeDenied (m : Mach) (part a n : Nat) : Bool := n != 0 && (inHamper m a n || !rangeBound m part (chanCount m) a n)

/-- Start a run once every check has passed: arm it, or complete at once when there is nothing to read. -/
def startTally (m : Mach) (i : Issuer) (op : Nat) (p : Pkt) (f : Nat) (uns : Bool) (parts : List TallyPart) (t : Nat)
    (pm : PartMap) : Mach :=
  let (c, m) := newCmd m i op p.cookie p.body noScope
  let m := updCmd m c.id (fun x => { x with t := t })
  let r : TallyRun := { cmd := c.id, format := f, uns := uns, parts := parts, last := gtcNow m, void := timeVoid m }
  tallyCheck (armTally { m with tly := m.tly ++ [r] } c.id t parts pm) c.id

/-- The checks of TALLY (Tables 7.6, 7.10): the status with its failure detail, and the parts to be read. -/
def tallyPlan (m : Mach) (i : Issuer) (b : List W32) : Nat × List W32 × List TallyPart :=
  let w := wAt b 0
  let mode := wfld w 0 2
  let f := wfld w 4 4
  let uns := wfld w 8 1 == 1
  let unit := wAt b 1
  let part := wfld (wAt b 2) 0 8
  let region := wfld (wAt b 4) 0 16
  let sregion := wfld (wAt b 4) 16 16
  let start := w64At b 5
  let len := w64At b 7
  let scale := w64At b 9
  let h := wAt b 11
  let off := w64At b 12
  let t := w64At b 14
  let d := upDie unit
  let tap := upTap unit
  let ent := regionOf m d tap region
  let sent := regionOf m d tap sregion
  let slen := if isMx f then len / unitBytes f else 0
  let lead := if mode = 0 then 2000 else 10000
  let bad0 := !pathOk m unit 1 || ent.isNone || (isMx f && sent.isNone) || (!isMx f && sregion != 0) ||
    decide ((ent.map (fun e => e.size)).getD 0 < start + len) ||
    (isMx f && decide ((sent.map (fun e => e.size)).getD 0 < scale + slen))
  let bad1 := unit != 0 || wAt b 4 != 0 || decide (2 ^ 64 < start + len) || decide (2 ^ 64 < scale + slen)
  let bad := b.length != 16 || wfld w 2 2 != 0 || wfld w 9 23 != 0 || wfld (wAt b 2) 8 24 != 0 || f == 15 ||
    decide (2 ≤ mode) || (uns && !isInt f) || (!isMx f && scale != 0) || (if mode = 0 then bad0 else bad1) ||
    (f != 0 && (start % startAlign f != 0 || len % unitBytes f != 0 || (isMx f && scale % startAlign f != 0))) ||
    off % 8 != 0 || bufMalformed i h off || tooFar m t
  let secure := (ent.map (fun e => e.secure)).getD false || (isMx f && (sent.map (fun e => e.secure)).getD false)
  let owners := [ent, if isMx f then sent else none].flatMap (fun e => match e with
    | some e => if e.cls = 5 then [] else ownerCores m d tap e
    | none => [])
  let parts := if mode = 0 then
      (if len = 0 then [] else [{ entry := 0, die := d, core := some (tap, region, sregion), addr := start, len := len, first := 0,
                                  saddr := scale, slen := slen }])
    else hbmParts m f 0 start len scale
  let dies := (parts.map (fun x => x.die)).dedup
  let short := resultShort m i h off 832
  let st := firstStatus [
    (bad, St.malformed), (mode == 0 && unitDark m unit, St.unitDark), (f == 0, St.formatUnsupported),
    (decide (2 ^ 44 < len), St.doesNotFit), (bufStale m i h, St.staleHandle), (decide (0 < short), St.doesNotFit),
    ((wAt b 3).toNat != epochOf m part, St.bindingMoved),
    (decide (issLevel m i part < 2) || bufDenied m i h false true || (mode == 0 && secure && decide (issLevel m i part < 3)) ||
      (mode == 1 && (rangeDenied m part start len || rangeDenied m part scale slen)), St.notAuthorised),
    (owners.any (fun c => !coreInHalt m d c) || !slotsFree m dies 1, St.busy),
    (len != 0 && tooEarly m lead t, St.timeout)] St.ok
  (st, if st = St.doesNotFit then (if 2 ^ 44 < len then w2 (len - 2 ^ 44) else w2 short) else waypointDetail m st lead, parts)

/-- The lead of a TALLY (Table 3.2): that of a core for mode 0, of a wide scope for mode 1. -/
def tallyLead (b : List W32) : Nat := if wfld (wAt b 0) 0 2 = 0 then 2000 else 10000

/-- TALLY. -/
def doTally (m : Mach) (i : Issuer) (p : Pkt) : Mach :=
  let b := p.body
  let (st, detail, parts) := tallyPlan m i b
  if st != 0 then answer m i 0x0501 p.cookie st detail
  else startTally m i 0x0501 p (wfld (wAt b 0) 4 4) (wfld (wAt b 0) 8 1 == 1) parts (resolveT m (tallyLead b) (w64At b 14))
    (partBit (wfld (wAt b 2) 0 8))

/-- The meaning of TALLY. -/
def execTally (p : Pkt) (s : State) : Host.Outcome State Fault Refusal :=
  hostRow 0x0501 p s (fun m i => doTally m i p)

/-- An entry of COMPARE: partition word, epoch, address, scale address. -/
def compareEntry (b : List W32) (k : Nat) : W32 × Nat × Nat × Nat :=
  (wAt b (9 + 6 * k), (wAt b (10 + 6 * k)).toNat, w64At b (11 + 6 * k), w64At b (13 + 6 * k))

/-- The entries that a COMPARE carries, at most 64. -/
def compareEntries (b : List W32) : List (W32 × Nat × Nat × Nat) :=
  (List.range (Nat.min (wAt b 1).toNat 64)).map (compareEntry b)

/-- The checks of COMPARE (Tables 7.6, 7.10): the status with its failure detail, and the parts to be read. -/
def comparePlan (m : Mach) (i : Issuer) (b : List W32) : Nat × List W32 × List TallyPart :=
  let w := wAt b 0
  let f := wfld w 4 4
  let uns := wfld w 8 1 == 1
  let n := (wAt b 1).toNat
  let h := wAt b 2
  let off := w64At b 3
  let len := w64At b 5
  let t := w64At b 7
  let es := compareEntries b
  let slen := if isMx f then len / unitBytes f else 0
  let lead := 10000
  let badEntry (e : W32 × Nat × Nat × Nat) : Bool :=
    wfld e.1 8 24 != 0 || (!isMx f && e.2.2.2 != 0) || decide (2 ^ 64 < e.2.2.1 + len) || decide (2 ^ 64 < e.2.2.2 + slen) ||
    (f != 0 && (e.2.2.1 % startAlign f != 0 || (isMx f && e.2.2.2 % startAlign f != 0)))
  let bad := decide (64 < n) || b.length != 9 + 6 * n || wfld w 0 4 != 0 || wfld w 9 23 != 0 || f == 15 || (uns && !isInt f) ||
    es.any badEntry || (f != 0 && len % unitBytes f != 0) || off % 8 != 0 || bufMalformed i h off || tooFar m t
  let parts := ((List.range es.length).zip es).flatMap (fun e => hbmParts m f e.1 e.2.2.2.1 len e.2.2.2.2)
  let short := resultShort m i h off (64 + 832 * n)
  let st := firstStatus [
    (bad, St.malformed), (f == 0, St.formatUnsupported), (decide (2 ^ 44 < len), St.doesNotFit),
    (bufStale m i h, St.staleHandle), (decide (0 < short), St.doesNotFit),
    (es.any (fun e => e.2.1 != epochOf m (wfld e.1 0 8)), St.bindingMoved),
    (bufDenied m i h false true || es.any (fun e => decide (issLevel m i (wfld e.1 0 8) < 2) ||
      rangeDenied m (wfld e.1 0 8) e.2.2.1 len || rangeDenied m (wfld e.1 0 8) e.2.2.2 slen), St.notAuthorised),
    (!slotsFree m (parts.map (fun x => x.die)).dedup 1, St.busy), (n != 0 && tooEarly m lead t, St.timeout)] St.ok
  (st, if st = St.doesNotFit then (if 2 ^ 44 < len then w2 (len - 2 ^ 44) else w2 short) else waypointDetail m st lead, parts)

/-- COMPARE. -/
def doCompare (m : Mach) (i : Issuer) (p : Pkt) : Mach :=
  let b := p.body
  let (st, detail, parts) := comparePlan m i b
  if st != 0 then answer m i 0x0502 p.cookie st detail
  else startTally m i 0x0502 p (wfld (wAt b 0) 4 4) (wfld (wAt b 0) 8 1 == 1) parts (resolveT m 10000 (w64At b 7))
    ((compareEntries b).foldl (fun acc e => acc ||| partBit (wfld e.1 0 8)) 0)

/-- The meaning of COMPARE. -/
def execCompare (p : Pkt) (s : State) : Host.Outcome State Fault Refusal :=
  hostRow 0x0502 p s (fun m i => doCompare m i p)

/-! ### The reads (R228, R230, R232) -/

/-- Action 6 fires: the Station starts to read its parts. -/
def actTally (m : Mach) (d : Nat) (a : Arm) : Mach :=
  let cmd := armCmd m a.armId
  match tallyRun m cmd with
  | none => m
  | some _ =>
    updTally m cmd (fun r => { r with
      start := some (r.start.getD (gtcNow m)), void := r.void || timeVoid m,
      parts := r.parts.map (fun p => if p.die == d then { p with active := true, began := some (gtcNow m), void := timeVoid m } else p) })

/-- What a Station reads of a part, element bytes and scale bytes. -/
def partBytes (m : Mach) (p : TallyPart) : List Byte × List Byte :=
  match p.core with
  | some (tap, region, sregion) =>
    (coreRead m p.die tap region p.addr p.len, coreRead m p.die tap sregion p.saddr p.slen)
  | none => (hbmRead m p.addr p.len, hbmRead m p.saddr p.slen)

/-- A part of a run ends (R230, R232): read whole, or lost to a read error. -/
def endPart (m : Mach) (r : TallyRun) (k : Nat) (p : TallyPart) (readErr : Bool) : Mach :=
  let (b, sc) := partBytes m p
  let acc := if readErr then none else some (bytesAcc r.format r.uns p.first b sc)
  let m := updTally m r.cmd (fun r => { r with
    last := gtcNow m, void := r.void || timeVoid m,
    parts := r.parts.set k { p with ended := true, acc := acc, finished := gtcNow m, void := p.void || timeVoid m } })
  if readErr then incHf m R.TLY_ERR_READ_ERR else incHf m R.TLY_BYTES_BYTES (p.len + p.slen)

/-- One clock of the Tallies: GTC_STATUS.VOID marks every entry whose reading has begun and is not over (R81). -/
def tallyTick (m : Mach) : Mach :=
  if !timeVoid m then m
  else
    let open_ (r : TallyRun) (e : Nat) : Bool := r.parts.any (fun p => p.entry == e && p.active) && r.parts.any (fun p => p.entry == e && !p.ended)
    { m with tly := m.tly.map (fun r => { r with
      void := r.void || r.start.isSome, parts := r.parts.map (fun p => if open_ r p.entry then { p with void := true } else p) }) }

/-- The meaning of TALLY_PART_END: a part that is being read ends. One whose Station has fallen silent or never acted is given
up, and the command goes on without it. -/
def execTallyPartEnd (cmd part : Nat) (readErr : Bool) (s : State) : Host.Outcome State Fault Refusal :=
  let m := s.m
  match tallyRun m cmd with
  | none => .next s
  | some r =>
    match r.parts[part]? with
    | none => .next s
    | some p =>
      if p.active ∧ !p.ended ∧ stnAnswers m p.die then .next { s with m := tallyCheck (endPart m r part p readErr) cmd }
      else .next { s with m := tallyCheck m cmd }

end Sys2Proof.Machine
end

