-- ==== Sys2Proof/Machine/Sentinel.lean ====
section
/-! DEFINITION. Sentinels, SENTINEL_CONFIG and FIRST_FAULT (R236-R247). -/

namespace Sys2Proof.Machine

/-! ### Matches (R236-R238, R240, R242) -/

/-- The kind of an element under TAP_SNT_CTL (Table 7.8): the lowest enabled kind that it matches, 0 for none. -/
def sentinelKind (kinds thr format : Nat) (w : Element) : Nat :=
  let x := classify format false w.bits (if isMx format then w.scale else 127)
  let finite := x.cls == .zero || x.cls == .subnormal || x.cls == .normal
  let hit (k : Nat) : Bool :=
    match k with
    | 1 => x.cls == .nan
    | 2 => x.cls == .posInf || x.cls == .negInf
    | 3 => w.saturated
    | _ => finite && x.mag != 0 && decide (signed 9 thr ≤ (log2Mag x : Int) - 149)
  (([1, 2, 3, 4] : List Nat).find? (fun k => nbit kinds (k - 1) && hit k)).getD 0

/-- The matching elements of a write-back under a Sentinel's configuration, each with its kind. -/
def sentinelHits (m : Mach) (d p j : Nat) (w : WriteBack) : List (Nat × Element) :=
  (w.elems.map (fun x => (sentinelKind (tf m d p R.TAP_SNT_CTL_KINDS j) (tf m d p R.TAP_SNT_CTL_EXP_THR j) w.format x, x))).filter
    (fun x => x.1 != 0)

/-- Of matching elements the one at the lowest address (R237). -/
def lowestHit (l : List (Nat × Element)) : Option (Nat × Element) :=
  l.foldl (fun acc x => match acc with
    | none => some x
    | some b => if x.2.addr.toNat < b.2.addr.toNat then some x else acc) none

/-- Add one to the count of a kind. -/
def countKind (m : Mach) (d p j kind : Nat) : Mach :=
  match kind with
  | 1 => incTf m d p R.TAP_SNT_CNT_NAN 1 j
  | 2 => incTf m d p R.TAP_SNT_CNT_INF 1 j
  | 3 => incTf m d p R.TAP_SNT_CNT_SAT 1 j
  | _ => incTf m d p R.TAP_SNT_CNT_EXP 1 j

/-- Fill a latch with an element of a write-back. Whether ALIGNED is 0 at the stamp is kept beside it (R98). -/
def latchSentinel (m : Mach) (d p j kind stamp : Nat) (w : WriteBack) (addr : W64) : Mach :=
  let m := updCore m d p (fun c => { c with
    loose := if sf m d R.STN_GTC_STAT_ALIGNED = 0 then setBit c.loose j else clrBit c.loose j })
  let m := setTf m d p R.TAP_SNT_FIRST_VALID 1 j
  let m := setTf m d p R.TAP_SNT_FIRST_PRIV (b2n w.privileged) j
  let m := setTf m d p R.TAP_SNT_FIRST_KIND kind j
  let m := setTf m d p R.TAP_SNT_FIRST_FORMAT w.format j
  let m := setTf m d p R.TAP_SNT_FIRST_CLID w.clid j
  let m := setTf m d p R.TAP_SNT_FIRST_ENTRY w.entry j
  let m := setTf m d p R.TAP_SNT_FIRST_T_STAMP stamp j
  setTf m d p R.TAP_SNT_ADDR_ADDR addr.toNat j

/-- Clear a latch (R239). -/
def clearLatch (m : Mach) (d p j : Nat) : Mach :=
  [0x808, 0x810, 0x818].foldl (fun m o => sput m d (tapBase p + o + 0x40 * j) 0) m

/-- A latch fills with the lowest of a write-back's matches: it is reported and offered as it is configured (R242). -/
def firstEvent (m : Mach) (d p e kind : Nat) (w : WriteBack) (addr : W64) : Mach :=
  let j := e - 1
  let stamp := repNow m d + w.cycles / 2
  let src := engPath m d p e
  let m := latchSentinel m d p j kind stamp w addr
  let m := if tf m d p R.TAP_SNT_CTL_EVT_EN j = 1 then
      stnEvent m d { code := EvCode.sentinelFirst, source := src, stamp := stamp, detail := w2 stamp ++ w1 kind,
                     parts := partBit (partNow m d p), onlyParts := true }
    else m
  if tf m d p R.TAP_SNT_CTL_TRIG_EN j = 1 then offer m (tf m d p R.TAP_SNT_CTL_TRIGGER j) 0 d (bindCore p) stamp src else m

/-- The meaning of SENTINEL_MATCH: the Sentinel of an MX or VX engine examines the elements of a write-back. Each match counts; the lowest one
fills an empty latch (R237). -/
def execSentinelMatch (die tap e : Nat) (w : WriteBack) (s : State) : Host.Outcome State Fault Refusal :=
  if !engOk die tap e ∨ !(e = 1 ∨ e = 2) then .fault .noSuchUnit
  else
    let m := s.m
    let hits := sentinelHits m die tap (e - 1) w
    let m := hits.foldl (fun m x => countKind m die tap (e - 1) x.1) m
    match lowestHit hits with
    | none => .next s
    | some (kind, x) =>
      if tf m die tap R.TAP_SNT_FIRST_VALID (e - 1) = 1 then .next { s with m := m }
      else .next { s with m := firstEvent m die tap e kind w x.addr }

/-- The meaning of TAP_SNT_FIRST_CLEAR: a write to TAP_SNT_FIRST whose VALID bit is one clears the latch. -/
def execTapSntFirstClear (die tap j : Nat) (v : W64) (s : State) : Host.Outcome State Fault Refusal :=
  if !tapOk die tap ∨ 2 ≤ j then .fault .noSuchUnit
  else .next { s with m := if fld v 0 1 = 1 then clearLatch s.m die tap j else s.m }

/-! ### SENTINEL_CONFIG (R241) -/

/-- Write the Sentinel images of a partition into a core. -/
def writeSentinel (m : Mach) (d p mx vx : Nat) : Mach :=
  sput (sput m d (tapBase p + 0x800) (BitVec.ofNat 64 mx)) d (tapBase p + 0x840) (BitVec.ofNat 64 vx)

/-- A Station applies a Sentinel configuration: kept for the partition and written to the cores of it; with CLEAR their latches
are cleared. -/
def applySentinel (m : Mach) (d part mx vx : Nat) (clear : Bool) : Mach :=
  let m := setStnCfg m d part { stnCfg m d part with mx := mx, vx := vx }
  (memberCores m d 4 0 (1 <<< part)).foldl (fun m p =>
    if coreDark m d p then m
    else
      let m := writeSentinel m d p mx vx
      if clear then clearLatch (clearLatch m d p 0) d p 1 else m) m

/-- A core is re-bound: its latches and counts are cleared and the new partition's configuration is written; in the free pool
(256) every kind is disabled (R241). -/
def rebindSentinel (m : Mach) (d p part : Nat) : Mach :=
  let m := clearLatch (clearLatch m d p 0) d p 1
  let m := sput (sput m d (tapBase p + 0x820) 0) d (tapBase p + 0x860) 0
  let c := if part < 256 then stnCfg m d part else { }
  writeSentinel m d p c.mx c.vx

/-- SENTINEL_CONFIG. -/
def doSentinelConfig (m : Mach) (i : Issuer) (p : Pkt) : Mach :=
  let b := p.body
  let part := (wAt b 0).toNat
  let mx := (wAt b 2).toNat
  let vx := (wAt b 3).toNat
  let flags := (wAt b 4).toNat
  let st := firstStatus [
    (b.length != 5 || decide (256 ≤ part) || decide (2 ^ 21 ≤ mx) || decide (2 ^ 21 ≤ vx) || decide (2 ≤ flags), St.malformed),
    ((wAt b 1).toNat != epochOf m part, St.bindingMoved), (decide (issLevel m i part < 2), St.notAuthorised)] St.ok
  if st != 0 then answer m i 0x0503 p.cookie st []
  else
    let m := setHubCfg m part { hubCfg m part with mx := mx, vx := vx }
    startConfig m i 0x0503 p 2 part mx (vx + flags * 2 ^ 32)

/-- The meaning of SENTINEL_CONFIG. -/
def execSentinelConfig (p : Pkt) (s : State) : Host.Outcome State Fault Refusal :=
  hostRow 0x0503 p s (fun m i => doSentinelConfig m i p)

/-! ### FIRST_FAULT (R243-R246) -/

/-- FIRST_FAULT: OBSERVE in place of DEBUG. A package that another one commands has no Buffer to check. -/
def doFirstFault (m : Mach) (i : Issuer) (p : Pkt) : Mach :=
  let b := p.body
  let s := scopeAt m b 0
  let t := w64At b 4
  let h := wAt b 6
  let off := w64At b 7
  let flags := (wAt b 9).toNat
  let mx := (wAt b 10).toNat
  let fab := isFabric i.origin
  let lead := leadOf s.kind
  let at_ := resolveT m lead t
  let short := resultShort m i h off (16 + 32 * mx)
  let st := firstStatus [
    (b.length != 11 || !scopeOk m b 0 || decide (32 ≤ flags) || decide (64 < mx) || off % 8 != 0 ||
      (!fab && bufMalformed i h off) || tooFar m t, St.malformed),
    (scopeDark m s, St.unitDark), (!fab && bufStale m i h, St.staleHandle), (!fab && decide (0 < short), St.doesNotFit),
    (scopeMoved m s, St.bindingMoved), (!scopeLevel m i s 1 || (!fab && bufDenied m i h false true), St.notAuthorised),
    (!slotsFree m (scopeDies m s) 1, St.busy), (!fab && tooEarly m lead t, St.timeout)] St.ok
  if st != 0 then answer m i 0x0504 p.cookie st (if st = St.doesNotFit then w2 short else waypointDetail m st lead)
  else
    let (c, m) := newCmd m i 0x0504 p.cookie b s
    let m := updCmd m c.id (fun x => { x with t := at_, flags := flags })
    let m := armScope m c.id s at_ 5 (nfld flags 0 1) (nfld flags 1 4) 0
    match findCmd m c.id with
    | some c => sendJobCmd m c
    | none => m

/-- The meaning of FIRST_FAULT. -/
def execFirstFault (p : Pkt) (s : State) : Host.Outcome State Fault Refusal :=
  hostRow 0x0504 p s (fun m i => doFirstFault m i p)

/-- Action 5 fires: the members stand, and the collection follows at T + 64. -/
def actCollect (m : Mach) (d : Nat) (a : Arm) : Mach :=
  let es := scopeEngines m d a.kind a.unit a.parts
  let cmd := armCmd m a.armId
  let m := countActed m a.armId d es.length
  updStn m d (fun s => { s with collects := s.collects ++ [{ armId := a.armId, cmd := cmd, t := a.t, clear := nbit a.flags 0,
                                                             kinds := nfld a.p0 0 4, engs := es }] })

/-- A record of Table 7.9. -/
structure FaultRec where
  unit : W32
  stamp : Nat
  kind : Nat
  flags : Nat
  clid : Nat
  entry : Nat
  addr : Nat
  deriving DecidableEq, Repr

/-- Its bytes. -/
def faultBytes (x : FaultRec) : List Byte :=
  leBytes 4 x.unit.toNat ++ [BitVec.ofNat 8 x.kind, BitVec.ofNat 8 x.flags] ++ leBytes 2 x.clid ++ leBytes 4 x.entry ++ zeros 4 ++
  leBytes 8 x.stamp ++ leBytes 8 x.addr

/-- The record that bytes spell. -/
def faultOf (b : List Byte) : FaultRec :=
  { unit := BitVec.ofNat 32 (bytesAt b 0 4), kind := bytesAt b 4 1, flags := bytesAt b 5 1, clid := bytesAt b 6 2,
    entry := bytesAt b 8 4, stamp := bytesAt b 16 8, addr := bytesAt b 24 8 }

/-- The standard order of records (R97). -/
def faultBefore (a b : FaultRec) : Bool :=
  decide (a.stamp < b.stamp) || (a.stamp == b.stamp && decide (a.unit.toNat < b.unit.toNat))

/-- The latches that a collection takes, as Tap and Sentinel (R243). -/
def collected (m : Mach) (d : Nat) (c : Collect) : List (Nat × Nat) :=
  (c.engs.filter (fun x => (x.2 == 1 || x.2 == 2) && tf m d x.1 R.TAP_SNT_FIRST_VALID (x.2 - 1) == 1 &&
    decide (tf m d x.1 R.TAP_SNT_FIRST_T_STAMP (x.2 - 1) < c.t) &&
    nbit c.kinds (tf m d x.1 R.TAP_SNT_FIRST_KIND (x.2 - 1) - 1) && !coreDark m d x.1)).map (fun x => (x.1, x.2 - 1))

/-- The record of a latch, redacted for a Session below SECURE_DEBUG (R240). -/
def latchRec (m : Mach) (d p j : Nat) (i : Issuer) : FaultRec :=
  let part := partNow m d p
  let hide := tf m d p R.TAP_SNT_FIRST_PRIV j == 1 && decide (issLevel m i part < 3)
  { unit := engPath m d p (j + 1), stamp := tf m d p R.TAP_SNT_FIRST_T_STAMP j, kind := tf m d p R.TAP_SNT_FIRST_KIND j,
    flags := 2 * b2n (timeVoid m) + 4 * b2n hide, clid := if hide then 0 else tf m d p R.TAP_SNT_FIRST_CLID j,
    entry := if hide then 0 else tf m d p R.TAP_SNT_FIRST_ENTRY j, addr := if hide then 0 else tf m d p R.TAP_SNT_ADDR_ADDR j }

/-- The issuer for which a command's records are redacted; a command of another package counts as one at DEBUG. -/
def redactIssuer (c : Cmd) : Issuer :=
  if isFabric c.origin then { origin := .session 0, sess := 0, port := .firmware } else issuerOf c

/-- A Station collects (R243, R245): its list in STN_SNT_LIST, its counts in STN_SNT_SUM, its latches cleared with CLEAR. The command
notes that the Station has collected (`skipped`) and the engines of the records that the Station stamped while its ALIGNED bit was 0 (R98; log entry 94). -/
def collectOn (m0 : Mach) (d : Nat) (c : Collect) : Mach :=
  let m := m0
  let ls := collected m d c
  let i := match findCmd m c.cmd with
    | some x => redactIssuer x
    | none => { origin := .session 0, sess := 0, port := .firmware }
  let rs := (sortBy faultBefore (ls.map (fun x => latchRec m d x.1 x.2 i))).take 64
  let bytes := rs.flatMap faultBytes
  let m := setSf (setSf m d R.STN_SNT_SUM_COUNT ls.length) d R.STN_SNT_SUM_LISTED rs.length
  let m := ((List.range (4 * rs.length))).foldl (fun m k => setSf m d R.STN_SNT_LIST_WORD (bytesAt bytes (8 * k) 8) k) m
  let m := if c.clear then ls.foldl (fun m x => clearLatch m d x.1 x.2) m else m
  let m := updStn m d (fun s => { s with collects := s.collects.filter (fun x => x.armId != c.armId) })
  let loose := (ls.filter (fun x => nbit (core_ m0 d x.1).loose x.2)).map (fun x => (engPath m d x.1 (x.2 + 1)).toNat)
  updCmd m c.cmd (fun x => { x with skipped := setBit x.skipped d, aux := x.aux ++ loose })

/-- Another record of a different die of the package lies within 4 ticks, or one of another package within 100 (R98, R246). -/
def faultWindow (l : List FaultRec) (x : FaultRec) : Bool :=
  l.any (fun y =>
    let w := if upPkg y.unit != upPkg x.unit then 100 else 4
    (upPkg y.unit != upPkg x.unit || upDie y.unit != upDie x.unit) && decide (y.stamp ≤ x.stamp + w) && decide (x.stamp ≤ y.stamp + w))

/-- The read of a register range of a Station for FIRST_FAULT. -/
def faultRead (m : Mach) (c : Cmd) (d addr len idx : Nat) : Req :=
  { die := d, frame := reqFrame false addr len 0 0 false false (cmdRoutine m c.id) [], idx := idx }

/-- The hub merges the records that it has read, and completes (R244). -/
def faultEnd (m : Mach) (c : Cmd) : Mach :=
  let mx := (wAt c.body 10).toNat
  let mark (x : FaultRec) : FaultRec := { x with flags := x.flags ||| b2n (c.aux.contains x.unit.toNat) }
  let all := sortBy faultBefore (((chunks 32 (c.data.length / 32) c.data).map faultOf).map mark)
  let kept := all.take mx
  let kept := kept.map (fun x => { x with flags := x.flags ||| b2n (faultWindow kept x) })
  let bytes := leBytes 4 kept.length ++ leBytes 4 c.retired ++ leBytes 8 c.done ++ kept.flatMap faultBytes
  let status := firstStatus [(foundNone m c, St.bindingMoved), (scopeSilent m c.scope c.quiet, St.unitDark), (c.late, St.timeout)] St.ok
  let m := incHf m R.TLY_CNT_FIRST_FAULTS
  let detail := w1 kept.length ++ w1 c.retired ++ w2 c.done ++ w2 ((all.head?.map (fun x => x.stamp)).getD 0)
  if isFabric c.origin then finish m c.id status (detail ++ bytesWords bytes) else finishResult m c status detail bytes

/-- A Station's answer to FIRST_FAULT, none where it fell silent, which leaves it out (R244): its STN_SNT_SUM (place 0), after which the hub
reads what it lists, or records of its list. -/
def faultResponse (m : Mach) (c : Cmd) (q : Req) (data : Option (List Byte)) : Mach :=
  let d := q.die
  let m := match data with
    | none => updCmd m c.id (fun x => { x with need := x.need - 1 })
    | some b =>
      if q.idx = 0 then
        let n := bytesAt b 0 8
        let listed := nfld n 16 7
        let reads := (List.range ((listed + 7) / 8)).map (fun k => faultRead m c d (0x6100 + 256 * k) (32 * Nat.min 8 (listed - 8 * k)) (k + 1))
        updCmd m c.id (fun x => { x with
          need := x.need - 1 + reads.length, todo := x.todo ++ reads, done := x.done + nfld n 0 10, retired := x.retired + 1 })
      else updCmd m c.id (fun x => { x with need := x.need - 1, data := x.data ++ b })
  let m := pump m c.id
  match findCmd m c.id with
  | some x => if x.need = 0 then faultEnd m x else m
  | none => m

/-- The SENT_DIES gather has returned: the hub reads STN_SNT_SUM of each Station that set its bit (R244). -/
def faultGathered (m : Mach) (c : Cmd) : Mach :=
  let map := (List.range 4).foldl (fun n k => n + c.vals.getD k 0 * 2 ^ (32 * k)) 0
  let dies := (bitsOf map 100).filter (fun d => stnAnswers m d && nbit c.skipped d)
  if dies.isEmpty then faultEnd m c
  else
    let m := updCmd m c.id (fun x => { x with phase := 2, need := dies.length, todo := dies.map (fun d => faultRead m c d 0x6010 8 0) })
    pump m c.id

/-- Every Station of a FIRST_FAULT has collected, or can no longer: the hub gathers SENT_DIES (R244). With KINDS 0 it collects nothing. -/
def faultCheck (m : Mach) (cmd : Nat) : Mach :=
  match findCmd m cmd with
  | none => m
  | some c =>
    let waits := m.run.arms.any (fun a => a.cmd == cmd) ||
      (scopeDies m c.scope).any (fun d => stnAnswers m d && (stn m d).collects.any (fun x => x.cmd == cmd))
    if c.op != 0x0504 || c.phase != 0 || waits then m
    else
      let m := updCmd m cmd (fun x => { x with phase := 1, vals := List.replicate 8 0 })
      let rings := (upRings m).filter (fun k => (scopeDies m c.scope).any (fun d => ringOf d == k && nbit c.skipped d))
      if rings.isEmpty then faultEnd m c
      else rings.foldl (fun m k => gatherRing m cmd 1 0x20 16 (zeros 16) (cmdRoutine m cmd) k) m

/-- The meaning of FIRST_FAULT_COLLECT: 64 ticks after T the Station collects, and the hub goes on. -/
def execFirstFaultCollect (die : Nat) (s : State) : Host.Outcome State Fault Refusal :=
  if 100 ≤ die then .fault .noSuchUnit
  else
    let m := s.m
    let due := (stn m die).collects.filter (fun c => decide (c.t + 64 ≤ repNow m die))
    let m := if stnUp m die then due.foldl (fun m c => collectOn m die c) m else m
    .next { s with m := ((m.cmds.filter (fun c => c.op == 0x0504)).map (fun c => c.id)).foldl faultCheck m }

end Sys2Proof.Machine
end

