-- ==== Sys2Proof/Machine/TraceCmd.lean ====
section
/-! DEFINITION. Trace streams: TRACE_CONFIG, TRACE_START, TRACE_STOP and TRACE_DRAIN, what Taps and endpoints record, horizons,
spills and the merge (R248-R286). -/

namespace Sys2Proof.Machine

/-! ### Configuration (R249-R251, R261) -/

/-- The stream's Session holds SECURE_DEBUG over a partition whose trace policy permits privileged trace (R261); Session 0 stands
for firmware. -/
def privOk (m : Mach) (sid part : Nat) : Bool :=
  (sid == 0 || decide (3 ≤ levelOf m sid part)) && m.trc.policy.getLsbD part

/-- The scope kind by which a stream takes endpoints: a die scope takes those bound to its partition. -/
def linkKind (kind : Nat) : Nat := if kind = 3 then 4 else kind

/-- The endpoints of die d that a stream takes (R249). -/
def streamPorts (m : Mach) (d : Nat) (s : Scope) (links : Bool) : List Nat :=
  if links && decide (3 ≤ s.kind) then scopePorts m d (linkKind s.kind) s.parts else []

/-- The cores of die d that a stream takes. -/
def streamCores (m : Mach) (d : Nat) (s : Scope) : List Nat := memberCores m d s.kind s.unit s.parts

/-- A Tap records for another stream (R250). -/
def tapHeld (m : Mach) (d p : Nat) (own : Option Nat) : Bool :=
  tf m d p R.TAP_TRC_CTL_EN == 1 && some (tf m d p R.TAP_TRC_CTL_SLOT) != own

/-- An endpoint records for another stream (R250). -/
def linkHeld (m : Mach) (d p : Nat) (own : Option Nat) : Bool :=
  sf m d R.STN_TRC_LINK_EN p == 1 && some (sf m d R.STN_TRC_LINK_SLOT p) != own

/-- Write the trace configuration of a Tap for the stream of a slot. -/
def tapConfig (m : Mach) (d p s : Nat) (x : Stream) : Mach :=
  let ok := privOk m x.sid (partNow m d p)
  let ctl := 1 + s * 2 + x.types * 2 ^ 4 + x.engMask * 2 ^ 8 + x.sample * 2 ^ 12 + x.rangeEn * 2 ^ 16 + b2n ok * 2 ^ 20
  let m := sput m d (tapBase p + 0xC00) (BitVec.ofNat 64 ctl)
  (List.range 8).foldl (fun m k => sput m d (tapBase p + 0xC10 + 8 * k) (BitVec.ofNat 64 (x.ranges.getD k 0))) m

/-- Write the trace control of an endpoint for the stream of a slot; an endpoint bound to no partition passes PRIV_OK only when
every partition of the package does. -/
def linkConfig (m : Mach) (d p s : Nat) (x : Stream) : Mach :=
  let ok := if sf m d R.STN_BIND_BOUND (bindPort p) = 1 then privOk m x.sid (sf m d R.STN_BIND_PART (bindPort p))
    else (pkgParts m).all (privOk m x.sid)
  let ctl := 1 + x.dir * 2 + b2n ok * 2 ^ 3 + x.vc * 2 ^ 4 + s * 2 ^ 12
  sput m d (0x7200 + 8 * p) (BitVec.ofNat 64 ctl)

/-- Frames of a Station that no stream holds. -/
def freeFrames (m : Mach) (d : Nat) : List Nat := (List.range 1024).filter (fun f => (trFrame m d f).isNone)

/-- Take n frames of a Station for a slot and set the stream up there. -/
def takeFrames (m : Mach) (d s n : Nat) (x : Stream) : Mach :=
  let m := ((freeFrames m d).take n).foldl (fun m f => setFrame m d f (some { slot := s })) m
  trcRegs (updTr m d s (fun _ => { mode := x.mode, cls := x.cls, quota := n })) d s

/-- The frames by which the Stations of a stream fall short, those of its slot counting as free. -/
def frameShort (m : Mach) (dies : List Nat) (own : Option Nat) (n : Nat) : Nat :=
  dies.foldl (fun acc d => Nat.max acc (n - ((freeFrames m d).length + (own.map (fun s => (slotFrames m d s).length)).getD 0))) 0

/-- The configuration that a TRACE_CONFIG body spells. -/
def streamOf (m : Mach) (i : Issuer) (b : List W32) : Stream :=
  let s := scopeAt m b 1
  let w := wAt b 5
  let x := wAt b 7
  { handle := wAt b 0, sid := i.sess, scope := s, mode := wfld w 0 2, cls := wfld w 4 4, types := wfld w 8 4,
    engMask := wfld w 12 4, sample := wfld w 16 4, links := wfld w 20 1 == 1, rangeEn := wfld w 24 4,
    frames := (wAt b 6).toNat, dir := wfld x 1 2, vc := wfld x 8 8, spill := wAt b 8, spillLen := (wAt b 9).toNat,
    ranges := (List.range 8).map (fun k => w64At b (10 + 2 * k)), dies := scopeDies m s }

/-- Row 1 of Table 8.7. -/
def traceMalformed (m : Mach) (b : List W32) (x : Stream) : Bool :=
  let w := wAt b 5
  b.length != 26 || wfld w 2 2 != 0 || wfld w 21 3 != 0 || wfld w 28 4 != 0 || wfld (wAt b 7) 0 1 != 0 || wfld (wAt b 7) 3 5 != 0 ||
  wfld (wAt b 7) 16 16 != 0 || x.scope.kind == 0 || decide (6 ≤ x.scope.kind) || !scopeOk m b 1 ||
  !(x.cls == 1 || x.cls == 2 || x.cls == 4 || x.cls == 8) || x.frames == 0 ||
  (List.range 4).any (fun r => nbit x.rangeEn r && decide (x.ranges.getD (2 * r + 1) 0 < x.ranges.getD (2 * r) 0)) ||
  (x.types == 0 && !x.links) ||
  (x.mode == 3 && (x.spillLen % 4096 != 0 || decide (x.spillLen < 8192) || x.spill == 0))

/-- A stream handle is stale (R317). -/
def streamStale (m : Mach) (i : Issuer) (h : W32) : Bool := i.origin != .firmware && !handleCurrent m 4 h

/-- A current stream handle of another Session (R320). -/
def streamDenied (m : Mach) (i : Issuer) (h : W32) : Bool :=
  i.origin != .firmware && handleCurrent m 4 h && descOwner m 4 h != ownerHandle m i

/-- The checks of TRACE_CONFIG: the status with its failure detail, and the slot: that of the stream, or the lowest free one. -/
def traceConfigCheck (m : Mach) (i : Issuer) (b : List W32) : Nat × List W32 × Option Nat :=
  let x := streamOf m i b
  let own := streamSlot m x.handle i.sess
  let old := own.bind (stream m)
  let slot := match own with
    | some s => some s
    | none => (List.range 8).find? (fun s => (stream m s).isNone)
  let held := x.dies.any (fun d => (streamCores m d x.scope).any (fun c => tapHeld m d c own) ||
    (streamPorts m d x.scope x.links).any (fun q => linkHeld m d q own))
  let spiller := x.mode == 2 && (List.range 8).any (fun s => some s != own && ((stream m s).map (fun y =>
    y.mode == 2 && y.dies.any (fun d => x.dies.contains d))).getD false)
  let short := frameShort m x.dies own x.frames
  let dark := x.mode == 2 && x.dies.any (fun d => !stackTrained m (quireDest d).1)
  let st := firstStatus [
    (traceMalformed m b x, St.malformed), (scopeDark m x.scope, St.unitDark),
    (!scopeLevel m i x.scope 1 || streamDenied m i x.handle || (x.spill != 0 && bufDenied m i x.spill true true), St.notAuthorised),
    (scopeMoved m x.scope, St.bindingMoved),
    (streamStale m i x.handle || (x.spill != 0 && bufStale m i x.spill), St.staleHandle),
    ((old.map (fun y => y.state == 2 || y.state == 3)).getD false || held || spiller, St.busy),
    (slot.isNone, St.noSlot), (decide (1024 < x.frames) || decide (0 < short) || dark, St.doesNotFit)] St.ok
  let lack := Nat.max (4096 * short) (if dark then 1572864 else 0)
  (st, if st = St.doesNotFit then w1 (if 1024 < x.frames then x.frames - 1024 else lack) else [], slot)

/-- Configure a stream in slot s: what an earlier configuration held there is freed, and each Station takes frames, Taps and
endpoints for it. -/
def configStream (m : Mach) (s : Nat) (x : Stream) : Mach :=
  let m := match stream m s with
    | some y => y.dies.foldl (fun m d => freeStream m d s) m
    | none => m
  let m := setStream m s (some x)
  x.dies.foldl (fun m d =>
    let m := takeFrames m d s x.frames x
    let m := (streamCores m d x.scope).foldl (fun m c => tapConfig m d c s x) m
    (streamPorts m d x.scope x.links).foldl (fun m q => linkConfig m d q s x) m) m

/-- TRACE_CONFIG (Tables 8.6, 8.7). -/
def doTraceConfig (m : Mach) (i : Issuer) (p : Pkt) : Mach :=
  let b := p.body
  let x := streamOf m i b
  match traceConfigCheck m i b with
  | (0, _, some s) =>
    let m := configStream m s x
    answer m i 0x0601 p.cookie St.ok (w1 s ++ w1 x.dies.length ++ w1 (sumBy (fun d => (streamCores m d x.scope).length) x.dies) ++
      w1 (sumBy (fun d => (streamPorts m d x.scope x.links).length) x.dies))
  | (st, bad, _) => answer m i 0x0601 p.cookie st bad

/-- The meaning of TRACE_CONFIG. -/
def execTraceConfig (p : Pkt) (s : State) : Host.Outcome State Fault Refusal :=
  hostRow 0x0601 p s (fun m i => doTraceConfig m i p)

/-! ### Frames off the die (R272-R274) -/

/-- Closed frames of a slot on a die that hold data and no drain reads, the oldest first. -/
def spillable (m : Mach) (d s : Nat) : List (Nat × TrFrame) :=
  sortBy (fun a b => seqLater b.2.seq a.2.seq) ((slotFrames m d s).filter (fun f => f.2.state == 2 && !f.2.reading))

/-- Where ring q of a stack holds its frame at a place (R167, R272). -/
def ringAddr (m : Mach) (d place : Nat) : Nat :=
  let (st, q) := quireDest d
  hamperBase m st + spillOffset + q * 1572864 + place * 4096

/-- A frame moves to the Hamper ring, which reuses its oldest frame but none that a drain reads; the frame is empty then. -/
def spillHamper (m : Mach) (d s f : Nat) (x : TrFrame) : Mach :=
  let ring := (stn m d).spill
  let place := (stn m d).spillNext
  let old := ring.find? (fun e => e.1 == place)
  if (old.map (fun e => e.2.reading)).getD false then m
  else
    let m := match old with
      | some e => loseFrame m d e.2.slot (hbmRead m (ringAddr m d place) 4096)
      | none => m
    let m := hbmWrite m (ringAddr m d place) x.data
    let m := updStn m d (fun y => { y with
      spill := y.spill.filter (fun e => e.1 != place) ++ [(place, { x with data := [] })],
      spillNext := (place + 1) % 384 })
    trcRegs (setFrame m d f (some { slot := s })) d s

/-- The frames that a host ring holds (R273). -/
def ringFrames (x : Stream) : Nat := x.spillLen / 4096 - 1

/-- The host ring takes one more frame (R273): the buffer is current and large enough, and PRODUCED − CONSUMED is below N. -/
def hostRoom (m : Mach) (x : Stream) : Bool :=
  match bufferOf m x.spill with
  | some b => decide (x.spillLen ≤ b.length) &&
      decide ((memNat m.hostMem b.addr 8 + 2 ^ 64 - memNat m.hostMem (b.addr + 8) 8) % 2 ^ 64 < ringFrames x)
  | none => false

/-- A frame moves to the host ring: the frame is written before PRODUCED advances (R273). -/
def spillHost (m : Mach) (d s f : Nat) (x : Stream) (y : TrFrame) : Mach :=
  match bufferOf m x.spill with
  | none => m
  | some b =>
    let n := memNat m.hostMem b.addr 8
    let mem := memWrite m.hostMem (b.addr + 4096 * (1 + n % ringFrames x)) y.data
    let mem := memWrite mem b.addr (leBytes 8 (n + 1))
    trcRegs (setFrame { m with hostMem := mem } d f (some { slot := s })) d s

/-- Move one frame of a slot off the die, when there is one and it has somewhere to go. -/
def spillOne (m : Mach) (d s : Nat) : Mach :=
  match stream m s, spillable m d s with
  | some x, (f, y) :: _ =>
    if x.mode = 2 then spillHamper m d s f y
    else if x.mode = 3 ∧ hostRoom m x then spillHost m d s f x y
    else m
  | _, _ => m

/-- TRC_BURST.GAP_NS, held to 200-65,535. -/
def burstGap (m : Mach) : Nat := Nat.max 200 (hf m R.TRC_BURST_GAP_NS)

/-- A route of a die is free for a burst: GAP_NS have passed since the latest one (R274). Route 0 is the die's port 4 link, route 1 the
fabric's route to the serving hub's anchor. -/
def burstDue (m : Mach) (d route : Nat) : Bool :=
  (Store.get none (stn m d).lastBurst route).all (fun t => decide (t + burstGap m ≤ repNow m d))

/-- A burst carries one frame off a die: its Station holds mission traffic on the links of the route meanwhile, and gives them back
(R4, R274). -/
def burst (m : Mach) (d route : Nat) : Mach :=
  let m := updStn m d (fun y => { y with lastBurst := Store.put none y.lastBurst route (some (repNow m d)) })
  if route = 0 then emit (emit m (.link d 4 4)) (.link d 4 5) else emit (emit m (.route d 4)) (.route d 5)

/-- The route by which a stream spills. -/
def spillRoute (x : Stream) : Nat := if x.mode = 2 then 0 else 1

/-- The meaning of SPILL_BURST: one frame of a SPILL stream leaves the die, at most one in each GAP_NS (R274). -/
def execSpillBurst (die slot : Nat) (s : State) : Host.Outcome State Fault Refusal :=
  if 100 ≤ die then .fault .noSuchUnit
  else
    let m := s.m
    match stream m slot with
    | none => .next s
    | some x =>
      let can := (x.mode == 2 || (x.mode == 3 && hostRoom m x)) && !(spillable m die slot).isEmpty && stnAnswers m die
      if can && burstDue m die (spillRoute x) then .next { s with m := spillOne (burst m die (spillRoute x)) die slot }
      else .next s

/-! ### The merge (R276-R282) -/

/-- The Unit Path of a source number of a die at level 1, or 5 for an endpoint. -/
def srcPath (m : Mach) (d src : Nat) : W32 := if src < 128 then corePath m d src else portPath m d (src - 128)

/-- A record as Table 8.5 merges it; SYNC is not merged. -/
def mergeFields (m : Mach) (key d : Nat) (loose gap : Bool) (r : RawRec) : Option MergeRec :=
  let base (ty : Nat) : MergeRec :=
    { key := key, die := d, stamp := r.stamp, source := srcPath m d r.src, loose := loose, gap := gap, ty := ty }
  match r.body with
  | .tx kind aux addr => some { base 1 with source := engPath m d r.src (aux % 4), sub := kind, aux := aux, a := addr }
  | .sync _ _ => none
  | .sleep => some (base 3)
  | .wake => some (base 4)
  | .redact n span => some { base 5 with a := n, b := span }
  | .overrun n => some { base 6 with a := n }
  | .mark v => some { base 7 with a := v }
  | .halt reason aux => some { base 8 with source := engPath m d r.src (aux % 4), sub := reason, aux := aux }
  | .resume mask => some { base 9 with aux := mask }
  | .link sub vc len header =>
    some { base 10 with sub := sub, aux := vc, a := len + header.length * 2 ^ 16, b := bytesAt (padTo 8 header) 0 8 }

/-- What the reading of a die's frames carries: the records so far, the next SEQ expected, the sources that owe a GAP, and
whether a SEQ was skipped. -/
structure MergeRun where
  recs : List MergeRec := []
  next : Nat
  gaps : List Nat
  skip : Bool := false
  deriving DecidableEq, Repr

/-- Every source of a die owes a GAP. -/
def dieGaps (d : Nat) (gaps : List Nat) : List Nat :=
  gaps.filter (fun k => k / 256 != d) ++ (List.range 144).map (fun j => d * 256 + j)

/-- Read one record of a good Folio. -/
def mergeOne (m : Mach) (key d low high : Nat) (loose : Bool) (r : MergeRun) (x : RawRec) : MergeRun :=
  if x.stamp < low ∨ high ≤ x.stamp then r
  else
    match mergeFields m key d loose (r.gaps.contains (d * 256 + x.src)) x with
    | none => r
    | some y =>
      let gaps := r.gaps.filter (fun k => k != d * 256 + x.src)
      { r with recs := r.recs ++ [y], gaps := if y.ty = 6 then gaps ++ [d * 256 + x.src] else gaps }

/-- Read one frame: a CORRUPT frame, or one with a Folio that fails a check, gives CORRUPT records and nothing else (R281). -/
def mergeFrame (m : Mach) (d low high : Nat) (r : MergeRun) (e : Nat × TrFrame) : MergeRun :=
  let (key, f) := e
  let folios := (frameFolios f.data).map (fun o => o.bind readFolio)
  let bad := if f.state = 3 then 1 else (folios.filter (fun o => o.isNone)).length
  if f.state = 3 ∨ 0 < bad then
    let c : MergeRec := { key := key, die := d, stamp := f.stamp, source := stnPath m d, ty := 11, a := f.seq }
    { r with recs := r.recs ++ (if low ≤ f.stamp ∧ f.stamp < high then List.replicate bad c else []),
             next := (f.seq + f.folios) % 2 ^ 32, gaps := dieGaps d r.gaps }
  else
    (folios.filterMap id).foldl (fun r x =>
      let skip := x.1 != r.next
      let r := { r with next := (x.1 + 1) % 2 ^ 32, skip := r.skip || skip, gaps := if skip then dieGaps d r.gaps else r.gaps }
      x.2.2.2.foldl (mergeOne m key d low high (nbit x.2.2.1 0)) r) r

/-- The undrained frames of a stream on a die that hold records below H, in SEQ order with their names: those in the Hamper
ring and those of the buffer. Frames that an earlier horizon took and left hold none (log entry 48). -/
def drainFrames (m : Mach) (d s high from_ : Nat) : List (Nat × TrFrame) :=
  let ring := ((stn m d).spill.filter (fun e => e.2.slot == s)).map (fun e =>
    (d * 2 ^ 16 + 2 ^ 15 + e.1, { e.2 with data := hbmRead m (ringAddr m d e.1) 4096 }))
  let held := ((slotFrames m d s).filter (fun e => decide (2 ≤ e.2.state))).map (fun e => (d * 2 ^ 16 + e.1, e.2))
  sortBy (fun a b => seqLater b.2.seq a.2.seq)
    ((ring ++ held).filter (fun e => decide (e.2.stamp < high) && !seqLater from_ e.2.seq))

/-- A drain reads a frame, or reads it no more (R270). -/
def markReading (m : Mach) (v : Bool) (key : Nat) : Mach :=
  let d := key / 2 ^ 16
  let k := key % 2 ^ 16
  if k < 2 ^ 15 then
    match trFrame m d k with
    | some f => setFrame m d k (some { f with reading := v })
    | none => m
  else updStn m d (fun y => { y with spill := y.spill.map (fun e =>
    if e.1 == k - 2 ^ 15 then (e.1, { e.2 with reading := v }) else e) })

/-- A frame whose records have all been written out returns to the free frames of its Station, or leaves its ring (R278). -/
def freeFrame (m : Mach) (s key : Nat) : Mach :=
  let d := key / 2 ^ 16
  let k := key % 2 ^ 16
  if k < 2 ^ 15 then trcRegs (setFrame m d k none) d s
  else updStn m d (fun y => { y with spill := y.spill.filter (fun e => e.1 != k - 2 ^ 15) })

/-- IN_WINDOW of a merged record (R98, R280). -/
def mergeWindow (recs : List MergeRec) (low high : Nat) (r : MergeRec) : Bool :=
  r.loose || decide (r.stamp ≤ low + 4) || decide (high ≤ r.stamp + 4) ||
  recs.any (fun x => x.die != r.die && decide (x.stamp ≤ r.stamp + 4) && decide (r.stamp ≤ x.stamp + 4))

/-- A merged record (Table 8.4). -/
def mergeBytes (r : MergeRec) : List Byte :=
  leBytes 8 r.stamp ++ leBytes 4 r.source.toNat ++ [BitVec.ofNat 8 r.ty, BitVec.ofNat 8 r.sub,
    BitVec.ofNat 8 (b2n r.window + 2 * b2n r.gap), BitVec.ofNat 8 r.aux] ++ leBytes 8 r.a ++ leBytes 8 r.b

/-- The merge of a horizon: the records of the frames of every answering Station, read in SEQ order, in the standard order (R97,
R277-R280). No frame has been read yet, so that none of the records stands in the Merge Buffer (R279). -/
def mergeHorizon (m : Mach) (s : Nat) (x : Stream) (low high : Nat) : Mach :=
  let dies := x.dies.filter (stnAnswers m)
  let runs := dies.map (fun d =>
    let fs := drainFrames m d s high (Store.get 0 x.seqNext d)
    (d, fs.map Prod.fst, fs.foldl (mergeFrame m d low high)
      { next := Store.get 0 x.seqNext d, gaps := x.gaps.filter (fun k => k / 256 == d) }))
  let recs := sortBy (fun a b => decide (a.stamp < b.stamp) || (a.stamp == b.stamp && decide (a.source.toNat < b.source.toNat)))
    (runs.flatMap (fun r => r.2.2.recs))
  let frames := runs.flatMap (fun r => r.2.1)
  let lost := sumBy (fun (r : MergeRec) => if r.ty = 6 then r.a else 0) recs
  let g : Merge := { low := low, high := high, frames := frames, unread := frames,
                     waiting := recs.map (fun r => { r with window := mergeWindow recs low high r }), present := true, since := gtcNow m,
                     lost := lost, overrun := recs.any (fun r => r.ty == 6) || (x.mode == 0 && runs.any (fun r => r.2.2.skip)) }
  let m := frames.foldl (fun m k => markReading m true k) m
  updStream m s (fun y => { y with
    merge := some g, seqNext := runs.foldl (fun st r => Store.put 0 st r.1 r.2.2.next) y.seqNext,
    gaps := y.gaps.filter (fun k => !dies.contains (k / 256)) ++ runs.flatMap (fun r => r.2.2.gaps) })

/-! ### The Merge Buffer (R278, R279) -/

/-- The records of a merge that no record of an unread frame can precede: those that have been placed. -/
def placed (g : Merge) : Nat := (g.waiting.takeWhile (fun r => !g.unread.contains r.key)).length

/-- The merged records of a stream that stand in the Merge Buffer. -/
def buffered (g : Merge) : Nat := if g.present then placed g - g.written else 0

/-- The merged records that the Merge Buffer holds for every stream. -/
def bufferUsed (m : Mach) : Nat := sumBy (fun s => ((stream m s).bind (fun x => x.merge)).elim 0 buffered) (List.range 8)

/-- The Merge Buffer holds 16 MiB of merged records of 32 bytes. -/
def bufferSize : Nat := 524288

/-- A Station that does not answer any more keeps its unread frames: the merge goes on without them (R277, R520). -/
def dropSilent (m : Mach) (s : Nat) (g : Merge) : Mach :=
  let gone (k : Nat) : Bool := g.unread.contains k && !stnAnswers m (k / 2 ^ 16)
  if !(g.unread.any gone) then m
  else
    let m := (g.unread.filter gone).foldl (fun m k => markReading m false k) m
    let left (l : List Nat) : List Nat := l.filter (fun k => !gone k)
    let g := { g with frames := left g.frames, unread := left g.unread, waiting := g.waiting.filter (fun r => !gone r.key) }
    updStream m s (fun x => { x with merge := some g })

/-- A die sends the next frame of a merge to the hub, where its route is free and the Merge Buffer takes the records that this places
(R274, R279). -/
def readFrame (m : Mach) (s d : Nat) : Mach :=
  match (stream m s).bind (fun x => x.merge) with
  | none => m
  | some g =>
    match g.unread.find? (fun k => k / 2 ^ 16 == d) with
    | none => m
    | some k =>
      let g' := { g with unread := g.unread.erase k, since := gtcNow m }
      if g.present ∧ burstDue m d 1 ∧ bufferUsed m + (placed g' - placed g) ≤ bufferSize then
        burst (updStream m s (fun x => { x with merge := some g' })) d 1
      else m

/-- One clock of the merge of a stream: each Station may send a frame. -/
def readFrames (m : Mach) (s : Nat) : Mach :=
  match (stream m s).bind (fun x => x.merge) with
  | none => m
  | some g =>
    let m := dropSilent m s g
    ((g.unread.map (fun k => k / 2 ^ 16)).dedup).foldl (fun m d => readFrame m s d) m

/-- A drain ends (R278, R282): what it has written out leaves the merge, and frames all of whose records have been written return to
their Stations. -/
def endDrain (m : Mach) (c : Cmd) (s : Nat) (x : Stream) (g : Merge) : Mach :=
  let n := g.written
  let out := g.waiting.take n
  let rest := g.waiting.drop n
  let done := g.frames.filter (fun k => !(g.unread.contains k || rest.any (fun r => r.key == k)))
  let m := done.foldl (fun m k => freeFrame m s k) m
  let overs := out.filter (fun r => r.ty == 6)
  let bad := (out.filter (fun r => r.ty == 11)).length
  let m := incHf (incHf (incHf m R.TRC_CNT_MERGED n) R.TRC_CNT_OVERRUNS overs.length) R.TRC_CNT_CORRUPT bad
  let m := incHf m R.TRC_LOST_LOST (sumBy (fun (r : MergeRec) => r.a) overs)
  let left : Option Merge := if rest.isEmpty then none
    else some { g with waiting := rest, written := 0, frames := g.frames.filter (fun k => !done.contains k), since := gtcNow m }
  let m := updStream m s (fun y => { y with merge := left })
  let silent := x.dies.any (fun d => !stnAnswers m d)
  let st := firstStatus [(silent && !nbit c.flags 0, St.unitDark), (c.late, St.timeout), (decide (0 < bad), St.crcMismatch),
    (g.overrun, St.traceOverrun)] St.ok
  finish m c.id st (w2 x.horizon ++ w1 n ++ w1 (32 * n) ++ w1 (b2n !rest.isEmpty) ++ w2 g.lost)

/-- A drain writes out the placed records that fit, and ends once no more fits or none is left (R278). -/
def drainOut (m : Mach) (c : Cmd) : Mach :=
  let s := c.aux.headD 0
  match stream m s with
  | none => finish m c.id St.aborted (w2 c.t ++ w1 0 ++ w1 0 ++ w1 0 ++ w2 0)
  | some x =>
    let g : Merge := x.merge.getD { low := x.horizon, high := x.horizon }
    let most := (wAt c.body 4).toNat / 32
    let n := Nat.max g.written (Nat.min most (placed g))
    let out := (g.waiting.take n).drop g.written
    let m := if out.isEmpty then m
      else bufWrite m (issuerOf c) (wAt c.body 1) (w64At c.body 2 + 32 * g.written) (out.flatMap mergeBytes)
    let g := { g with written := n }
    if n = most ∨ n = g.waiting.length then endDrain m c s x g
    else updStream m s (fun y => { y with merge := some g })

/-- A merge that a new horizon replaces, or that is dropped: its frames stay on their Stations, their records unread (R278; log entry
48). -/
def dropMerge (m : Mach) (s : Nat) : Mach :=
  match (stream m s).bind (fun x => x.merge) with
  | none => m
  | some g => updStream (g.frames.foldl (fun m k => markReading m false k) m) s (fun y => { y with merge := none })

/-- A frame of a slot on a die whose records a horizon closed, which the host ring takes now (R282). -/
def spillsNow (m : Mach) (x : Stream) (d s h : Nat) : Bool :=
  stnAnswers m d && hostRoom m x && (spillable m d s).any (fun e => decide (e.2.stamp < h))

/-- A TRACE_DRAIN of a SPILL_HOST stream: each die moves a closed frame when its route is free, and the command ends once none is left or
the ring has no room (R274, R282; log entry 47). -/
def spillDrain (m : Mach) (c : Cmd) : Mach :=
  let s := c.aux.headD 0
  match stream m s with
  | none => finish m c.id St.aborted (w2 c.t ++ w1 0 ++ w1 0 ++ w1 0 ++ w2 0)
  | some x =>
    let m := x.dies.foldl (fun m d => if spillsNow m x d s c.t && burstDue m d 1 then spillOne (burst m d 1) d s else m) m
    if x.dies.any (fun d => spillsNow m x d s c.t) then m
    else finish m c.id (firstStatus [(x.dies.any (fun d => !stnAnswers m d), St.unitDark), (c.late, St.timeout)] St.ok)
      (w2 c.t ++ w1 0 ++ w1 0 ++ w1 0 ++ w2 0)

/-- A drain whose horizon every Station has closed goes on: phase 1 merges and writes (R277, R278), phase 2 spills to the host (R282). -/
def drainStep (m : Mach) (c : Cmd) : Mach :=
  match c.phase with
  | 1 => drainOut m c
  | 2 => spillDrain m c
  | _ => m

/-- A drain begins to collect: no Station of the stream that answers waits for the horizon any more (R276, R277). -/
def streamDrained (m : Mach) (c : Cmd) : Mach :=
  let s := c.aux.headD 0
  match stream m s with
  | none => finish m c.id St.aborted (w2 c.t ++ w1 0 ++ w1 0 ++ w1 0 ++ w2 0)
  | some x =>
    let open_ := x.dies.any (fun d => stnAnswers m d && (trS m d s).horizon.isSome)
    if c.phase ≠ 0 || open_ || m.run.arms.any (fun a => a.cmd == c.id) then m
    else
      let phase := if x.mode = 3 then 2 else 1
      let m := updCmd m c.id (fun y => { y with phase := phase })
      let m := if phase = 1 then mergeHorizon (dropMerge m s) s x (c.vals.headD 0) c.t else m
      drainStep m { c with phase := phase }

/-- One clock of the drains: frames come in, and what they place goes out. -/
def traceTick (m : Mach) : Mach :=
  let m := (m.stns.map Prod.fst).foldl traceClock m
  if hubStopped m then m
  else
  let m := (List.range 8).foldl readFrames m
  ((m.cmds.filter (fun c => c.op == 0x0604 && c.phase != 0)).map (fun c => c.id)).foldl (fun m id => match findCmd m id with
    | some c => drainStep m c
    | none => m) m

/-! ### TRACE_START and TRACE_STOP -/

/-- A TRACE_START, TRACE_STOP or TRACE_DRAIN whose arms have gone from every Station goes on (R94, R275, R277). -/
def traceCheck (m : Mach) (id : Nat) : Mach :=
  match findCmd m id with
  | none => m
  | some c =>
    if m.run.arms.any (fun a => a.cmd == id) then m
    else if c.op = 0x0604 then streamDrained m c
    else
      let s := c.aux.headD 0
      match stream m s with
      | none =>
        if c.op = 0x0602 then finish m id St.aborted (w2 c.t ++ w1 0 ++ w1 0)
        else if c.op = 0x0603 then finish m id St.aborted (w2 c.t ++ w2 0 ++ w2 0) else m
      | some x =>
        let st := firstStatus [(x.dies.any (fun d => !stnAnswers m d), St.unitDark), (c.late, St.timeout),
          (c.aborted, St.aborted)] St.ok
        let runs := x.dies.any (fun d => (trS m d s).running)
        if c.op = 0x0602 then
          let m := if c.aborted then m else updStream m s (fun y => { y with
            state := if runs then 3 else if y.horizon = 0 then 1 else 4 })
          finish m id st (w2 c.t ++ w1 c.members ++ w1 c.done)
        else if c.op = 0x0603 then
          let made := sumBy (fun d => (trS m d s).made) x.dies
          let lost := sumBy (fun d => (trS m d s).lost) x.dies
          let m := updStream m s (fun y => { y with state := if runs then 3 else 4, stopT := c.t })
          let m := if nbit (wAt c.body 3).toNat 0 then freeSlot m s else m
          finish m id st (w2 c.t ++ w2 made ++ w2 lost)
        else m

/-- Every trace command that waits looks again, and a stream that a closed Session left is freed once its stop is pending on no Station any
more (R248). -/
def traceChecks (m : Mach) : Mach :=
  let m := (m.cmds.filter (fun c => decide (0x0602 ≤ c.op) && decide (c.op ≤ 0x0604))).foldl (fun m c => traceCheck m c.id) m
  (List.range 8).foldl (fun m s => match stream m s with
    | some x => if x.releaseAtStop && !(m.run.arms.any (fun a => a.arm.action == 8 && a.arm.p0 == s && !a.arm.stitch)) then freeSlot m s else m
    | none => m) m

/-- The arm of a trace action of a stream, sent to its Stations. -/
def armTrace (m : Mach) (cmd action t s : Nat) (x : Stream) : Nat × Mach :=
  let a : Arm := { armId := 0, t := t, stitch := false, action := action, kind := x.scope.kind, flags := 0,
                   unit := armUnit x.scope, parts := x.scope.parts, p0 := s, p1 := 0 }
  sendArm m cmd a x.dies

/-- The stream that a command names, with its slot. -/
def streamNamed (m : Mach) (i : Issuer) (h : W32) : Option (Nat × Stream) :=
  match streamSlot m h i.sess with
  | some s => (stream m s).map (fun x => (s, x))
  | none => none

/-- The rows that TRACE_START and TRACE_STOP share (R285): MALFORMED, NOT_AUTHORISED, STALE_HANDLE, BUSY, TIMEOUT. A stop that
cancels an ARMED start takes no Waypoint slot. -/
def traceStatus (m : Mach) (i : Issuer) (h : W32) (bad : Bool) (busy : Stream → Bool) (t : Nat) : Nat :=
  let x := (streamNamed m i h).map Prod.snd
  let early := match x with
    | some y => tooEarly m (leadOf y.scope.kind) t
    | none => false
  firstStatus [
    (bad || tooFar m t, St.malformed),
    (streamDenied m i h || ((x.map (fun y => !scopeLevel m i y.scope 1)).getD false), St.notAuthorised),
    (streamStale m i h, St.staleHandle),
    (match x with
      | some y => busy y || (y.state != 2 && !slotsFree m y.dies 1)
      | none => true, St.busy),
    (early, St.timeout)] St.ok

/-- TRACE_START (R275, Table 8.6). -/
def startTrace (m : Mach) (i : Issuer) (op : Nat) (cookie : W64) (body : List W32) (h : W32) (t : Nat) (bad : Bool) : Mach :=
  let st := traceStatus m i h bad (fun x => !(x.state == 1 || x.state == 4)) t
  match st, streamNamed m i h with
  | 0, some (s, x) =>
    let at_ := resolveT m (leadOf x.scope.kind) t
    let (c, m) := newCmd m i op cookie body x.scope
    let m := updCmd m c.id (fun y => { y with op := 0x0602, t := at_, aux := [s] })
    let (arm, m) := armTrace m c.id 7 at_ s x
    traceCheck (updStream m s (fun y => { y with state := 2, arm := arm, cookie := cookie })) c.id
  | st, x => answer m i op cookie st (match x with
      | some y => waypointDetail m st (leadOf y.2.scope.kind)
      | none => [])

/-- TRACE_START. -/
def doTraceStart (m : Mach) (i : Issuer) (p : Pkt) : Mach :=
  startTrace m i 0x0602 p.cookie p.body (wAt p.body 0) (w64At p.body 1) (p.body.length != 3)

/-- The meaning of TRACE_START. -/
def execTraceStart (p : Pkt) (s : State) : Host.Outcome State Fault Refusal :=
  hostRow 0x0602 p s (fun m i => doTraceStart m i p)

/-- TRACE_STOP (R275, Table 8.6): a running stream stops at T; the start of an ARMED one is cancelled (R96, R285). -/
def stopTrace (m : Mach) (i : Issuer) (op : Nat) (cookie : W64) (body : List W32) (h : W32) (t flags : Nat) (bad : Bool) : Mach :=
  let st := traceStatus m i h (bad || decide (2 ≤ flags)) (fun x => !(x.state == 2 || x.state == 3)) t
  match st, streamNamed m i h with
  | 0, some (s, x) =>
    let at_ := resolveT m (leadOf x.scope.kind) t
    if x.state = 2 then
      let m := { m with cmds := m.cmds.map (fun c => if c.op == 0x0602 && c.aux == [s] then { c with aborted := true } else c) }
      let m := updStream (cancelArm m x.arm) s (fun y => { y with state := if y.horizon = 0 then 1 else 4 })
      answer (if nbit flags 0 then freeSlot m s else m) i op cookie St.ok (w2 at_ ++ w2 0 ++ w2 0)
    else
      let (c, m) := newCmd m i op cookie body x.scope
      let m := updCmd m c.id (fun y => { y with op := 0x0603, t := at_, aux := [s] })
      traceCheck (armTrace m c.id 8 at_ s x).2 c.id
  | st, x => answer m i op cookie st (match x with
      | some y => waypointDetail m st (leadOf y.2.scope.kind)
      | none => [])

/-- TRACE_STOP. -/
def doTraceStop (m : Mach) (i : Issuer) (p : Pkt) : Mach :=
  stopTrace m i 0x0603 p.cookie p.body (wAt p.body 0) (w64At p.body 1) (wAt p.body 3).toNat (p.body.length != 4)

/-- The meaning of TRACE_STOP. -/
def execTraceStop (p : Pkt) (s : State) : Host.Outcome State Fault Refusal :=
  hostRow 0x0603 p s (fun m i => doTraceStop m i p)

/-! ### TRACE_DRAIN -/

/-- A TRACE_DRAIN arms its horizon: not with CONTINUE, nor on a stopped stream with T 0. -/
def drainArms (x : Stream) (b : List W32) : Bool :=
  !nbit (wAt b 7).toNat 0 && !(x.state == 4 && w64At b 5 == 0)

/-- The checks of TRACE_DRAIN: the status with its failure detail; 0xFFFF stands for a length of 0, which only asks. -/
def drainStatus (m : Mach) (i : Issuer) (b : List W32) : Nat × List W32 :=
  let h := wAt b 0
  let buf := wAt b 1
  let off := w64At b 2
  let len := (wAt b 4).toNat
  let flags := (wAt b 7).toNat
  let cont := nbit flags 0
  let t := if cont then 0 else w64At b 5
  let x := (streamNamed m i h).map Prod.snd
  let hor := (x.map (fun y => y.horizon)).getD 0
  let lead := leadOf ((x.map (fun y => y.scope.kind)).getD 4)
  let bad := b.length != 8 || decide (2 ≤ flags) || off % 8 != 0 ||
    (!bufStale m i buf && decide (bufLen m i buf < off + len)) || (t != 0 && x.isSome && decide (t ≤ hor)) || tooFar m t
  let arms := (x.map (fun y => drainArms y b)).getD (!cont)
  let st := firstStatus [
    (bad, St.malformed),
    (streamDenied m i h || bufDenied m i buf false true ||
      ((x.map (fun y => !scopeLevel m i y.scope 1)).getD false), St.notAuthorised),
    (streamStale m i h || bufStale m i buf, St.staleHandle),
    (x.isNone || (hor == 0 && x.any (fun y => y.state == 1)), St.busy), (len == 0, 0xFFFF),
    (decide (len < 32), St.doesNotFit),
    (arms && !slotsFree m ((x.map (fun y => y.dies)).getD []) 1, St.busy), (tooEarly m lead t, St.timeout)] St.ok
  (st, if st = St.doesNotFit then w1 (32 - len) else waypointDetail m st lead)

/-- A TRACE_DRAIN that has passed its checks: what waits goes out at once with CONTINUE; else the horizon is armed, or taken as it is
on a stopped stream. -/
def startDrain (m : Mach) (i : Issuer) (p : Pkt) (s : Nat) (x : Stream) : Mach :=
  let b := p.body
  let flags := (wAt b 7).toNat
  let cont := nbit flags 0
  let arms := drainArms x b
  let at_ := if cont then x.horizon else if arms then resolveT m (leadOf x.scope.kind) (w64At b 5) else Nat.max x.stopT x.horizon
  let (c, m) := newCmd m i 0x0604 p.cookie b x.scope
  let m := updCmd m c.id (fun y => { y with t := at_, aux := [s], vals := [x.horizon], flags := flags })
  if cont then
    let m := updCmd m c.id (fun y => { y with phase := 1 })
    let m := updStream m s (fun y => { y with merge := y.merge.map (fun g => { g with present := true, since := gtcNow m }) })
    match findCmd m c.id with
    | some c => drainOut m c
    | none => m
  else
    let m := if arms then (armTrace m c.id 9 at_ s x).2 else m
    traceCheck (updStream m s (fun y => { y with horizon := at_ })) c.id

/-- TRACE_DRAIN (R277, R278, R285, Table 8.6). -/
def doTraceDrain (m : Mach) (i : Issuer) (p : Pkt) : Mach :=
  match drainStatus m i p.body, streamNamed m i (wAt p.body 0) with
  | (0, _), some (s, x) => startDrain m i p s x
  | (0xFFFF, _), some (_, x) =>
    answer m i 0x0604 p.cookie St.ok (w2 x.horizon ++ w1 0 ++ w1 0 ++
      w1 (b2n ((x.merge.map (fun g => !g.waiting.isEmpty)).getD false)) ++ w2 ((x.merge.map (fun g => g.lost)).getD 0))
  | (st, bad), _ => answer m i 0x0604 p.cookie st bad

/-- The meaning of TRACE_DRAIN. -/
def execTraceDrain (p : Pkt) (s : State) : Host.Outcome State Fault Refusal :=
  hostRow 0x0604 p s (fun m i => doTraceDrain m i p)

/-! ### Actions 7, 8 and 9 (Table 3.3) -/

/-- Recording starts on a Station that holds frames of the slot (R275). -/
def actTraceStart (m : Mach) (d : Nat) (a : Arm) : Mach :=
  let s := a.p0
  match stream m s with
  | none => m
  | some x =>
    if (slotFrames m d s).isEmpty then m
    else
      let m := updStream m s (fun y => { y with
        state := 3, startT := a.t, horizon := if y.horizon = 0 then a.t else y.horizon })
      let m := updCmd m (armCmd m a.armId) (fun c => { c with
        members := c.members + (streamCores m d x.scope).length,
        done := c.done + (streamPorts m d x.scope x.links).length })
      startOnDie m d s a.t

/-- Recording stops on a Station (R275). -/
def actTraceStop (m : Mach) (d : Nat) (a : Arm) : Mach := haltOnDie m d a.p0

/-- The horizon falls on a Station: records from it on wait behind it until it closes (R276). An earlier one that has not closed yet
closes first. -/
def actHorizon (m : Mach) (d : Nat) (a : Arm) : Mach :=
  let m := if (trS m d a.p0).horizon.isSome then closeHorizon (flushSlot m d a.p0) d a.p0 else m
  if (trS m d a.p0).running then fallHorizon m d a.p0 a.t else m

/-- The meaning of HORIZON_CLOSE: every source of the stream on the die has passed its token (R276). -/
def execHorizonClose (die slot : Nat) (s : State) : Host.Outcome State Fault Refusal :=
  if 100 ≤ die then .fault .noSuchUnit
  else match (trS s.m die slot).horizon with
    | some h => if tokensPassed s.m die slot h then .next { s with m := traceChecks (closeHorizon s.m die slot) } else .next s
    | none => .next s

/-- The meaning of MERGE_DISCARD: after 10 s without CONTINUE the merged records leave the Merge Buffer; their frames are
still held, and the next CONTINUE writes the same records (R279). -/
def execMergeDiscard (slot : Nat) (s : State) : Host.Outcome State Fault Refusal :=
  match (stream s.m slot).bind (fun x => x.merge) with
  | some g =>
    let busy := s.m.cmds.any (fun c => c.op == 0x0604 && c.aux.head? == some slot)
    if g.present ∧ ¬busy ∧ g.since + 10000000000 ≤ gtcNow s.m then
      .next { s with m := updStream s.m slot (fun x => { x with merge := some { g with present := false, unread := g.frames } }) }
    else .next s
  | none => .next s

/-! ### What Taps and endpoints record (R252-R265) -/

/-- SIZE of a transaction: ceil(log2 bytes), saturating at 15 (R256). -/
def sizeCode (n : Nat) : Nat := ((List.range 15).find? (fun k => decide (n ≤ 2 ^ k))).getD 15

/-- The core is bound to a partition of the stream's scope (R253). -/
def inStreamScope (m : Mach) (d p : Nat) (x : Stream) : Bool :=
  sf m d R.STN_BIND_BOUND p == 1 && (x.scope.kind == 5 || x.scope.parts.getLsbD (sf m d R.STN_BIND_PART p))

/-- Every filter but the sampler passes (R253). -/
def tapPasses (m : Mach) (d p : Nat) (x : Transaction) : Bool :=
  let en := tf m d p R.TAP_TRC_CTL_RANGE_EN
  let inRange (r : Nat) : Bool :=
    decide ((sget m d (tapBase p + 0xC10 + 16 * r)).toNat ≤ x.addr.toNat) &&
    decide (x.addr.toNat ≤ (sget m d (tapBase p + 0xC18 + 16 * r)).toNat)
  nbit (tf m d p R.TAP_TRC_CTL_TYPES) x.ttype && nbit (tf m d p R.TAP_TRC_CTL_ENGMASK) x.engine &&
  (en == 0 || (List.range 4).any (fun r => nbit en r && inRange r))

/-- The meaning of TAP_TRACE_RECORD: a transaction that every filter passes is recorded, or joins the redaction run (R252, R253,
R256, R261, R262). -/
def execTapTraceRecord (die tap : Nat) (x : Transaction) (s : State) : Host.Outcome State Fault Refusal :=
  if !tapOk die tap then .fault .noSuchUnit
  else
    let m := s.m
    let t := repNow m die + x.cycles / 2
    match tapStream m die tap t with
    | none => .next s
    | some k =>
      let inScope := match stream m k with
        | some y => inStreamScope m die tap y
        | none => false
      if !inScope || !tapPasses m die tap x then .next s
      else
        let m := beginSource m die k tap
        let n := (srcOf m die k tap).sampled
        let m := updSrc m die k tap (fun r => { r with sampled := r.sampled + 1 })
        if n % 2 ^ tf m die tap R.TAP_TRC_CTL_SAMPLE != 0 then .next { s with m := m }
        else
          let hide := (x.privileged || x.secure) && tf m die tap R.TAP_TRC_CTL_PRIV_OK == 0
          let aux := x.engine + sizeCode x.bytes * 4 + b2n x.err * 64
          .next { s with m := recordNow m die k tap t (if hide then none else some (.tx x.ttype aux x.addr.toNat)) }

/-- The meaning of LINK_TRACE_RECORD: an endpoint records the header of a packet that its DIR and VC masks select (R252, R253,
R261). -/
def execLinkTraceRecord (die port : Nat) (x : LinkHeader) (s : State) : Host.Outcome State Fault Refusal :=
  if 100 ≤ die ∨ portsOf die ≤ port then .fault .noSuchUnit
  else
    let m := s.m
    let k := sf m die R.STN_TRC_LINK_SLOT port
    let on := sf m die R.STN_TRC_LINK_EN port == 1 && records m die k (repNow m die) &&
      nbit (sf m die R.STN_TRC_LINK_DIR port) (b2n x.outgoing) && nbit (sf m die R.STN_TRC_LINK_VC port) x.vc
    if !on then .next s
    else
      let hide := x.secure && sf m die R.STN_TRC_LINK_PRIV_OK port == 0
      let r : TraceRec := .link (b2n x.outgoing + 2 * b2n x.err) x.vc x.bytes (x.header.take 8)
      .next { s with m := recordNow m die k (128 + port) (repNow m die) (if hide then none else some r) }

/-- A write to TAP_TRC_MARK makes a MARK record; while the Tap records for no stream it is ignored (R265). -/
def writeMark (m : Mach) (d p : Nat) (v : W64) : Mach := tapRecord m d p (repNow m d) (.mark v.toNat)

/-- The meaning of TAP_TRC_MARK. -/
def execTapTrcMark (die tap : Nat) (v : W64) (s : State) : Host.Outcome State Fault Refusal :=
  if !tapOk die tap then .fault .noSuchUnit else .next { s with m := writeMark s.m die tap v }

/-! ### Re-binding (R251) -/

/-- A core or endpoint is bound anew: what it made goes to the old stream, whose redaction run is written, and it then records for
the stream that holds its new partition, or for none. -/
def streamHolding (m : Mach) (d : Nat) (core : Option Nat) (port : Option Nat) : Option (Nat × Stream) :=
  (List.range 8).findSome? (fun s => (stream m s).bind (fun x =>
    let hit := x.dies.contains d &&
      (match core, port with
       | some p, _ => (streamCores m d x.scope).contains p
       | _, some q => (streamPorts m d x.scope x.links).contains q
       | _, _ => false)
    if hit then some (s, x) else none))

/-- A source that a re-bind brings to a stream owes a reason-1 SYNC (R251, R258). -/
def freshSource (m : Mach) (d s src : Nat) : Mach :=
  updSrc m d s src (fun r => { r with owed := 1, redact := none, inFolio := false, since := 0 })

/-- Re-bind the trace of a core: its Tap first passes what it made under the old binding (R251). -/
def rebindTap (m : Mach) (d p : Nat) : Mach :=
  let m := match tapStream m d p (repNow m d) with
    | some s => endRedaction m d s p
    | none => m
  let m := flushTap m d p
  match streamHolding m d (some p) none with
  | some (s, x) => freshSource (tapConfig m d p s x) d s p
  | none => sput m d (tapBase p + 0xC00) 0

/-- Re-bind the trace of an endpoint (R251). -/
def rebindLink (m : Mach) (d q : Nat) : Mach :=
  let s := sf m d R.STN_TRC_LINK_SLOT q
  let m := if sf m d R.STN_TRC_LINK_EN q = 1 ∧ (trS m d s).running then endRedaction m d s (128 + q) else m
  match streamHolding m d none (some q) with
  | some (s, x) => freshSource (linkConfig m d q s x) d s (128 + q)
  | none => sput m d (0x7200 + 8 * q) 0

end Sys2Proof.Machine
end

