-- ==== Sys2Proof/Machine/Routines.lean ====
section
/-! DEFINITION. Routines: their images, LOAD_ROUTINE, and what each step does (R287-R302). -/

namespace Sys2Proof.Machine

/-! ### Steps (R290) -/

/-- A step's fields. -/
structure StepF where
  op : Nat
  flags : Nat
  scope : Nat
  a : Nat
  b : Nat
  deriving DecidableEq, Repr

/-- The fields of a 128-bit step. -/
def stepOf (v : Nat) : StepF :=
  { op := nfld v 120 8, flags := nfld v 112 8, scope := nfld v 96 16, a := nfld v 64 32, b := nfld v 0 64 }

/-- The flags of Table 9.3. -/
def StepF.cont (x : StepF) : Bool := nbit x.flags 0
def StepF.toScratch (x : StepF) : Bool := nbit x.flags 1
def StepF.tmode (x : StepF) : Nat := nfld x.flags 2 2
def StepF.follow (x : StepF) : Bool := nbit x.flags 4
def StepF.opt (x : StepF) : Nat := nfld x.flags 5 3

/-- The words of the parameter block that a step names, 0 for a step without one. -/
def blockLen (r : Routine) (x : StepF) : Nat :=
  match x.op with
  | 4 => 8
  | 5 => 8
  | 6 => 2
  | 7 => 16
  | 8 => 9 + 6 * Nat.min 64 (bytesAt (scratchRead r (x.a + 4) 4) 0 4)
  | 9 => 11
  | 12 => 8
  | 18 => (match x.opt % 4 with
    | 0 => 3
    | 1 => 4
    | _ => 8)
  | _ => 0

/-- The parameter block of a step. -/
def stepBlock (r : Routine) (x : StepF) : List W32 := bytesWords (scratchRead r x.a (4 * blockLen r x))

/-- The scope entry of a step. -/
def stepScope (r : Routine) (x : StepF) : List W32 := (r.scopes[x.scope]?).getD []

/-- The scope entry with FOLLOW's epoch (Table 9.3). -/
def liveScope (m : Mach) (r : Routine) (x : StepF) : List W32 :=
  let ws := stepScope r x
  if x.follow ∧ wfld (wAt ws 0) 0 3 ≤ 4 then ws.set 2 (BitVec.ofNat 32 (epochOf m (wfld (wAt ws 0) 8 8))) else ws

/-- The epoch words of a block: each index with the index of its partition word. -/
def epochWords (x : StepF) (ws : List W32) : List (Nat × Nat) :=
  match x.op with
  | 7 => [(2, 3)]
  | 8 => (List.range ((ws.length - 9) / 6)).map (fun k => (9 + 6 * k, 10 + 6 * k))
  | 12 => if wfld (wAt ws 0) 0 2 = 2 then [] else [(2, 3)]
  | _ => []

/-- The block with FOLLOW's epochs. -/
def liveBlock (m : Mach) (r : Routine) (x : StepF) : List W32 :=
  let ws := stepBlock r x
  if x.follow then
    (epochWords x ws).foldl (fun ws e => ws.set e.2 (BitVec.ofNat 32 (epochOf m (wfld (wAt ws e.1) 0 8)))) ws
  else ws

/-- Put a Waypoint into words k and k + 1. -/
def withT (ws : List W32) (k t : Nat) : List W32 :=
  (ws.set k (BitVec.ofNat 32 t)).set (k + 1) (BitVec.ofNat 32 (t / 2 ^ 32))

/-- The body of the command that a step drives, its Waypoint words holding t (R293). -/
def stepBody (m : Mach) (r : Routine) (x : StepF) (t : Nat) : List W32 :=
  let sc := liveScope m r x
  let ws := liveBlock m r x
  match x.op with
  | 2 => sc ++ w2 t ++ w1 x.a
  | 3 => sc ++ w2 t ++ w1 x.a
  | 4 => sc ++ w2 t ++ ws.drop 6
  | 5 => sc ++ withT (ws.drop 4) 1 t
  | 7 => withT ws 14 t
  | 8 => withT ws 7 t
  | 9 => sc ++ w2 t ++ ws.drop 6
  | 10 => sc ++ w1 (x.a % 256)
  | 18 => withT ws (if x.opt % 4 = 2 then 5 else 1) t
  | _ => ws

/-- The lead of a step's command (Table 3.2). -/
def stepLead (m : Mach) (r : Routine) (x : StepF) : Nat :=
  match x.op with
  | 7 => if wfld (wAt (stepBlock r x) 0) 0 2 = 0 then 2000 else 10000
  | 8 => 10000
  | 18 => match (streamSlot m (wAt (stepBlock r x) 0) r.sid).bind (stream m) with
    | some y => leadOf y.scope.kind
    | none => 10000
  | _ => leadOf (wfld (wAt (stepScope r x) 0) 0 3)

/-- The Waypoint that TMODE and B form, 0 for NOW (Table 9.4). -/
def stepT (m : Mach) (x : StepF) (lastT lead : Nat) : Nat :=
  match x.tmode with
  | 0 => 0
  | 1 => x.b
  | 2 => (lastT + x.b) % 2 ^ 64
  | _ => if x.b = 0 then 0 else roundUp (gtcNow m + lead) x.b

/-- The target of WAIT_TICK (Table 9.4). -/
def waitTarget (m : Mach) (x : StepF) (lastT : Nat) : Nat :=
  match x.tmode with
  | 0 => gtcNow m + x.b
  | 1 => x.b
  | 2 => lastT + x.b
  | _ => if x.b = 0 then 0 else roundUp (gtcNow m) x.b

/-! ### Dispatch of a step's command -/

/-- The issuer of a step: the authority of the Session that loaded the Routine. -/
def stepIssuer (r : Run) : Issuer := { origin := .run r.index, sess := r.sid, port := .host }

/-- REPLACE (R294): the completed Stitch of the Dump is discarded, its CAPTURE Folios staying as the Dump's reservation. -/
def replaceStitch (m : Mach) (i : Issuer) (body : List W32) : Mach :=
  let u := dumpUse m i (wAt body 4)
  match u.bound, u.bound.bind (dump m) with
  | some k, some x =>
    if u.bad || u.stale || u.denied || x.state != 5 || !dumpLevel m i x 2 then m
    else
      let y : Dump := { state := 1, kind := x.kind, part := x.part, parts := x.parts, sid := x.sid, handle := x.handle,
                        reserved := x.reserved }
      setDump m k (some y)
  | _, _ => m

/-- Drive the host command of a step. -/
def driveStep (m : Mach) (r : Run) (y : Routine) (x : StepF) (t : Nat) : Mach :=
  let i := stepIssuer r
  let p : Pkt := { port := .host, session := y.handle, cookie := 0, body := stepBody m y x t }
  match x.op with
  | 2 => doHalt m i p
  | 3 => doResume m i p
  | 4 => doStep m i p
  | 5 => doStitch (if nbit x.opt 0 then replaceStitch m i p.body else m) i p
  | 6 => doPress m i p
  | 7 => doTally m i p
  | 8 => doCompare m i p
  | 9 => doFirstFault m i p
  | 10 => doHeadcount m i p true
  | 12 => doPeekPoke m i p false true
  | 18 => (match x.opt % 4 with
    | 0 => doTraceStart m i p
    | 1 => doTraceStop m i p
    | _ => doTraceDrain m i p)
  | _ => m

/-- The opcodes whose step takes a Waypoint (Table 9.5). -/
def takesWaypoint (op : Nat) : Bool := [2, 3, 4, 5, 7, 8, 9, 18].contains op

/-- Drive a step's command and note its Waypoint as LAST_T (R292). -/
def dispatchStep (m : Mach) (r : Run) (y : Routine) (x : StepF) : Mach :=
  let lead := stepLead m y x
  let t := stepT m x r.lastT lead
  let m1 := driveStep m r y x t
  if takesWaypoint x.op then
    let used := match m1.cmds.find? (fun c => c.origin == .run r.index) with
      | some c => c.t
      | none => if t = 0 then earliest m lead else t
    updRun m1 r.index (fun z => { z with lastT := used })
  else m1

/-! ### The run (R297, R301, R302) -/

/-- A step of a run has completed: the status block and LAST_DETAIL are written, and the run goes on at `next`, or ends. -/
def endStep (m : Mach) (index status : Nat) (detail : List Byte) (cont : Bool) (next : Option Nat) : Mach :=
  match runOf m index with
  | none => m
  | some r =>
    let m := updRoutine m r.routine r.sid (fun y =>
      scratchWrite (scratchWrite y 0 (leBytes 2 status ++ leBytes 2 r.pc ++ leBytes 4 r.steps ++ leBytes 8 r.lastT))
        0x40 (padTo 64 detail))
    let n := ((routineOf m r.routine r.sid).map (fun y => y.steps.length)).getD 0
    if r.stop then finishRun m r St.aborted
    else if status != 0 && !cont then finishRun m r status
    else
      match next with
      | none => finishRun m r St.ok
      | some k =>
        if n ≤ k then finishRun m r St.ok
        else updRun m index (fun z => { z with pc := k, busyStep := false, result := none, scratchTo := false, waiting := none })

/-- A row that executes the step at which a run stands: the run executes, stands at a boundary, and its step has one of these
opcodes. A run that has executed 65,536 steps ends instead (R302). -/
def stepRow (index : Nat) (ops : List Nat) (s : State) (g : Mach → Run → Routine → StepF → Mach) :
    Host.Outcome State Fault Refusal :=
  match runOf s.m index with
  | none => .next s
  | some r =>
    match routineOf s.m r.routine r.sid with
    | none => .next s
    | some y =>
      match y.steps[r.pc]? with
      | none => .next s
      | some v =>
        let x := stepOf v
        if r.executing && atBoundary r && r.result.isNone && ops.contains x.op then
          if 65536 ≤ r.steps then .next { s with m := finishRun s.m r St.stepBudgetExceeded }
          else
            let m := incHf (updRun s.m index (fun z => { z with steps := z.steps + 1, busyStep := true, scratchTo := x.toScratch }))
              R.RTN_STEPS_STEPS
            .next { s with m := g m { r with steps := r.steps + 1, busyStep := true, scratchTo := x.toScratch } y x }
        else .next s

/-- A control step: it completes at once with OK and the run goes on at `next`. -/
def controlDone (m : Mach) (r : Run) (next : Option Nat) : Mach := endStep m r.index St.ok [] false next

/-- The meaning of ROUTINE_COMMAND_STEP: HALT, RESUME, STEP, STITCH, PRESS, TALLY, COMPARE, FIRST_FAULT and HEADCOUNT. -/
def execRoutineCommandStep (run : Nat) (s : State) : Host.Outcome State Fault Refusal :=
  stepRow run [2, 3, 4, 5, 6, 7, 8, 9, 10] s dispatchStep

/-- The meaning of PEEK_TO_SCRATCH. -/
def execPeekToScratch (run : Nat) (s : State) : Host.Outcome State Fault Refusal := stepRow run [12] s dispatchStep

/-- The meaning of TRACE_CTL. -/
def execTraceCtl (run : Nat) (s : State) : Host.Outcome State Fault Refusal := stepRow run [18] s dispatchStep

/-- The meaning of END (R294). -/
def execRtnEnd (run : Nat) (s : State) : Host.Outcome State Fault Refusal :=
  stepRow run [0] s (fun m r _ _ => controlDone m r none)

/-- The meaning of WAIT_TICK: a target already passed completes at once (R294). -/
def execWaitTick (run : Nat) (s : State) : Host.Outcome State Fault Refusal :=
  stepRow run [1] s (fun m r _ x =>
    let t := waitTarget m x r.lastT
    let m := updRun m r.index (fun z => { z with lastT := t })
    if t ≤ gtcNow m then controlDone m r (some (r.pc + 1)) else updRun m r.index (fun z => { z with waiting := some t }))

/-- The meaning of WAIT_TICK_DONE: the GTC has reached the target (R294). -/
def execWaitTickDone (run : Nat) (s : State) : Host.Outcome State Fault Refusal :=
  match runOf s.m run with
  | some r =>
    match r.waiting with
    | some t => if t ≤ gtcNow s.m then .next { s with m := controlDone s.m r (some (r.pc + 1)) } else .next s
    | none => .next s
  | none => .next s

/-- A counter of a Routine. -/
def counter (y : Routine) (k : Nat) : Nat := Store.get 0 y.counters k

/-- Store a counter. -/
def setCounterTo (m : Mach) (r : Run) (k v : Nat) : Mach :=
  updRoutine m r.routine r.sid (fun y => { y with counters := Store.put 0 y.counters k (v % 2 ^ 32) })

/-- The meaning of SET_COUNTER (R295). -/
def execSetCounter (run : Nat) (s : State) : Host.Outcome State Fault Refusal :=
  stepRow run [13] s (fun m r _ x => controlDone (setCounterTo m r (x.a % 16) x.b) r (some (r.pc + 1)))

/-- The meaning of DEC_SKIP (R295). -/
def execDecSkip (run : Nat) (s : State) : Host.Outcome State Fault Refusal :=
  stepRow run [14] s (fun m r y x =>
    let k := x.a % 16
    if counter y k = 0 then controlDone m r (some (r.pc + 1 + nfld x.a 16 16))
    else controlDone (setCounterTo m r k (counter y k - 1)) r (some (r.pc + 1)))

/-- The condition of SKIP_IF (R296). -/
def condHolds (cond w b : Nat) : Bool :=
  match cond with
  | 0 => w == b
  | 1 => w != b
  | 2 => decide (w < b)
  | 3 => decide (b ≤ w)
  | 4 => w &&& b != 0
  | 5 => w &&& b == 0
  | _ => true

/-- The meaning of SKIP_IF (R296). -/
def execSkipIf (run : Nat) (s : State) : Host.Outcome State Fault Refusal :=
  stepRow run [15] s (fun m r y x =>
    let w := bytesAt (scratchRead y (x.a % 2 ^ 16) 8) 0 8
    controlDone m r (some (if condHolds x.opt w x.b then r.pc + 1 + nfld x.a 16 16 else r.pc + 1)))

/-- The meaning of JUMP (R295). -/
def execJump (run : Nat) (s : State) : Host.Outcome State Fault Refusal :=
  stepRow run [16] s (fun m r y x =>
    let k := x.a % 16
    if counter y k = 0 then controlDone m r (some (r.pc + 1))
    else controlDone (setCounterTo m r k (counter y k - 1)) r (some (x.b % 512)))

/-- The meaning of EVENT: ROUTINE_EVENT goes to the loading Session, and with TRAY to the tray (R294). -/
def execRoutineEvent (run : Nat) (s : State) : Host.Outcome State Fault Refusal :=
  stepRow run [17] s (fun m r _ x =>
    let e : Ev := { code := EvCode.routineEvent, source := hubPath m, stamp := gtcNow m, detail := w1 x.a ++ w2 x.b ++ w1 r.pc,
                    named := [r.sid], wide := false, tray := nbit x.opt 0, cookie := runCookie m r }
    controlDone (raiseEv m e) r (some (r.pc + 1)))

/-! ### BCAST_WRITE (R294) -/

/-- The broadcast write of 8 bytes at an offset of one Tap, fenced to a partition. -/
def bcastFrame (tap off part epoch v : Nat) : Frame :=
  { ftype := 5, routine := true, fenced := true, dest := 0x7F, src := 0, part := part, len := 8,
    word1 := BitVec.ofNat 64 (tapBase tap + off + 1 * 2 ^ 24 + epoch * 2 ^ 32), payload := leBytes 8 v }

/-- The broadcasts of a scope: one for each Tap index of a member, on each ring that holds a Station with that member. -/
def bcasts (m : Mach) (sc : Scope) (off v : Nat) : List (Nat × Frame) :=
  let dies := (scopeDies m sc).filter (fun d => decide (d < 64) && stnAnswers m d)
  let cores (d : Nat) : List Nat := memberCores m d sc.kind sc.unit sc.parts
  (List.range 128).flatMap (fun p =>
    ((upRings m).filter (fun k => dies.any (fun d => ringOf d == k && (cores d).contains p))).map
      (fun k => (k, bcastFrame p off sc.part sc.epoch.toNat v)))

/-- Send the broadcasts of a scope, each as the copies of R54. -/
def bcastAll (m : Mach) (sc : Scope) (off v : Nat) : Mach :=
  (bcasts m sc off v).foldl (fun m e => castRing m e.2 e.1) m

/-- A frame is a copy of one of these broadcasts. -/
def copyOf (fs : List Frame) (f : Frame) : Bool :=
  fs.any (fun x => { x with src := f.src, dest := f.dest, dir := f.dir } == f)

/-- A broadcast of a run's step still stands at the hub: held by the share, by a ring that starts no frame, or at an output of the hub's
own node (R62, R67, R294). -/
def bcastWaits (m : Mach) (r : Run) : Bool :=
  m.spine.heldFrames.any (fun h => copyOf r.frames h.2.2) || m.spine.onHold.any (fun h => copyOf r.frames h.2) ||
  m.spine.outs.any (fun o => o.2.queue.any (fun q => q.own && copyOf r.frames q.f))

/-- The offsets that BCAST_WRITE may name. -/
def bcastOffset (off : Nat) : Bool := (decide (0x400 ≤ off) && decide (off ≤ 0x4DF)) || off == 0xC50

/-- The meaning of BCAST_WRITE: under DEBUG over the partition (log entry 49) the broadcasts leave, and the step has its
result. -/
def execBcastWrite (run : Nat) (s : State) : Host.Outcome State Fault Refusal :=
  stepRow run [11] s (fun m r y x =>
    let sc := scopeAt m (liveScope m y x) 0
    let st := firstStatus [
      (scopeDark m sc, St.unitDark), (!scopeLevel m (stepIssuer r) sc 2, St.notAuthorised), (scopeMoved m sc, St.bindingMoved)] St.ok
    let fs := if st = 0 then (bcasts m sc (x.a % 2 ^ 13) x.b).map Prod.snd else []
    let m := updRun m r.index (fun z => { z with frames := fs })
    let m := if st = 0 then bcastAll m sc (x.a % 2 ^ 13) x.b else m
    reply m (.run r.index) 0 0 st [])

/-- The meaning of ROUTINE_STEP_DONE: the step's command has given its result. PEEK data goes to scratch; a BCAST_WRITE is done
once its broadcasts have left the hub (R294). -/
def execRoutineStepDone (run : Nat) (s : State) : Host.Outcome State Fault Refusal :=
  let m := s.m
  match runOf m run with
  | none => .next s
  | some r =>
    match r.result, routineOf m r.routine r.sid with
    | some (st, detail), some y =>
      let x := stepOf ((y.steps[r.pc]?).getD 0)
      if x.op = 11 ∧ bcastWaits m r then .next s
      else
        let peek := x.op == 12
        let m := if peek && st == 0 then
          updRoutine m r.routine r.sid (fun y => scratchWrite y (x.b % 2 ^ 16) (wordsBytes detail)) else m
        .next { s with m := endStep m run st (if peek then [] else wordsBytes detail) x.cont (some (r.pc + 1)) }
    | some (st, _), none => .next { s with m := finishRun m r (if st = 0 then St.aborted else st) }
    | _, _ => .next s

/-! ### LOAD_ROUTINE (R298, Table 9.6) -/

/-- The header of an image. -/
structure ImageHead where
  scopes : Nat
  steps : Nat
  params : Nat
  deriving DecidableEq, Repr

/-- The header of an image, when MAGIC, VERSION, the zero fields, the length and the CRC are right. -/
def imageHead (b : List Byte) : Option ImageHead :=
  let h : ImageHead := { scopes := bytesAt b 5 1, steps := bytesAt b 6 2, params := bytesAt b 8 4 }
  if bytesAt b 0 4 = 0x454E5452 ∧ bytesAt b 4 1 = 1 ∧ bytesAt b 12 4 = 0 ∧ (b.drop 24).take 36 = zeros 36 ∧ h.scopes ≤ 16 ∧
     1 ≤ h.steps ∧ h.params % 8 = 0 ∧ b.length = 64 + 16 * h.scopes + 16 * h.steps + h.params ∧ imageCrc b = bytesAt b 60 4
  then some h else none

/-- The Routine that an image spells, with nothing run. -/
def imageRoutine (b : List Byte) (h : ImageHead) (handle : W32) (sid : Nat) (image : W32) (off : Nat) (save : W32) (saveOff : Nat) :
    Routine :=
  let scopes := (chunks 16 h.scopes (b.drop 64)).map bytesWords
  let steps := (chunks 16 h.steps (b.drop (64 + 16 * h.scopes))).map leNat
  { handle := handle, sid := sid, scopes := scopes, steps := steps, paramBytes := h.params,
    name := BitVec.ofNat 64 (bytesAt b 16 8), crc := bytesAt b 60 4, image := image, imageOff := off, imageLen := b.length,
    save := save, saveOff := saveOff, scratch := memWrite [] 0x80 (b.drop (64 + 16 * h.scopes + 16 * h.steps)) }

/-- The flag bits that an opcode uses (Table 9.5). -/
def flagMask (op : Nat) : Nat :=
  match op with
  | 1 => 0x0C
  | 2 => 0x1D
  | 3 => 0x1D
  | 4 => 0x1D
  | 5 => 0x3D
  | 6 => 0x01
  | 7 => 0x1F
  | 8 => 0x1F
  | 9 => 0x1F
  | 10 => 0x11
  | 11 => 0x11
  | 12 => 0x11
  | 15 => 0xE0
  | 17 => 0x20
  | 18 => 0x6F
  | _ => 0

/-- The opcodes that need a scope (Table 9.5). -/
def needsScope (op : Nat) : Bool := [2, 3, 4, 5, 9, 10, 11].contains op

/-- B keeps Table 9.4. -/
def bOk (x : StepF) : Bool :=
  match x.tmode with
  | 0 => if x.op = 1 then decide (x.b ≤ 2 ^ 40) else x.b == 0
  | 1 => true
  | 2 => decide (x.b ≤ 2 ^ 40)
  | _ => x.b % 16 == 0 && decide (16 ≤ x.b) && decide (x.b ≤ 2 ^ 40)

/-- A skip of SKIP from step i stays within the Routine (R296). -/
def skipOk (n i skip : Nat) : Bool := decide (1 ≤ skip) && decide (skip < 512) && decide (i + 1 + skip ≤ n)

/-- The operands of a step keep Table 9.5, its block apart. -/
def operandsOk (m : Mach) (y : Routine) (i : Nat) (x : StepF) : Bool :=
  let n := y.steps.length
  let block := decide (0x80 ≤ x.a) && x.a % 8 == 0 && decide (x.a + 4 * blockLen y x ≤ 0x80 + y.paramBytes)
  let sc := stepScope y x
  let kind := wfld (wAt sc 0) 0 3
  x.flags &&& flagMask x.op == x.flags && decide (x.op ≤ 18) &&
  (if needsScope x.op then decide (x.scope < y.scopes.length) && scopeOk m sc 0 else x.scope == 0xFFFF) &&
  (if takesWaypoint x.op || x.op == 1 then bOk x else true) &&
  match x.op with
  | 0 => x.a == 0 && x.b == 0
  | 1 => x.a == 0
  | 2 => true
  | 3 => true
  | 6 => block && x.b == 0
  | 10 => decide (x.a < 256) && x.b == 0
  | 11 => decide (x.a < 2 ^ 13) && x.a % 8 == 0 && decide (1 ≤ kind) && decide (kind ≤ 4)
  | 12 => block && decide (x.b < 2 ^ 16) && x.b % 8 == 0
  | 13 => decide (x.a < 16) && decide (x.b < 2 ^ 32)
  | 14 => nfld x.a 4 12 == 0 && x.b == 0 && skipOk n i (nfld x.a 16 16)
  | 15 => x.a % 8 == 0 && x.opt != 7 && skipOk n i (nfld x.a 16 16)
  | 16 => decide (x.a < 16) && decide (x.b < i)
  | 17 => true
  | 18 => block && x.opt % 4 != 3 && (x.opt % 4 == 2 || !x.toScratch)
  | _ => block

/-- The scratch range that a step may write, as start and length (R298). -/
def scratchTarget (y : Routine) (x : StepF) : Option (Nat × Nat) :=
  let b := stepBlock y x
  if x.op = 12 then some (x.b % 2 ^ 16, (wAt b 7).toNat)
  else if !x.toScratch then none
  else
    match x.op with
    | 7 => some (w64At b 12, 832)
    | 8 => some (w64At b 3, 64 + 832 * Nat.min 64 (wAt b 1).toNat)
    | 9 => some (w64At b 7, 16 + 32 * (wAt b 10).toNat)
    | 18 => some (w64At b 2, (wAt b 4).toNat)
    | _ => none

/-- The status with which a step's command would be answered now, 0 when it would begin: it is driven on a copy of the
machine in which only this step runs. -/
def trialStatus (m : Mach) (y : Routine) (x : StepF) : Nat :=
  let r : Run := { index := 0, routine := y.handle, sid := y.sid, executing := true, scratchTo := x.toScratch }
  let m1 := { m with rtn := { m.rtn with runs := [r], routines := [y] } }
  match (runOf (driveStep m1 r y x 0) 0).bind (fun r => r.result) with
  | some (st, _) => st
  | none => St.ok

/-- Row 1 of Table 9.6 for one step. -/
def stepMalformed (m : Mach) (y : Routine) (i : Nat) (x : StepF) : Bool :=
  !operandsOk m y i x ||
  (x.op == 5 && nbit (wAt (stepBlock y x) 7).toNat 2) ||
  ((takesWaypoint x.op || x.op == 6 || x.op == 10 || x.op == 12) && trialStatus m y x == St.malformed) ||
  (match scratchTarget y x with
   | some (a, _) => decide (a < 0x80 + y.paramBytes)
   | none => false)

/-- Row 2 of Table 9.6: the first excess, in steps, parameter bytes or bytes of a scratch target. -/
def imageExcess (y : Routine) : Nat :=
  if 512 < y.steps.length then y.steps.length - 512
  else if 65408 < y.paramBytes then y.paramBytes - 65408
  else ((y.steps.map stepOf).findSome? (fun x => match scratchTarget y x with
    | some (a, n) => if 65536 < a + n then some (a + n - 65536) else none
    | none => none)).getD 0

/-- The CAPTURE Folios of a stack that a Dump holds: its reservation, or the space of its completed Stitch. -/
def dumpSpace (m : Mach) (slot : Option Nat) (st : Nat) : Nat :=
  match slot.bind (dump m) with
  | some x => Nat.max (Store.get (0, 0) x.reserved st).2 (sumBy (fun q => if q.stack = st then q.span else 0) x.quires)
  | none => 0

/-- Row 3 of Table 9.6: the largest shortfall of a STITCH step, as stack and bytes. -/
def stitchShort (m : Mach) (i : Issuer) (y : Routine) (x : StepF) : Option (Nat × Nat) :=
  let u := dumpUse m i (wAt (stepBlock y x) 4)
  if u.stale then none
  else
    let pl := stitchPlan m (scopeAt m (stepScope y x) 0) (secureMap m i) (nbit (wAt (stepBlock y x) 7).toNat 1)
    let held := match u.bound.bind (dump m) with
      | some d => d.state == 1 || d.state == 5
      | none => false
    let short (st : Nat) : Nat := planNeed pl st - (if held then dumpSpace m u.bound st else 0)
    (planStacks pl).foldl (fun acc st => match acc with
      | none => if short st = 0 then none else some (st, 4096 * short st)
      | some (s0, b) => if b < 4096 * short st then some (st, 4096 * short st) else some (s0, b)) none

/-- The first STITCH step that is short, with its index. -/
def routineShort (m : Mach) (i : Issuer) (y : Routine) : Option (Nat × Nat × Nat) :=
  ((List.range y.steps.length).zip (y.steps.map stepOf)).foldl (fun acc e =>
    if e.2.op != 5 then acc
    else match acc, stitchShort m i y e.2 with
      | none, some (st, b) => some (e.1, st, b)
      | some (k, st, b), some (st2, b2) => if b < b2 then some (e.1, st2, b2) else some (k, st, b)
      | acc, none => acc) none

/-- Row 4 of Table 9.6 for one step: a scope entry or block partition outside the authority of its command. -/
def stepDenied (m : Mach) (i : Issuer) (y : Routine) (x : StepF) : Bool :=
  let b := stepBlock y x
  let sc := scopeAt m (stepScope y x) 0
  let part (k : Nat) : Bool := decide (issLevel m i (wfld (wAt b k) 0 8) < 2)
  let buffer (h : W32) : Bool := !x.toScratch && bufDenied m i h false true
  match x.op with
  | 2 => !scopeLevel m i sc 2
  | 3 => !scopeLevel m i sc 2
  | 4 => !scopeLevel m i sc 2
  | 5 => !scopeLevel m i sc 2 || (dumpUse m i (wAt b 4)).denied
  | 6 => (dumpName m i (wAt b 0)).denied
  | 7 => part 2 || buffer (wAt b 11)
  | 8 => (epochWords x b).any (fun e => part e.1) || buffer (wAt b 2)
  | 9 => !scopeLevel m i sc 1 || buffer (wAt b 6)
  | 10 => !scopeLevel m i sc 1
  | 11 => !scopeLevel m i sc 2 || !bcastOffset (x.a % 2 ^ 13)
  | 12 => if wfld (wAt b 0) 0 2 = 2 then !pkgLevel m i 2 else part 2
  | 18 => streamDenied m i (wAt b 0) || (x.opt % 4 == 2 && buffer (wAt b 1))
  | _ => false

/-- Row 5 of Table 9.6 for one step. -/
def stepMoved (m : Mach) (y : Routine) (x : StepF) : Bool :=
  let b := stepBlock y x
  !x.follow && ((needsScope x.op && scopeMoved m (scopeAt m (stepScope y x) 0)) ||
    (epochWords x b).any (fun e => (wAt b e.2).toNat != epochOf m (wfld (wAt b e.1) 0 8)))

/-- Row 6 of Table 9.6 for one step. -/
def stepStale (m : Mach) (i : Issuer) (x : StepF) (b : List W32) : Bool :=
  let buffer (h : W32) : Bool := !x.toScratch && bufStale m i h
  match x.op with
  | 5 => (dumpUse m i (wAt b 4)).stale
  | 6 => (dumpName m i (wAt b 0)).stale
  | 7 => buffer (wAt b 11)
  | 8 => buffer (wAt b 2)
  | 9 => buffer (wAt b 6)
  | 18 => streamStale m i (wAt b 0) || (x.opt % 4 == 2 && buffer (wAt b 1))
  | _ => false

/-- The Routine that LOAD_ROUTINE makes resident; a run of the Routine that it replaces ends at its next boundary (log entry
50). -/
def installRoutine (m : Mach) (y : Routine) : Mach :=
  let old := routineOf m y.handle y.sid
  let m := if ((old.map (fun r => r.resident)).getD false) then m else (makeRoom m).getD m
  let m := { m with rtn := { m.rtn with
    routines := m.rtn.routines.filter (fun (r : Routine) => !(r.handle == y.handle && r.sid == y.sid)) ++ [y] } }
  (m.rtn.runs.filter (fun (r : Run) => r.executing && r.routine == y.handle && r.sid == y.sid)).foldl (fun m r => stopRun m r.index) m

/-- The checks of LOAD_ROUTINE (Tables 9.6, 9.9): the status with its failure detail, and the Routine with its header. A unit that is hidden or
dark does not refuse the image: Table 9.6 has no row for it, and the step's own command answers UNIT_DARK when it runs (R26; DESIGN CHOICE, log
entry 93). -/
def loadCheck (m : Mach) (i : Issuer) (b : List W32) : Nat × List W32 × Option (Routine × ImageHead) :=
  let h := wAt b 0
  let img := wAt b 1
  let off := w64At b 2
  let len := (wAt b 4).toNat
  let save := wAt b 5
  let saveOff := w64At b 6
  let first := firstStatus [
    (b.length != 8 || off % 8 != 0 || saveOff % 8 != 0, St.malformed), (bufStale m i img, St.staleHandle),
    (bufDenied m i img true false, St.notAuthorised), (decide (bufLen m i img < off + len), St.malformed)] St.ok
  let bytes := if first = 0 then bufRead m img off len else []
  match first, imageHead bytes with
  | 0, some hd =>
    let y := imageRoutine bytes hd h i.sess img off save saveOff
    let steps := (List.range y.steps.length).zip (y.steps.map stepOf)
    let short := routineShort m i y
    let excess := imageExcess y
    let room := ((routineOf m h i.sess).map (fun r => r.resident)).getD false || (makeRoom m).isSome
    let st := firstStatus [
      (y.scopes.any (fun sc => !scopeOk m sc 0) || steps.any (fun e => stepMalformed m y e.1 e.2) ||
        (!bufStale m i save && decide (bufLen m i save < saveOff + 65600)), St.malformed),
      (decide (0 < excess) || short.isSome, St.doesNotFit),
      (notOwner m i 2 h || bufDenied m i save true true || steps.any (fun e => stepDenied m i y e.2), St.notAuthorised),
      (steps.any (fun e => stepMoved m y e.2), St.bindingMoved),
      (!handleCurrent m 2 h || bufStale m i save || steps.any (fun e => stepStale m i e.2 (stepBlock y e.2)), St.staleHandle),
      (!room, St.noSlot)] St.ok
    (st, if st != St.doesNotFit then [] else if 0 < excess then w1 excess else
        match short with
        | some (k, stack, n) => w1 k ++ w1 stack ++ w1 n
        | none => [], some (y, hd))
  | 0, none => (St.malformed, [], none)
  | st, _ => (st, [], none)

/-- LOAD_ROUTINE (Tables 9.6, 9.9). -/
def doLoadRoutine (m : Mach) (i : Issuer) (p : Pkt) : Mach :=
  match loadCheck m i p.body with
  | (0, _, some (y, hd)) =>
    answer (installRoutine m y) i 0x0701 p.cookie St.ok (w1 hd.steps ++ w1 hd.scopes ++ w1 hd.params ++ w1 y.crc)
  | (st, bad, _) => answer m i 0x0701 p.cookie st bad

/-- The meaning of LOAD_ROUTINE. -/
def execLoadRoutine (p : Pkt) (s : State) : Host.Outcome State Fault Refusal :=
  hostRow 0x0701 p s (fun m i => doLoadRoutine m i p)

/-! ### ARM_TRIGGER (R306, R308, R313) -/

/-- The parameters of ARM_TRIGGER keep Tables 9.7 and 9.9 and R308. -/
def armTriggerOk (m : Mach) (b : List W32) : Bool :=
  let w := wAt b 1
  let source := wfld w 0 4
  let action := wfld w 4 2
  let n := (wAt b 0).toNat
  let period := w64At b 5
  let phase := w64At b 7
  let adv := (wAt b 9).toNat
  b.length == 14 && (decide (n < 64) || n == 0xFFFFFFFF) && decide (source < 7) && decide (action < 3) &&
  wfld w 14 18 == 0 && wfld (wAt b 3) 8 24 == 0 &&
  (decide (source < 4) || ((wAt b 3) == 0 && (wAt b 4) == 0)) &&
  (source == 4 || wfld w 11 3 == 0) &&
  (if source = 5 then
     decide (10000 ≤ period) && decide (period ≤ 2 ^ 40) && period % 16 == 0 && decide (phase < period) &&
     phase % 16 == 0 && decide (11 ≤ adv) && decide (adv ≤ 10000) &&
     !(action == 1 && wfld (wAt b 10) 0 3 == 6 && decide (adv < 101))
   else wfld w 10 1 == 0 && period == 0 && phase == 0 && adv == 0) &&
  (action == 0 || wAt b 2 == 0) &&
  (if action = 1 then scopeOk m b 10 else wAt b 10 == 0 && wAt b 11 == 0 && wAt b 12 == 0 && wAt b 13 == 0)

/-- The machine with room for the Routine of a trigger that runs one; none when there is none. -/
def triggerRoom (m : Mach) (i : Issuer) (b : List W32) : Option Mach :=
  if wfld (wAt b 1) 4 2 = 0 then (match routineOf m (wAt b 2) i.sess with
    | some r => if r.resident then some m else makeRoom m
    | none => some m) else some m

/-- The trigger that ARM_TRIGGER takes: the one it names, or the lowest free one. -/
def triggerSlot (m : Mach) (b : List W32) : Nat :=
  if (wAt b 0).toNat < 64 then (wAt b 0).toNat else ((List.range 64).find? (fun k => (trigger m k).isNone)).getD 0

/-- A step of the issuer's loaded Routine goes beyond the authority that its command needs (Table 9.8). -/
def stepsDenied (m : Mach) (i : Issuer) (h : W32) : Bool :=
  (routineOf m h i.sess).any (fun y => y.steps.any (fun v => stepDenied m i y (stepOf v)))

/-- The checks of ARM_TRIGGER (R26, R313). -/
def armTriggerStatus (m : Mach) (i : Issuer) (b : List W32) : Nat :=
  let w := wAt b 1
  let source := wfld w 0 4
  let action := wfld w 4 2
  let part := wfld (wAt b 3) 0 8
  let h := wAt b 2
  let sc := scopeAt m b 10
  let free := (List.range 64).find? (fun k => (trigger m k).isNone)
  let named := (wAt b 0).toNat
  let denied := (decide (source < 4) && decide (issLevel m i part < 1)) || (action == 1 && !scopeLevel m i sc 2) ||
    (action == 2 && !notifyLevel m i.sess source part) || (action == 0 && (notOwner m i 2 h || stepsDenied m i h))
  let moved := (decide (source < 4) && (wAt b 4).toNat != epochOf m part) || (action == 1 && scopeMoved m sc)
  firstStatus [
    (!armTriggerOk m b, St.malformed), (action == 1 && scopeDark m sc, St.unitDark), (denied, St.notAuthorised), (moved, St.bindingMoved),
    (action == 0 && routineStale m i h, St.staleHandle),
    (decide (named < 64) && (trigger m named).isSome, St.busy),
    ((decide (64 ≤ named) && free.isNone) || (triggerRoom m i b).isNone, St.noSlot)] St.ok

/-- ARM_TRIGGER (R306, R308, R313). -/
def doArmTrigger (m : Mach) (i : Issuer) (p : Pkt) : Mach :=
  let b := p.body
  let st := armTriggerStatus m i b
  if st != 0 then answer m i 0x0703 p.cookie st []
  else
    let w := wAt b 1
    let source := wfld w 0 4
    let action := wfld w 4 2
    let part := wfld (wAt b 3) 0 8
    let h := wAt b 2
    let n := triggerSlot m b
    let m := (triggerRoom m i b).getD m
    let m := match routineOf m h i.sess with
      | some r => if action = 0 then (pageRoutine m r).2 else m
      | none => m
    let now := gtcNow m
    let t : Trigger :=
      { sid := i.sess, cookie := p.cookie, source := source, action := action, oneshot := wfld w 6 1 == 1,
        outEn := wfld w 7 1 == 1, outPin := wfld w 8 2, reanchor := wfld w 10 1 == 1, falling := wfld w 11 1 == 1,
        pin := wfld w 12 2, routine := h, part := part, period := w64At b 5, phase := w64At b 7,
        advanceUs := (wAt b 9).toNat, scope := (b.drop 10).take 4, base := (now / 1000000000 + 1) * 1000000000 }
    let first := if source = 5 then (nextPeriodic t (now + 1000 * t.advanceUs - 1)).getD 0 else 0
    let m := setTrigger m n (some { t with nextT := first })
    answer m i 0x0703 p.cookie St.ok (w1 n ++ w2 first)

/-- The meaning of ARM_TRIGGER. -/
def execArmTrigger (p : Pkt) (s : State) : Host.Outcome State Fault Refusal :=
  hostRow 0x0703 p s (fun m i => doArmTrigger m i p)

end Sys2Proof.Machine
end

