-- ==== Sys2Proof/Machine/Binding.lean ====
section
/-! DEFINITION. The Composer's messages: BIND, OWNER, JOB and FABRIC, and what a re-bind does to cores, channels and endpoints
(R27, R30-R33, R131-R133, R149, R241, R251, R330, R429, R439, R475, R478, R510). -/

namespace Sys2Proof.Machine

/-! ### Levels that fall (R330, R478) -/

/-- Replace the grant of a Session over a partition. -/
def setGrant (m : Mach) (sid part : Nat) (g : Grant) : Mach :=
  updSess m sid (fun s => { s with levels := Store.put { level := 0 } s.levels part g })

/-- A level falls to `lvl`, and the Session hears of it. -/
def dropLevel (m : Mach) (sid part lvl : Nat) : Mach :=
  match sessOf m sid with
  | none => m
  | some s =>
    let g := Store.get { level := 0 } s.levels part
    if g.level ≤ lvl then m
    else
      let m := incHf (setGrant m sid part (if lvl = 0 then { level := 0 } else { g with level := lvl })) R.LCY_AUTH_REVOCATIONS
      raiseEv m { code := EvCode.authorityRevoked, source := hubPath m, stamp := gtcNow m, detail := w1 part, named := [sid],
                  wide := false }

/-- Every Session's level over a partition falls to at most `lvl`, of those that `g` selects. -/
def dropLevels (m : Mach) (part lvl : Nat) (g : Grant → Bool) : Mach :=
  (m.host.sessions.filter (fun s => !s.closed && g (Store.get { level := 0 } s.levels part))).foldl
    (fun m s => dropLevel m s.sid part lvl) m

/-- The hub rewrites PRIV_OK of the Taps and endpoints that record for a partition (R261, R477). -/
def privSync (m : Mach) (part : Nat) : Mach :=
  (List.range 100).foldl (fun m d =>
    let taps := (List.range (tapsOf d)).filter (fun p => tf m d p R.TAP_TRC_CTL_EN == 1 && boundTo m d (bindCore p) part)
    let links := (List.range (portsOf d)).filter (fun q => sf m d R.STN_TRC_LINK_EN q == 1 && boundTo m d (bindPort q) part)
    let sid (s : Nat) : Nat := ((stream m s).map (fun x => x.sid)).getD 0
    let m := taps.foldl (fun m p =>
      setTf m d p R.TAP_TRC_CTL_PRIV_OK (b2n (privOk m (sid (tf m d p R.TAP_TRC_CTL_SLOT)) part))) m
    links.foldl (fun m q =>
      setSf m d R.STN_TRC_LINK_PRIV_OK (b2n (privOk m (sid (sf m d R.STN_TRC_LINK_SLOT q)) part)) q) m) m

/-! ### Shadows (R30, R31) -/

/-- The shadows of all units as keys of Station registers, with their values. -/
def shadows (m : Mach) : List (Nat × W64) :=
  m.sregs.filter (fun e => decide (0x8000 ≤ e.1 % 2 ^ 24) && decide (e.1 % 2 ^ 24 < 0x8500))

/-- The Stations that hold a shadow of a partition. -/
def partDies (m : Mach) (part : Nat) : List Nat := (List.range 100).filter (fun d => (partsOnDie m d).getLsbD part)

/-- The shadow of every unit of a partition on a die takes an epoch (R31). -/
def epochOn (m : Mach) (d part epoch : Nat) : Mach :=
  ((shadows m).filter (fun e => e.1 / 2 ^ 24 == d && fld e.2 40 1 == 1 && fld e.2 32 8 == part)).foldl (fun m e =>
    sput m d (e.1 % 2 ^ 24) (setFld e.2 0 32 epoch)) m

/-- The epoch of a partition changes: SECURE_DEBUG over it falls to DEBUG and its trace policy bit clears (R31, R478). -/
def setEpoch (m : Mach) (part epoch : Nat) : Mach :=
  if epoch = epochOf m part then m
  else
    let m := { m with comp := { m.comp with epochs := Store.put 0 m.comp.epochs part epoch } }
    let m := { m with trc := { m.trc with policy := m.trc.policy &&& ~~~((1 : PartMap) <<< part) } }
    privSync (dropLevels m part 2 (fun g => g.level == 3)) part

/-! ### A core is re-bound -/

/-- The flag that covers a partition on a Station, as the hub numbers the flags: the partition's, 256 the package's, 257 the job's. -/
def coverFlag (m : Mach) (d part : Nat) : Nat :=
  if partFlag m d part then part else if sf m d R.STN_RUN_CTL_PKG_HALT = 1 then 256 else 257

/-- The Session that issued the halt which covers a partition on a Station (R132). -/
def coverSid (m : Mach) (d part : Nat) : Nat := Store.get 0 m.run.flagSess (coverFlag m d part)

/-- The cookie of that halt (R341). -/
def coverCookie (m : Mach) (d part : Nat) : W64 := Store.get 0 m.run.flagCookie (coverFlag m d part)

/-- A halt reaches a core that joins a covered partition: each engine halts at its next eligible boundary, which stands before the first
entry that it starts under the new binding (R100, R132; log entry 88). -/
def lateJoin (m : Mach) (d p part : Nat) : Mach :=
  let sid := coverSid m d part
  let m := (List.range 4).foldl (fun m e => haltReach m d p e 8 false { sid := sid }) m
  let m := incHf m R.RUN_EVT_CNT_LATE_JOIN
  stnEvent m d { code := EvCode.lateJoin, source := corePath m d p, stamp := repNow m d, detail := w1 part, named := [sid],
                 parts := partBit part, cookie := coverCookie m d part }

/-- The dump slots whose Stitch has fired and is not complete. -/
def openDumps (m : Mach) : List (Nat × Dump) :=
  (List.range 8).filterMap (fun k => (dump m k).bind (fun x =>
    if x.fired && decide (3 ≤ x.state) && decide (x.state ≤ 4) then some (k, x) else none))

/-- The lists of the Stitches in progress take up a re-bind: a member core that moves is REBOUND, and a core that a covering halt
stops is LATE_JOIN (R133, R140). -/
def listRebind (m : Mach) (d p part : Nat) (moved joined : Bool) : Mach :=
  (openDumps m).foldl (fun m x =>
    let member := ((cap m d x.1).map (fun c => c.cores.contains p)).getD false
    if member && moved then listAdd m x.1 d 9 0 (repNow m d) (corePath m d p)
    else if joined && decide (part < 256) && x.2.parts.getLsbD part then listAdd m x.1 d 8 0 (repNow m d) (corePath m d p)
    else m) m

/-- The halted engines of a core that moves to another partition or to the free pool stay halted: the hub tells, and they are an
orphaned halt (R133). -/
def haltRebound (m : Mach) (d p was part epoch : Nat) : Mach :=
  let keys := ((List.range 4).filter (fun e => isHalted (engState m d p e))).map (fun e => engKey d p e)
  if was = part ∨ keys.isEmpty then m
  else
    let from_ := (keys.map (fun k => (eng m d p (k % 4)).haltPart)).headD was
    let sids := ((List.range 4).map (fun e => (eng m d p e).haltSess)).dedup.filter (fun x => x != 0)
    let m := raiseEv m { code := EvCode.haltRebound, source := corePath m d p, stamp := gtcNow m,
                         detail := w1 (partWord from_) ++ w1 (partWord part) ++ w1 (if part < 256 then epoch else 0), named := sids,
                         parts := partBit part }
    orphanEngines m keys

/-- What a re-bind does to a core before its first entry under the new binding: its breakpoints and watchpoints are cleared
(R123), it takes trace, Sentinels, watchdog periods and freeze settings of the new partition (256 for the free pool), and a core
that joins a covered partition halts. -/
def rebindCore (m : Mach) (d p was part epoch : Nat) : Mach :=
  let c : PartCfg := if part < 256 then stnCfg m d part else { }
  let m := rebindTap m d p
  let m := rebindSentinel (clearPoints m d p) d p part
  let m := setPeriods m d p c.periods
  let m := writeFreeze m d p c.freeze
  let m := haltRebound m d p was part epoch
  let joins := decide (was ≠ part) && decide (part < 256) && covered m d part && !coreDark m d p && !coreHalted m d p
  let m := if joins then lateJoin m d p part else m
  class3Sync (listRebind m d p part (was != part) joins) d p

/-- A partition that the Composer creates has the default configuration and the periods of RCV_WDT_DEF (R124, R421). -/
def createPart (m : Mach) (part : Nat) : Mach :=
  let w := (hget m 0x0F18).toNat
  let c : PartCfg := { periods := (List.range 4).map (fun e => nfld w (16 * e) 16 * 1000) }
  (List.range 100).foldl (fun m d => setStnCfg m d part c) (setHubCfg m part c)

/-- The Composer reports an owner's key digest with a binding (R475); a partition that had no owner is created, and where the owner is a
new one every Session loses its level over the partition (R330). -/
def noteOwner (m : Mach) (part : Nat) (digest : List Byte) : Mach :=
  let (o, fresh) : Owner × Bool := match ownerOf m part with
    | some o => ({ o with digest := digest }, o.digest != digest)
    | none => ({ digest := digest, port := .host }, false)
  let m := if (ownerOf m part).isNone then createPart m part else m
  let m := { m with comp := { m.comp with owners := Store.put none m.comp.owners part (some o) } }
  if fresh then privSync (dropLevels m part 0 (fun g => decide (1 ≤ g.level))) part else m

/-- The die and shadow that a BIND names: a core, an internal endpoint, or a channel of a memory-attach die; none when it names
nothing bindable (R29, Table 16.7). -/
def bindUnit (b : BindMsg) : Option (Nat × Nat) :=
  let d := upDie b.unit
  let level := upLevel b.unit
  if !pathFields b.unit then none
  else if level = 1 ∧ b.ch = 0 then some (d, bindCore (upTap b.unit))
  else if level = 5 ∧ b.ch = 0 ∧ (farEnd d (upPort b.unit)).isSome then some (d, bindPort (upPort b.unit))
  else if level = 3 ∧ dieKind d = 1 ∧ b.ch < 16 then some (d, bindChan b.ch)
  else none

/-- A bindable unit is hidden (R26, R30). -/
def instHidden (m : Mach) (d inst : Nat) : Bool :=
  dieHidden m d || sf m d R.STN_BIND_HIDDEN inst == 1 || (decide (144 ≤ inst) && portHidden m d (inst - 144))

/-- A rung is in progress on a partition (R429). -/
def rungOn (m : Mach) (part : Nat) : Bool :=
  [part, 256].any (fun q => match Store.get none m.rcv.escs q with
    | some x => decide (1 ≤ x.rung) && !x.waitStitch
    | none => false)

/-- The cause for which a BIND is refused, 0 for none (Table 16.7). -/
def bindCause (m : Mach) (b : BindMsg) (d inst was : Nat) : Nat :=
  let pinned := decide (128 ≤ inst) && decide (inst < 144) &&
    (List.range 8).any (fun k => ((dump m k).map (fun x => x.pins.contains (d * 16 + (inst - 128)))).getD false)
  if pinned then 1
  else if (b.bound && rungOn m b.part) || (decide (was < 256) && rungOn m was) then 2
  else if b.bound && instHidden m d inst then 3 else 0

/-- What moving a unit does beyond its shadow. -/
def rebindUnit (m : Mach) (d inst was part epoch : Nat) : Mach :=
  if inst < 128 then rebindCore m d inst was part epoch
  else if inst < 144 then (if was < 256 ∧ was ≠ part then tallyMoved m d (inst - 128) was else m)
  else rebindLink m d (inst - 144)

/-- A Station takes a write of a binding (R31). -/
def shadowWrite (m : Mach) (w : ShadowWrite) : Mach :=
  match w.unit with
  | none => epochOn m w.die w.part w.epoch
  | some inst =>
    let m := if w.part < 256 then setShadow m w.die inst 1 w.part w.epoch else setShadow m w.die inst 0 0 0
    rebindUnit m w.die inst w.was w.part w.epoch

/-- The writes that a BIND makes, Station by Station: the epochs that it carries and the unit's new binding. -/
def bindWrites (m : Mach) (b : BindMsg) (d inst was : Nat) : List ShadowWrite :=
  let epochs (part epoch : Nat) : List ShadowWrite :=
    (partDies m part).map (fun x => { die := x, unit := none, was := 256, part := part, epoch := epoch })
  (if b.leftValid then epochs b.left b.leftEpoch.toNat else []) ++ (if b.bound then epochs b.part b.epoch.toNat else []) ++
    [{ die := d, unit := some inst, was := was, part := if b.bound then b.part else 256, epoch := b.epoch.toNat }]

/-- A Station takes writes now: it answers and owes none. -/
def takesWrites (m : Mach) (d : Nat) : Bool := stnAnswers m d && !(m.comp.owed.any (fun w => w.die == d))

/-- Acknowledge each BIND whose affected Stations have all taken their writes; a hidden die holds no binding that could be affected (R30,
R31). -/
def ackBinds (m : Mach) : Mach :=
  let waits (a : BindAck) : Bool := a.dies.any (fun d => !dieHidden m d && m.comp.owed.any (fun w => w.die == d))
  let ready := m.comp.acks.filter (fun a => !waits a)
  emits { m with comp := { m.comp with acks := m.comp.acks.filter waits } } (ready.map (fun a => .bindAck a.unit a.ch a.epoch))

/-- A Station that answers again takes the writes that it owes, in their order (R31). -/
def catchUp (m : Mach) (d : Nat) : Mach :=
  let mine := m.comp.owed.filter (fun w => w.die == d)
  if mine.isEmpty || !stnAnswers m d then m
  else mine.foldl shadowWrite { m with comp := { m.comp with owed := m.comp.owed.filter (fun w => w.die != d) } }

/-- One clock of the re-binds: Stations catch up, and what is complete is acknowledged. -/
def bindTick (m : Mach) : Mach :=
  let m := { m with stns := m.stns.map (fun s => if s.2.badShadow.isEmpty || !stnAnswers m s.1 then s else (s.1, { s.2 with badShadow := [] })) }
  if m.comp.owed.isEmpty && m.comp.acks.isEmpty then m
  else ackBinds (((m.comp.owed.map (fun w => w.die)).dedup).foldl catchUp m)

/-- Take a BIND that is not refused (R31): its epochs, and the writes into the shadow of every Station that it affects. A Station that does
not answer owes its writes, and the acknowledgement waits for it. -/
def takeBind (m : Mach) (b : BindMsg) (d inst was : Nat) : Mach :=
  let m := if b.bound then noteOwner m b.part b.digest else m
  let ws := bindWrites m b d inst was
  let m := if b.leftValid then setEpoch m b.left b.leftEpoch.toNat else m
  let m := if b.bound then setEpoch m b.part b.epoch.toNat else m
  let m := (ws.filter (fun w => takesWrites m w.die)).foldl shadowWrite
    { m with comp := { m.comp with owed := m.comp.owed ++ ws.filter (fun w => !takesWrites m w.die) } }
  let ack : BindAck := { unit := b.unit, ch := b.ch, epoch := if b.bound then b.epoch else b.leftEpoch, dies := (ws.map (fun w => w.die)).dedup }
  ackBinds { m with comp := { m.comp with acks := m.comp.acks ++ [ack] } }

/-- The partition that the hub knows a unit to be bound to, 256 for none: what its Station owes counts as written (R31). -/
def boundNow (m : Mach) (d inst : Nat) : Nat :=
  match (m.comp.owed.filter (fun w => w.die == d && w.unit == some inst)).getLast? with
  | some w => w.part
  | none => if sf m d R.STN_BIND_BOUND inst = 1 then sf m d R.STN_BIND_PART inst else 256

/-- The meaning of BIND. -/
def execBindMsg (b : BindMsg) (s : State) : Host.Outcome State Fault Refusal :=
  let m := s.m
  match bindUnit b with
  | none => .fault .noSuchUnit
  | some (d, inst) =>
    if upPkg b.unit ≠ pkgNum m then .next s
    else
    let was := boundNow m d inst
    match bindCause m b d inst was with
    | 0 => .next { s with m := traceChecks (takeBind m b d inst was) }
    | k => .next { s with m := emit m (.bindRefuse b.unit b.ch k) }

/-! ### OWNER, JOB and FABRIC -/

/-- The meaning of OWNER: a new owner, or none when the digest is zero; every Session loses its level over the partition
(R330). -/
def execOwnerMsg (part : Nat) (digest : List Byte) (port : Port) (s : State) : Host.Outcome State Fault Refusal :=
  let m := s.m
  let new : Option Owner := if digest.all (fun x => x == 0) then none else some { digest := digest, port := port }
  if ownerOf m part = new then .next s
  else
    let m := if (ownerOf m part).isNone then createPart m part else m
    let m := { m with comp := { m.comp with owners := Store.put none m.comp.owners part new } }
    .next { s with m := privSync (dropLevels m part 0 (fun g => decide (1 ≤ g.level))) part }

/-- Apply a FABRIC message (R27). -/
def applyFabric (m : Mach) (pkg : Nat) (joined : Bool) : Mach :=
  setHf (setHf m R.HUB_PKG_PKG_NUM (if joined then pkg else 0)) R.HUB_PKG_IN_JOB (b2n joined)

/-- The meaning of FABRIC: deferred while the hub holds a job entry (R27). -/
def execFabricMsg (pkg : Nat) (joined : Bool) (s : State) : Host.Outcome State Fault Refusal :=
  let m := s.m
  if m.comp.jobs.isEmpty then .next { s with m := applyFabric m pkg joined }
  else .next { s with m := { m with comp := { m.comp with fabricDue := some (pkg, joined) } } }

/-- The meaning of JOB: an entry is made, changed or withdrawn; a 65th is refused (R439). -/
def execJobMsg (job : W32) (parts : PartMap) (s : State) : Host.Outcome State Fault Refusal :=
  let m := s.m
  let others := m.comp.jobs.filter (fun j => j.1 != job)
  if parts = 0 then
    let m := { m with comp := { m.comp with jobs := others } }
    match others, m.comp.fabricDue with
    | [], some (pkg, joined) =>
      .next { s with m := applyFabric { m with comp := { m.comp with fabricDue := none } } pkg joined }
    | _, _ => .next { s with m := m }
  else if m.comp.jobs.any (fun j => j.1 == job) then
    let jobs := m.comp.jobs.map (fun j => if j.1 == job then (job, parts) else j)
    .next { s with m := { m with comp := { m.comp with jobs := jobs } } }
  else if 64 ≤ m.comp.jobs.length then .next { s with m := emit m (.jobRefuse job 1) }
  else .next { s with m := { m with comp := { m.comp with jobs := m.comp.jobs ++ [(job, parts)] } } }

/-! ### Wakes and orphaned halts (R102, R111, R134, R264) -/

/-- The meaning of CORE_WAKE: a reset that the core owes is applied, ASLEEP engines run and ASLEEP_HALTED ones stand halted before
their first entry, and the Tap records WAKE. -/
def execCoreWake (die tap : Nat) (s : State) : Host.Outcome State Fault Refusal :=
  if !tapOk die tap then .fault .noSuchUnit
  else
    let m := s.m
    let asleep (e : Nat) : Bool := engState m die tap e == 5 || engState m die tap e == 6
    if !(List.range 4).any asleep then .next s
    else
      let m := updCore m die tap (fun c => { c with powered := true, wakeReq := false })
      let m := applyPending m die tap
      let m := (List.range 4).foldl (fun m e =>
        match engState m die tap e with
        | 5 => wdtSync (setEngState m die tap e 0) die tap e false
        | 6 => wdtSync (setEngState m die tap e 2) die tap e false
        | _ => m) m
      .next { s with m := tapRecord (coreSync m die tap) die tap (repNow m die) .wake }

/-- The scope of one orphaned core: in its partition, or in the free pool. -/
def orphanScope (m : Mach) (o : Orphan) (core_ : Nat) : Scope :=
  { kind := 1, part := o.now % 256, unit := corePath m (core_ / 128) (core_ % 128), epoch := BitVec.ofNat 32 (epochOf m o.now),
    parts := partBit o.now }

/-- Resume one orphaned core at the earliest legal Waypoint, where its Station has a slot free; it stays in the orphaned halt where not
(R93, R134; log entry 53). -/
def resumeOrphan (o : Orphan) (x : Mach × List Nat) (core_ : Nat) : Mach × List Nat :=
  if slotsFree x.1 [core_ / 128] 1 then
    (startResume x.1 { origin := .firmware, sess := 0, port := .firmware } 0 [] (orphanScope x.1 o core_) (earliest x.1 (leadOf 1)) false, x.2)
  else (x.1, x.2 ++ [core_])

/-- Apply the orphan policy to one orphaned halt, which the list holds no longer (Table 4.11; log entry 53). -/
def applyOrphan (m : Mach) (o : Orphan) : Mach :=
  match hf m R.RUN_ORPHAN_POLICY with
  | 1 =>
    let (m, left) := o.cores.foldl (resumeOrphan o) (m, [])
    if left.isEmpty then m else { m with run := { m.run with orphans := m.run.orphans ++ [{ o with cores := left }] } }
  | 2 => if o.now < 256 then startEsc m o.now 3 3 (ceilingRung m) 0 none [] [] else m
  | _ => m

/-- The meaning of ORPHAN_POLICY: after AFTER_MS the policy is applied; a resume waits for a Stitch that overlaps (R116, R134). -/
def execOrphanPolicy (index : Nat) (s : State) : Host.Outcome State Fault Refusal :=
  let m := s.m
  match m.run.orphans[index]? with
  | some o =>
    if gtcNow m < o.due ∨ (hf m R.RUN_ORPHAN_POLICY = 1 ∧ o.cores.any (fun c => stitchOverlaps m (orphanScope m o c))) then .next s
    else .next { s with m := applyOrphan { m with run := { m.run with orphans := m.run.orphans.eraseIdx index } } o }
  | none => .next s

end Sys2Proof.Machine
end

