-- ==== Sys2Proof/Machine/RegStore.lean ====
section
/-! DEFINITION. What a write stores in a register with no behaviour of its own: the access codes of Table 0.3, reserved
bits and undefined offsets (R9-R11, R35-R37). -/

namespace Sys2Proof.Machine

/-- The value that a register holds after v is written to the bits of `mask`: RW bits take it, W1C bits clear and W1S bits
set where it has ones, and the others stay. -/
def regStore (r : RegRow) (old v mask : Nat) : Nat :=
  let rw := r.rw &&& mask
  let c := v &&& r.w1c &&& mask
  let s := v &&& r.w1s &&& mask
  let x := (old - (old &&& rw)) ||| (v &&& rw)
  (x - (x &&& c)) ||| s

/-- The written value has a one in a reserved bit of the register. -/
def regRsvd (r : RegRow) (v mask : Nat) : Bool :=
  let known := r.rw ||| r.w1c ||| r.w1s ||| r.ro ||| r.rc ||| r.wo
  decide ((v &&& mask) - (v &&& mask &&& known) ≠ 0)

/-- Set HUB_STATUS.RSVD_WRITE (R10). -/
def setRsvd (m : Mach) : Mach := setHf m R.HUB_STATUS_RSVD_WRITE 1

/-- A write of the bits of `mask` at an offset of the hub window that no behaviour of its own applies to. -/
def hubStore (m : Mach) (off v mask : Nat) : Mach :=
  match hubRowAt off with
  | none => if v &&& mask = 0 then m else setRsvd m
  | some r =>
    let m := hput m off (BitVec.ofNat 64 (regStore r (hget m off).toNat v mask))
    if regRsvd r v mask then setRsvd m else m

/-- A write of a Station or Tap register; the second value tells whether a reserved bit was written. A register of a part that is not
enabled on this kind of die ignores it and sets no flag (R15). -/
def stnStore (m : Mach) (d a v : Nat) : Mach × Bool :=
  match stnRowAt d a with
  | none => (m, !stnInactive d a && decide (v ≠ 0))
  | some r => (sput m d a (BitVec.ofNat 64 (regStore r (sget m d a).toNat v (2 ^ 64 - 1))), regRsvd r v (2 ^ 64 - 1))

end Sys2Proof.Machine
end

