-- ==== Sys2Proof/Machine/Clock.lean ====
section
/-! DEFINITION. Time: the PPS edge, time-of-day loads, holdover, SYNC, echo and calibration (R71-R88). -/

namespace Sys2Proof.Machine

/-! ### Reference, phase and time of day (R74-R82) -/

/-- One second in ticks. -/
def second : Nat := 1000000000

/-- PPS_ERR of a sample: its signed distance from the nearest multiple of a second (R75). Midway between two the model takes the lower
one, so that the error is +500,000,000 (log entry 82, DESIGN CHOICE). -/
def ppsErr (g : Nat) : Int :=
  let r := g % second
  if 2 * r ≤ second then (r : Int) else (r : Int) - (second : Int)

/-- Load the GTC; a slew that was owed is over. -/
def loadGtc (m : Mach) (v : Nat) : Mach := { m with time := { m.time with gtc := BitVec.ofNat 64 v, slew := 0 } }

/-- A Waypoint is pending on some Station. -/
def waypointPending (m : Mach) : Bool :=
  m.run.arms.any (fun a => a.t != 0) || m.stns.any (fun x => !x.2.wpts.isEmpty)

/-- The time-of-day load of an edge at which no Waypoint is pending: loaded, or refused when it lies below the GTC
(R76). -/
def todLoad (m : Mach) : Mach :=
  if hf m R.GTC_TOD_NEXT_ARM = 0 ∨ waypointPending m then m
  else
    let v := hf m R.GTC_TOD_NEXT_SECONDS * second
    let m := setHf m R.GTC_TOD_NEXT_ARM 0
    if v < gtcNow m then setHf m R.GTC_STATUS_TOD_REFUSED 1
    else setHf (loadGtc m v) R.GTC_STATUS_TOD_VALID 1

/-- An event of the hub's time, for those who observe a partition of the hub's die. -/
def gtcEvent (m : Mach) (code : Nat) : Mach :=
  raiseOn m (hubDie m) { code := code, source := hubPath m, stamp := gtcNow m, detail := [] }

/-- Both references are present: holdover ends, and VOID waits for LOCKED (R82). -/
def endHoldover (m : Mach) : Mach :=
  if hf m R.GTC_STATUS_REF_OK = 1 ∧ hf m R.GTC_STATUS_PPS_OK = 1 ∧ hf m R.GTC_STATUS_HOLDOVER = 1 then
    let m := setHf m R.GTC_STATUS_HOLDOVER 0
    promiseSync { m with time := { m.time with lockOwed := true } }
  else m

/-- LOCKED after an edge with this error: three good edges in a row with both references set it, a bad one clears it
(R77); a LOCKED that follows a holdover clears VOID and raises GTC_LOCKED (R82). -/
def lockEdge (m : Mach) (err : Int) : Mach :=
  let refs := hf m R.GTC_STATUS_REF_OK == 1 && hf m R.GTC_STATUS_PPS_OK == 1
  let good := refs && decide (err.natAbs ≤ 20)
  let n := if good then Nat.min 3 (m.time.ppsGood + 1) else 0
  let m := { m with time := { m.time with ppsGood := n } }
  if n < 3 then setHf m R.GTC_STATUS_LOCKED 0
  else
    let m := setHf m R.GTC_STATUS_LOCKED 1
    if m.time.lockOwed then
      let m := setHf { m with time := { m.time with lockOwed := false } } R.GTC_STATUS_VOID 0
      gtcEvent m EvCode.gtcLocked
    else m

/-- An edge of PPS_IN (R75-R77): PPS_ERR, the first load or a slew, LOCKED, and the time-of-day load. -/
def doPpsEdge (m : Mach) : Mach :=
  let g := gtcNow m
  let err := ppsErr g
  let m := setHf m R.GTC_PPS_PPS_ERR (unsignedOf 32 err)
  let m := setHf m R.GTC_PPS_PPS_COUNT ((hf m R.GTC_PPS_PPS_COUNT + 1) % 2 ^ 32)
  let m := { m with time := { m.time with lastPps := m.time.ns } }
  let m := endHoldover (setHf m R.GTC_STATUS_PPS_OK 1)
  let m := lockEdge m err
  let m :=
    if m.time.ppsSeen then { m with time := { m.time with slew := -err } }
    else loadGtc { m with time := { m.time with ppsSeen := true } } ((g / second + 1) * second)
  let m := todLoad m
  setHf m R.GTC_STATUS_SLEWING (b2n (decide (m.time.slew ≠ 0)))

/-- The meaning of PPS_EDGE. -/
def execPpsEdge (s : State) : Host.Outcome State Fault Refusal := .next { s with m := doPpsEdge s.m }

/-- Holdover begins while a reference is missing, unless it runs already (R79); from reset, with no reference yet, at the first clock (log
entry 97, DEDUCED). -/
def enterHoldover (m : Mach) : Mach :=
  if hf m R.GTC_STATUS_HOLDOVER = 1 ∨ (hf m R.GTC_STATUS_REF_OK = 1 ∧ hf m R.GTC_STATUS_PPS_OK = 1) then m
  else
    let m := setHf (setHf m R.GTC_STATUS_HOLDOVER 1) R.GTC_STATUS_HOLD_MS 0
    promiseSync (gtcEvent { m with time := { m.time with holdTicks := 0 } } EvCode.gtcHoldover)

/-- A reference is lost: LOCKED falls, and holdover begins (R77, R79; from reset it begins at the first clock, log entry 97). -/
def loseReference (m : Mach) (f : Fld) : Mach :=
  if hf m f = 0 then m
  else
    let m := setHf (setHf m f 0) R.GTC_STATUS_LOCKED 0
    enterHoldover { m with time := { m.time with ppsGood := 0 } }

/-- The meaning of REF_LOSS: REF_OK falls, and the hub drives REF_SEL high (R79, R80, R506). -/
def execRefLoss (s : State) : Host.Outcome State Fault Refusal :=
  let m := loseReference s.m R.GTC_STATUS_REF_OK
  .next { s with m := { m with pins := { m.pins with refSelLocal := true } } }

/-- The time in ns within which an edge of PPS_IN follows the one before it (R79). -/
def ppsWindow : Nat := 1000100000

/-- The meaning of PPS_LOSS: 1,000,100 µs after the latest edge PPS_OK falls (R79). -/
def execPpsLoss (s : State) : Host.Outcome State Fault Refusal :=
  if s.m.time.lastPps + ppsWindow ≤ s.m.time.ns then .next { s with m := loseReference s.m R.GTC_STATUS_PPS_OK } else .next s

/-- The meaning of REF_RETURN: both references are back (R82, R506). -/
def execRefReturn (s : State) : Host.Outcome State Fault Refusal :=
  let m := setHf (setHf s.m R.GTC_STATUS_REF_OK 1) R.GTC_STATUS_PPS_OK 1
  let m := { m with time := { m.time with lastPps := m.time.ns } }
  .next { s with m := endHoldover { m with pins := { m.pins with refSelLocal := false } } }

/-- The meaning of GTC_VOID: once HOLD_MS has passed 10,000 in holdover, VOID is set and GTC_VOID raised (R81, R485). -/
def execGtcVoid (s : State) : Host.Outcome State Fault Refusal :=
  let m := s.m
  if hf m R.GTC_STATUS_HOLDOVER = 1 ∧ 10000 < hf m R.GTC_STATUS_HOLD_MS ∧ hf m R.GTC_STATUS_VOID = 0 then
    let m := { m with tly := m.tly.map (fun r => { r with void := true }) }
    .next { s with m := promiseSync (gtcEvent (setHf m R.GTC_STATUS_VOID 1) EvCode.gtcVoid) }
  else .next s

/-- The meaning of TOD_ARM: a write of GTC_TOD_NEXT; ARM is set by a one (R76). -/
def execTodArm (v : W64) (s : State) : Host.Outcome State Fault Refusal :=
  if s.m.peer.isolated then .next s
  else .next { s with m := hubStore s.m 0x0110 v.toNat (2 ^ 64 - 1) }

/-! ### SYNC (R83-R85) -/

/-- A TIME frame (Table 3.1). -/
def timeFrame (tkind word1 : Nat) (rest : List Byte) : Frame :=
  { ftype := 7, dest := 0x7F, src := 0, len := 16, word1 := BitVec.ofNat 64 word1,
    payload := padTo 16 (zeros 8 ++ [BitVec.ofNat 8 tkind] ++ rest) }

/-- The meaning of SYNC_SEND: every 100 µs, at multiples of 100,000 in the GTC (log entry 82, DESIGN CHOICE), a SYNC goes out on each
ring (R84). -/
def execSyncSend (s : State) : Host.Outcome State Fault Refusal :=
  let m := s.m
  if gtcNow m < m.time.nextSync then .next s
  else
    let m := { m with time := { m.time with nextSync := (gtcNow m / 100000 + 1) * 100000 } }
    .next { s with m := (upRings m).foldl (fun m k => castRing m (timeFrame 1 (gtcNow m) []) k) m }

/-- Ticks nearest to a number of sixteenths. -/
def roundTick (e16 : Int) : Int := (e16 + 8) / 16

/-- The error e of a SYNC in 1/16 ns (R85). -/
def syncErr (m : Mach) (d : Nat) (f : Frame) (sample : Nat) : Int :=
  let path := if f.dir = 0 then sf m d R.STN_GTC_PATH_PATH_CW else sf m d R.STN_GTC_PATH_PATH_CCW
  16 * ((sample : Int) - (f.word1.toNat : Int) - (bytesAt f.payload 0 8 : Int)) - (path : Int)

/-- A Station's event about its own time. -/
def stnTimeEvent (m : Mach) (d code : Nat) : Mach :=
  stnEvent m d { code := code, source := stnPath m d, stamp := repNow m d, detail := [] }

/-- An error beyond 64 ns: a replica that is behind is loaded, one that is ahead is held; ALIGNED falls (R85). -/
def timeStep (m : Mach) (d : Nat) (e16 : Int) : Mach :=
  let m := updStn m d (fun x =>
    if e16 < 0 then { x with replica := x.replica + BitVec.ofNat 64 (roundTick (-e16)).toNat, slew := 0, holdFor := 0,
                             goodSyncs := 0 }
    else { x with holdFor := (roundTick e16).toNat, slew := 0, goodSyncs := 0 })
  let m := incSf (setSf m d R.STN_GTC_STAT_ALIGNED 0) d R.STN_GTC_STAT_STEPS
  stnTimeEvent m d EvCode.stnTimeStep

/-- An error of at most 64 ns is slewed away; three SYNCs in a row within 2 ns align the Station (R85). -/
def timeSlew (m : Mach) (d : Nat) (e16 : Int) : Mach :=
  let n := if e16.natAbs ≤ 32 then Nat.min 3 ((stn m d).goodSyncs + 1) else 0
  let m := updStn m d (fun x => { x with
    goodSyncs := n, slew := if x.holdFor = 0 then -(roundTick e16) else x.slew })
  if n = 3 ∧ sf m d R.STN_GTC_STAT_ALIGNED = 0 then
    stnTimeEvent (setSf m d R.STN_GTC_STAT_ALIGNED 1) d EvCode.stnTimeAligned
  else m

/-- A Station receives a SYNC at which it sampled its replica (R85). -/
def doSync (m : Mach) (d : Nat) (f : Frame) (sample : Nat) : Mach :=
  match payByte f 8 with
  | 1 =>
    let e := syncErr m d f sample
    let m := setSf m d R.STN_GTC_STAT_LAST_ERR (unsignedOf 16 (satInt 16 e))
    if e.natAbs ≤ 1024 then timeSlew m d e else timeStep m d e
  | 2 => m
  | 3 => m
  | _ => badType m d

/-- The meaning of SYNC. -/
def execSyncFrame (die : Nat) (f : Frame) (fin : FrameEnd) (sample : W64) (s : State) : Host.Outcome State Fault Refusal :=
  rxRow die f fin 7 s (fun m => doSync m die f sample.toNat)

/-! ### Echo and calibration (R87, R88) -/

/-- The output by which an echo frame leaves: the trunk between two anchors, else the ring output of its direction; it goes to the
neighbour alone, whatever the routes are. -/
def echoOut (d peer dir : Nat) : Nat :=
  if 96 ≤ d ∧ peer = 96 + (d - 96 + 1) % 4 then trunkOut (d - 96) 0
  else if 96 ≤ d ∧ peer = 96 + (d - 96 + 3) % 4 then trunkOut ((d - 96 + 3) % 4) 1
  else ringOut d dir

/-- A Station sends an ECHO_REQ. -/
def sendEcho (m : Mach) (d dest dir : Nat) : Mach :=
  putOnWay m [echoOut d dest dir] true (ringOf d) { timeFrame 2 (repNow m d) [] with src := d, dest := dest, dir := dir } .good

/-- The meaning of ECHO_REQ: the far Station answers with the turnaround in 1/16 ns (R87, Table 3.1). -/
def execEchoReq (die : Nat) (f : Frame) (turnaround : Nat) (s : State) : Host.Outcome State Fault Refusal :=
  if 100 ≤ die then .fault .noSuchUnit
  else if stnUp s.m die && f.ftype == 7 && payByte f 8 == 2 then
    let r : Frame := { timeFrame 3 f.word1.toNat (leBytes 2 turnaround) with src := die, dest := f.src, dir := 1 - f.dir }
    .next { s with m := putOnWay s.m [echoOut die f.src (1 - f.dir)] true (ringOf die) r .good }
  else .next s

/-- What an echo measures: 0 the segment to the next position, 1 and 2 the trunks up and down (R87, STN_GTC_TRUNK). -/
def echoKey (d peer : Nat) : Nat :=
  if 96 ≤ d ∧ peer = 96 + (d - 96 + 1) % 4 then 1 else if 96 ≤ d ∧ peer = 96 + (d - 96 + 3) % 4 then 2 else 0

/-- The register field that an echo measures. -/
def echoField (k : Nat) : Fld :=
  if k = 1 then R.STN_GTC_TRUNK_TRUNK_UP else if k = 2 then R.STN_GTC_TRUNK_TRUNK_DOWN else R.STN_GTC_PATH_WIRE_CW

/-- The measured wire delay from position i of ring k, in 1/16 ns. -/
def wireOf (m : Mach) (k i : Nat) : Nat := sf m (dieAt k i) R.STN_GTC_PATH_WIRE_CW

/-- The sum of wire[i] over a list of positions. -/
def wireSum (m : Mach) (k : Nat) (l : List Nat) : Nat := sumBy (wireOf m k) l

/-- The forwarding latency F in 1/16 ns (R84). -/
def fwd16 : Nat := 512

/-- Write PATH of every Station of a ring and LOOP_NS from the measured delays (R87; log entry 40). -/
def writePaths (m : Mach) (k : Nat) : Mach :=
  let m1 := (List.range 24).foldl (fun m j =>
    let p := j + 1
    let d := dieAt k p
    let cw := wireSum m k (List.range p) + (p - 1) * fwd16
    let ccw := wireSum m k ((List.range 25).drop p) + (24 - p) * fwd16
    setSf (setSf m d R.STN_GTC_PATH_PATH_CW cw) d R.STN_GTC_PATH_PATH_CCW ccw) m
  let loop := wireSum m1 k (List.range 25) + 24 * fwd16
  setHf m1 R.GTC_RING_LOOP_NS ((loop + 8) / 16) k

/-- The bit of a measurement in a ring's round: a position's segment, or the trunks of its anchor up and down. -/
def roundBit (d key : Nat) : Nat := if key = 0 then posOf d else 24 + key

/-- Replace the measurements that a ring's round still waits for. -/
def setCalOpen (m : Mach) (k v : Nat) : Mach := { m with time := { m.time with calOpen := Store.put 0 m.time.calOpen k v } }

/-- A measurement of a round is known; with the last one the hub writes the path delays, and the ring is calibrated (R87). -/
def measured (m : Mach) (d key : Nat) : Mach :=
  let k := ringOf d
  let open_ := Store.get 0 m.time.calOpen k
  if !nbit open_ (roundBit d key) then m
  else
    let m := setCalOpen m k (clrBit open_ (roundBit d key))
    if clrBit open_ (roundBit d key) ≠ 0 then m
    else
      let m := writePaths m k
      { m with time := { m.time with calAt := Store.put 0 m.time.calAt k (gtcNow m + 1) } }

/-- An ECHO_RSP comes back at t4: the exchange joins the average of 256, and the next exchange begins (R87). -/
def doEchoRsp (m : Mach) (d : Nat) (f : Frame) (t4 : Nat) : Mach :=
  let key := echoKey d f.src
  let x : Int := 16 * ((t4 : Int) - (f.word1.toNat : Int)) - (bytesAt f.payload 9 2 : Int)
  let (n, sum) := Store.get (0, 0) (stn m d).echo key
  let sum := sum + x.toNat
  if n + 1 = 256 then
    let m := updStn m d (fun y => { y with echo := Store.put (0, 0) y.echo key (0, 0) })
    measured (setSf m d (echoField key) (sum / 512)) d key
  else
    let m := updStn m d (fun y => { y with echo := Store.put (0, 0) y.echo key (n + 1, sum) })
    sendEcho m d f.src (1 - f.dir)

/-- The measurements that a round of a ring can make: segments with a Station that works at both ends that are up or have been retrained,
and the trunks of the anchor that are up (R87, R88). -/
def measurable (m : Mach) (k : Nat) : List (Nat × Nat × Nat) :=
  let segs := (List.range 25).filter (fun p => stnUp m (dieAt k p) && stnUp m (dieAt k ((p + 1) % 25)) &&
    (!m.spine.down.contains (k, p) || m.spine.retrained.contains (k, p)))
  let trunks := [(1, k, (k + 1) % 4), (2, (k + 3) % 4, (k + 3) % 4)].filter (fun x =>
    stnUp m (96 + k) && trunkUp m x.2.1 && stnUp m (96 + x.2.2))
  segs.map (fun p => (0, dieAt k p, dieAt k ((p + 1) % 25))) ++ trunks.map (fun x => (x.1, 96 + k, 96 + x.2.2))

/-- A round of exchanges of a ring and of its anchor's trunks begins: each Station sends its first ECHO_REQ (R87, R88). -/
def startEchoes (m : Mach) (k : Nat) : Mach :=
  let l := measurable m k
  let m := { m with time := { m.time with calStart := Store.put 0 m.time.calStart k (gtcNow m + 1) } }
  let m := setCalOpen m k (bitmapOf (l.map (fun x => roundBit x.2.1 x.1)))
  l.foldl (fun m x =>
    sendEcho (updStn m x.2.1 (fun y => { y with echo := Store.put (0, 0) y.echo x.1 (0, 0) })) x.2.1 x.2.2 (if x.1 = 2 then 1 else 0)) m

/-- The meaning of CALIBRATION of a ring, every 1 s (R87, R88). -/
def execCalibration (ring : Nat) (s : State) : Host.Outcome State Fault Refusal :=
  if 4 ≤ ring then .fault .noSuchUnit
  else
    let m := s.m
    let last := Nat.max (Store.get 0 m.time.calStart ring) (Store.get 0 m.time.calAt ring)
    if nbit (hf m R.SPN_STATUS_RING_UP) ring && (last == 0 || decide (last - 1 + second ≤ gtcNow m)) then
      .next { s with m := startEchoes m ring }
    else .next s

end Sys2Proof.Machine
end

