-- ==== Sys2Proof/Machine/Routes.lean ====
section
/-! DEFINITION. The Spine's routes as breaks and trunks leave them, frames that wait for a route change, and what the hub does
when a Station answers again (R39, R60-R64, R520, R523). -/

namespace Sys2Proof.Machine

/-! ### Frames that wait for a route change (R62) -/

/-- A request or gather of a ring has left the hub and is not yet answered. -/
def ringBusy (m : Mach) (k : Nat) : Bool :=
  m.spine.reqs.any (fun r => r.ring == k && !waitsAtHub m k r.tag true) ||
  m.spine.gathers.any (fun g => g.ring == k && !waitsAtHub m k g.tag false)

/-- The hub starts no new frame on a ring until those on it are answered or timed out. -/
def holdRing (m : Mach) (k : Nat) : Mach := { m with spine := { m.spine with hold := setBit m.spine.hold k } }

/-- Let the frames that wait go once nothing is outstanding on the ring. -/
def releaseRing (m : Mach) (k : Nat) : Mach :=
  if !nbit m.spine.hold k || ringBusy m k then m
  else
    let mine := m.spine.onHold.filter (fun h => h.1 == k)
    let m := { m with spine := { m.spine with hold := clrBit m.spine.hold k, onHold := m.spine.onHold.filter (fun h => h.1 != k) } }
    mine.foldl (fun m h => launch m k h.2) m

/-! ### Completion -/

/-- What a Waypoint command does when its arms may have gone from every Station. -/
def checkCmd (m : Mach) (c : Cmd) : Mach :=
  if c.op = 0x0202 ∨ c.op = 0x0203 then armsGone m c.id
  else if c.op = 0x0501 ∨ c.op = 0x0502 then tallyCheck m c.id
  else if c.op = 0x0504 then faultCheck m c.id
  else m

/-- Every command that waits for Stations looks again whether it is over. -/
def settled (m : Mach) : Mach := fenceAll (traceChecks (m.cmds.foldl checkCmd m))

/-! ### A Station answers again (R523) -/

/-- The write that brings one kind of a partition's configuration up to date in a Station. -/
def owedReq (m : Mach) (d kind part : Nat) : Req :=
  let c := hubCfg m part
  match kind with
  | 1 => configReq d 1 part 0x1F c.freeze
  | 2 => configReq d 2 part c.mx c.vx
  | _ => configReq d 3 part (c.periods.getD 0 0 + c.periods.getD 1 0 * 2 ^ 32) (c.periods.getD 2 0 + c.periods.getD 3 0 * 2 ^ 32)

/-- Rewrite what a Station missed, before anything else is sent to it: ahead of the frames that wait for a route change, and with at
most 16 outstanding (R53, R523). -/
def rewriteOwed (m : Mach) (d : Nat) : Mach :=
  let l := Store.get [] m.run.configOwed d
  let n := 16 - outstanding m d
  if l.isEmpty || n = 0 || !reachable m d then m
  else
    let waiting := m.spine.onHold
    let m := { m with run := { m.run with configOwed := Store.put [] m.run.configOwed d (l.drop n) },
                      spine := { m.spine with onHold := [] } }
    let m := (l.take n).foldl (fun m x => sendReq m 0 (owedReq m d x.1 x.2)) m
    { m with spine := { m.spine with onHold := m.spine.onHold ++ waiting } }

/-- The hub has heard from a Station: it is silent no longer, unless it has faulted. -/
def heard (m : Mach) (d : Nat) : Mach :=
  if nbit m.spine.silent d && !nbit m.hth.faulted d then rewriteOwed (catchUp (unsilence m d) d) d else m

/-- Rewrite what the Stations missed that a ring's routes reach again. -/
def rewriteRing (m : Mach) (k : Nat) : Mach := (List.range 25).foldl (fun m p =>
  let d := dieAt k p
  if stnAnswers m d then rewriteOwed (catchUp m d) d else m) m

/-- The hub changes the routes of a ring: no new frame starts until those on it are answered or timed out, and what the Stations
missed goes first (R62, R523). -/
def changeRoutes (m : Mach) (k : Nat) : Mach := releaseRing (rewriteRing (holdRing (syncRoutes m k) k) k) k

end Sys2Proof.Machine
end

