-- ==== Sys2Proof/Machine/ArmRx.lean ====
section
/-! DEFINITION. Arms on a Station: ARM, CANCEL, the strobe before T, the Taps' countdown and what happens at T (R89-R96, R108,
R131, R139, R140, R525). -/

namespace Sys2Proof.Machine

/-- The action of an arm on a Station (Table 3.3), or of a Stitch (R140). -/
def armAct (m : Mach) (d : Nat) (a : Arm) : Mach :=
  if a.stitch then actStitch m d a
  else
    match a.action with
    | 1 => actHalt m d a
    | 2 => actResume m d a
    | 3 => actStep m d a
    | 4 => actWindow m d a
    | 5 => actCollect m d a
    | 6 => actTally m d a
    | 7 => actTraceStart m d a
    | 8 => actTraceStop m d a
    | 9 => actHorizon m d a
    | 10 => actModeApply m d a
    | 11 => actModeBack m d a
    | 12 => actStop m d a
    | _ => m

/-- The arm acts on the Station, which holds it no longer. -/
def fireArm (m : Mach) (d : Nat) (a : Arm) : Mach := armGone (armAct m d a) a.armId d

/-- The Waypoint slots of a Station become this list. -/
def setWpts (m : Mach) (d : Nat) (l : List Arm) : Mach :=
  setSf (updStn m d (fun s => { s with wpts := l })) d R.STN_GTC_STAT_WPT_PENDING l.length

/-- The Station remembers an arm that took no slot, so that a repeat of it does nothing. -/
def noteArm (m : Mach) (d armId : Nat) : Mach := updStn m d (fun s => { s with late := s.late ++ [armId] })

/-- An ARM reaches a Station (R94, R525): a reserved ACTION is dropped, a T of 0 acts at once, a T that the replica has reached
is late, and any other waits in a slot. -/
def takeArm (m : Mach) (d : Nat) (a : Arm) : Mach :=
  if a.action = 0 ∨ 13 ≤ a.action then badType m d
  else if armHeld m d a then m
  else if a.t = 0 then settled (fireArm (noteArm m d a.armId) d a)
  else if a.t ≤ repNow m d then settled (noteArm (lateArm m d a) d a.armId)
  else if 16 ≤ (stn m d).wpts.length then m
  else holdArm m d a

/-- The meaning of ARM. -/
def execArmFrame (die : Nat) (f : Frame) (fin : FrameEnd) (s : State) : Host.Outcome State Fault Refusal :=
  rxRow die f fin 9 s fun m =>
    if payByte f 0 = 3 ∧ f.payload.length = 64 then takeArm m die (armOfPayload f.word1.toNat f.payload) else m

/-- A cancelled Stitch leaves its Station: the buffers that were reopened for it hold what they held (R96, R150). -/
def cancelStitch (m : Mach) (d : Nat) (a : Arm) : Mach :=
  let k := a.action
  let m := capStat (setCap m d k none) d k 0
  (List.range (portsOf d)).foldl (fun m p =>
    if cutState m d p = 1 ∧ (cutBuf m d p).slot = k then setCut m d p 4 (cutBuf m d p) else m) m

/-- A CANCEL reaches a Station that still holds the arm, before its T (R96). -/
def takeCancel (m : Mach) (d armId : Nat) : Mach :=
  match (stn m d).wpts.find? (fun a => a.armId == armId) with
  | none => m
  | some a =>
    if a.t ≤ repNow m d then m
    else
      let m := setWpts m d ((stn m d).wpts.filter (fun x => x.armId != armId))
      let m := if a.stitch then cancelStitch m d a else m
      settled (armGone m armId d)

/-- The meaning of CANCEL. -/
def execCancel (die : Nat) (f : Frame) (fin : FrameEnd) (s : State) : Host.Outcome State Fault Refusal :=
  rxRow die f fin 9 s fun m => if payByte f 0 = 1 then takeCancel m die (bytesAt f.payload 8 8) else m

/-- The meaning of HALT_STROBE: at T − 8 the Taps get the number of engine cycles, of 0.5 ns, that are left (R108). -/
def execHaltStrobe (die armId : Nat) (s : State) : Host.Outcome State Fault Refusal :=
  if 100 ≤ die then .fault .noSuchUnit
  else
    let m := s.m
    match (stn m die).wpts.find? (fun a => a.armId == armId && armHalts a) with
    | some a =>
      let now := repNow m die
      if stnUp m die ∧ now < a.t ∧ a.t ≤ now + 8 then
        .next { s with m := emits m ((armCores m die a).map (fun p => .strobe die p (2 * (a.t - now)))) }
      else .next s
    | none => .next s

/-- The meaning of TAP_COUNTDOWN: at the engine cycle of T, which lies before the next edge of the replica, a Tap's members move to
HALT_PENDING (R108). -/
def execTapCountdown (die tap armId : Nat) (s : State) : Host.Outcome State Fault Refusal :=
  if !tapOk die tap then .fault .noSuchUnit
  else
    let m := s.m
    match (stn m die).wpts.find? (fun a => a.armId == armId && armHalts a) with
    | some a =>
      if stnUp m die ∧ a.t < repNow m die + 4 then
        let reason := if a.stitch then 5 else nfld a.p0 0 4
        let h : Halter := { sid := cmdSid m (armCmd m armId), window := if reason = 4 then armCmd m armId else 0 }
        let es := (scopeEngines m die a.kind (if a.stitch then 0 else a.unit) a.parts).filter (fun x => x.1 == tap)
        .next { s with m := es.foldl (fun m x => haltReach m die x.1 x.2 reason false h) m }
      else .next s
    | none => .next s

/-- The meaning of WAYPOINT_FIRE: every arm whose T the replica has reached acts, by T, and those of one T in the order in which
they came (R89, R95). -/
def execWaypointFire (die : Nat) (s : State) : Host.Outcome State Fault Refusal :=
  if 100 ≤ die then .fault .noSuchUnit
  else
    let m := s.m
    if !stnUp m die then .next s
    else
      let due := sortBy (fun a b => decide (a.t < b.t)) ((stn m die).wpts.filter (fun a => decide (a.t ≤ repNow m die)))
      if due.isEmpty then .next s
      else
        let m := setWpts m die ((stn m die).wpts.filter (fun a => decide (repNow m die < a.t)))
        .next { s with m := settled (due.foldl (fun m a => fireArm m die a) m) }

end Sys2Proof.Machine
end

