-- ==== Sys2Proof/Machine/Sha384.lean ====
section
/-! DEFINITION. SHA-384 (FIPS 180-4), under which the block's signatures and key digests stand (R388, R390, R470; log entry
59, PRESUMED). -/

namespace Sys2Proof.Machine.Sha

/-- The constants of four rounds in one number, the first round's in its top 64 bits: the first 64 bits of the fractional parts of
the cube roots of the first 80 primes. -/
def roundQuads : List Nat := [
  0x428a2f98d728ae227137449123ef65cdb5c0fbcfec4d3b2fe9b5dba58189dbbc,
  0x3956c25bf348b53859f111f1b605d019923f82a4af194f9bab1c5ed5da6d8118,
  0xd807aa98a303024212835b0145706fbe243185be4ee4b28c550c7dc3d5ffb4e2,
  0x72be5d74f27b896f80deb1fe3b1696b19bdc06a725c71235c19bf174cf692694,
  0xe49b69c19ef14ad2efbe4786384f25e30fc19dc68b8cd5b5240ca1cc77ac9c65,
  0x2de92c6f592b02754a7484aa6ea6e4835cb0a9dcbd41fbd476f988da831153b5,
  0x983e5152ee66dfaba831c66d2db43210b00327c898fb213fbf597fc7beef0ee4,
  0xc6e00bf33da88fc2d5a79147930aa72506ca6351e003826f142929670a0e6e70,
  0x27b70a8546d22ffc2e1b21385c26c9264d2c6dfc5ac42aed53380d139d95b3df,
  0x650a73548baf63de766a0abb3c77b2a881c2c92e47edaee692722c851482353b,
  0xa2bfe8a14cf10364a81a664bbc423001c24b8b70d0f89791c76c51a30654be30,
  0xd192e819d6ef5218d69906245565a910f40e35855771202a106aa07032bbd1b8,
  0x19a4c116b8d2d0c81e376c085141ab532748774cdf8eeb9934b0bcb5e19b48a8,
  0x391c0cb3c5c95a634ed8aa4ae3418acb5b9cca4f7763e373682e6ff3d6b2b8a3,
  0x748f82ee5defb2fc78a5636f43172f6084c87814a1f0ab728cc702081a6439ec,
  0x90befffa23631e28a4506cebde82bde9bef9a3f7b2c67915c67178f2e372532b,
  0xca273eceea26619cd186b8c721c0c207eada7dd6cde0eb1ef57d4f7fee6ed178,
  0x06f067aa72176fba0a637dc5a2c898a6113f9804bef90dae1b710b35131c471b,
  0x28db77f523047d8432caab7b40c724933c9ebe0a15c9bebc431d67c49c100d4c,
  0x4cc5d4becb3e42b6597f299cfc657e2a5fcb6fab3ad6faec6c44198c4a475817]

/-- The hash value before the first block, four words to a number: the square roots of the ninth to the sixteenth prime. -/
def startQuads : List Nat := [
  0xcbbb9d5dc1059ed8629a292a367cd5079159015a3070dd17152fecd8f70e5939,
  0x67332667ffc00b318eb44a8768581511db0c2e0d64f98fa747b5481dbefa4fa4]

/-- The four 64-bit words of a number of 256 bits, from the top. -/
def quadWords (q : Nat) : List Nat := (List.range 4).map (fun i => q / 2 ^ (192 - 64 * i) % 2 ^ 64)

/-- A 64-bit word rotated right. -/
def rotr (x n : Nat) : Nat := (x >>> n) ||| ((x <<< (64 - n)) % 2 ^ 64)

def bigSigma0 (x : Nat) : Nat := rotr x 28 ^^^ rotr x 34 ^^^ rotr x 39
def bigSigma1 (x : Nat) : Nat := rotr x 14 ^^^ rotr x 18 ^^^ rotr x 41
def smallSigma0 (x : Nat) : Nat := rotr x 1 ^^^ rotr x 8 ^^^ (x >>> 7)
def smallSigma1 (x : Nat) : Nat := rotr x 19 ^^^ rotr x 61 ^^^ (x >>> 6)

/-- The next word of the message schedule from the last sixteen. -/
def nextWord (w : List Nat) : Nat :=
  (smallSigma1 (w.getD 14 0) + w.getD 9 0 + smallSigma0 (w.getD 1 0) + w.getD 0 0) % 2 ^ 64

/-- The rounds over the constants that are left; w holds the sixteen words of the schedule that come next. -/
def rounds : List Nat → List Nat → List Nat → List Nat
  | [], _, s => s
  | k :: ks, w, s =>
    let a := s.getD 0 0
    let b := s.getD 1 0
    let c := s.getD 2 0
    let e := s.getD 4 0
    let f := s.getD 5 0
    let g := s.getD 6 0
    let t1 := (s.getD 7 0 + bigSigma1 e + ((e &&& f) ^^^ ((2 ^ 64 - 1 - e) &&& g)) + k + w.getD 0 0) % 2 ^ 64
    let t2 := (bigSigma0 a + ((a &&& b) ^^^ (a &&& c) ^^^ (b &&& c))) % 2 ^ 64
    rounds ks (w.drop 1 ++ [nextWord w])
      [(t1 + t2) % 2 ^ 64, a, b, c, (s.getD 3 0 + t1) % 2 ^ 64, e, f, g]

/-- The big-endian number of bytes. -/
def beNat (l : List Byte) : Nat := l.foldl (fun n b => 256 * n + b.toNat) 0

/-- A number as n big-endian bytes. -/
def beBytes (n v : Nat) : List Byte := (leBytes n v).reverse

/-- One block of 128 bytes. -/
def block (h : List Nat) (b : List Byte) : List Nat :=
  let w := (List.range 16).map (fun i => beNat ((b.drop (8 * i)).take 8))
  let s := rounds (roundQuads.flatMap quadWords) w h
  (List.range 8).map (fun i => (h.getD i 0 + s.getD i 0) % 2 ^ 64)

/-- The blocks of a padded message. -/
def blocks : Nat → List Byte → List Nat → List Nat
  | 0, _, h => h
  | n + 1, b, h => blocks n (b.drop 128) (block h (b.take 128))

/-- The padding of a message of n bytes. -/
def padding (n : Nat) : List Byte := [0x80] ++ zeros ((128 + 111 - n % 128) % 128) ++ beBytes 16 (8 * n)

/-- SHA-384: 48 bytes. -/
def sha384 (b : List Byte) : List Byte :=
  let p := b ++ padding b.length
  ((blocks (p.length / 128) p (startQuads.flatMap quadWords)).take 6).flatMap (beBytes 8)

end Sys2Proof.Machine.Sha
end

