-- ==== Sys2Proof/Machine/Ecdsa.lean ====
section
/-! DEFINITION. Verification of ECDSA signatures over P-384 with SHA-384 (FIPS 186-5; R388, R390, R475; log entry 59,
PRESUMED). -/

namespace Sys2Proof.Machine.Ec

/-- The field prime, the curve constant b, the group order and the base point of P-384. -/
def p : Nat := 2 ^ 384 - 2 ^ 128 - 2 ^ 96 + 2 ^ 32 - 1
def b : Nat := 0xB3312FA7E23EE7E4988E056BE3F82D19181D9C6EFE8141120314088F5013875AC656398D8A2ED19D2A85C8EDD3EC2AEF
def n : Nat := 0xFFFFFFFFFFFFFFFFFFFFFFFFFFFFFFFFFFFFFFFFFFFFFFFFC7634D81F4372DDF581A0DB248B0A77AECEC196ACCC52973
def gx : Nat := 0xAA87CA22BE8B05378EB1C71EF320AD746E1D3B628BA79B9859F741E082542A385502F25DBF55296C3A545E3872760AB7
def gy : Nat := 0x3617DE4A96262C6F5D9E98BF9292DC29F8F41DBD289A147CE9DA3113B5F0B8C00A60B1CE1D7E819D7A431D7C90EA0E5F

/-- A point in Jacobian coordinates; z = 0 is the point at infinity. -/
structure Pt where
  x : Nat
  y : Nat
  z : Nat
  deriving DecidableEq, Repr

/-- a − b modulo the field prime. -/
def sub (a b : Nat) : Nat := (a + p - b % p) % p

/-- x to the power of the number whose low `fuel` bits are e, modulo q. -/
def powMod (q : Nat) : Nat → Nat → Nat → Nat → Nat
  | 0, _, _, acc => acc
  | fuel + 1, x, e, acc => powMod q fuel (x * x % q) (e / 2) (if e % 2 = 1 then acc * x % q else acc)

/-- The inverse modulo a prime of 384 bits. -/
def inv (q x : Nat) : Nat := powMod q 384 (x % q) (q - 2) 1

/-- Twice a point (a = −3). -/
def dbl (a : Pt) : Pt :=
  let d := a.z * a.z % p
  let g := a.y * a.y % p
  let be := a.x * g % p
  let al := 3 * (sub a.x d * ((a.x + d) % p)) % p
  let x := sub (al * al % p) (8 * be % p)
  { x := x, y := sub (al * sub (4 * be % p) x % p) (8 * (g * g % p) % p), z := 2 * (a.y * a.z) % p }

/-- The sum of two points. -/
def add (a c : Pt) : Pt :=
  if a.z = 0 then c
  else if c.z = 0 then a
  else
    let z1 := a.z * a.z % p
    let z2 := c.z * c.z % p
    let u1 := a.x * z2 % p
    let u2 := c.x * z1 % p
    let s1 := a.y * (c.z * z2 % p) % p
    let s2 := c.y * (a.z * z1 % p) % p
    if u1 = u2 then (if s1 = s2 then dbl a else { x := 1, y := 1, z := 0 })
    else
      let h := sub u2 u1
      let r := sub s2 s1
      let hh := h * h % p
      let hhh := h * hh % p
      let v := u1 * hh % p
      let x := sub (sub (r * r % p) hhh) (2 * v % p)
      { x := x, y := sub (r * sub v x % p) (s1 * hhh % p), z := a.z * (c.z * h % p) % p }

/-- k times a point, over the low `fuel` bits of k. -/
def mul : Nat → Nat → Pt → Pt → Pt
  | 0, _, _, acc => acc
  | fuel + 1, k, q, acc => mul fuel (k / 2) (dbl q) (if k % 2 = 1 then add acc q else acc)

/-- A public key on the curve. -/
def onCurve (x y : Nat) : Bool :=
  decide (x < p) && decide (y < p) && y * y % p == (x * x % p * x + 3 * (p - x) + b) % p

/-- The signature (r, s) over a digest verifies under the public key (x, y). -/
def verifyDigest (x y r s : Nat) (digest : List Byte) : Bool :=
  if r = 0 ∨ n ≤ r ∨ s = 0 ∨ n ≤ s ∨ !onCurve x y then false
  else
    let w := inv n s
    let z := Sha.beNat digest
    let pt := add (mul 384 (z * w % n) { x := gx, y := gy, z := 1 } { x := 1, y := 1, z := 0 })
      (mul 384 (r * w % n) { x := x, y := y, z := 1 } { x := 1, y := 1, z := 0 })
    if pt.z = 0 then false
    else
      let zi := inv p pt.z
      pt.x * (zi * zi % p) % p % n == r

/-- A signature of 96 bytes (r, then s, big-endian) over a message verifies under a public key of 96 bytes (x, then y). -/
def verify (key msg sig : List Byte) : Bool :=
  verifyDigest (Sha.beNat (key.take 48)) (Sha.beNat ((key.drop 48).take 48)) (Sha.beNat (sig.take 48))
    (Sha.beNat ((sig.drop 48).take 48)) (Sha.sha384 msg)

/-- The public keys under which a signature over a message verifies, each as 96 bytes: for each point with the signature's r, the
key r⁻¹(sR − zG). -/
def recovered (msg sig : List Byte) : List (List Byte) :=
  let r := Sha.beNat (sig.take 48)
  let s := Sha.beNat ((sig.drop 48).take 48)
  let z := Sha.beNat (Sha.sha384 msg) % n
  if r = 0 ∨ n ≤ r ∨ s = 0 ∨ n ≤ s then []
  else
    let ri := inv n r
    [r, r + n].flatMap fun x =>
      let y2 := (x * x % p * x + 3 * (p - x % p) + b) % p
      let y := powMod p 384 y2 ((p + 1) / 4) 1
      if p ≤ x ∨ y * y % p ≠ y2 then []
      else [y, p - y].flatMap fun v =>
        let q := add (mul 384 (s * ri % n) { x := x, y := v, z := 1 } { x := 1, y := 1, z := 0 })
          (mul 384 ((n - z) * ri % n) { x := gx, y := gy, z := 1 } { x := 1, y := 1, z := 0 })
        if q.z = 0 then []
        else
          let zi := inv p q.z
          let z2 := zi * zi % p
          [Sha.beBytes 48 (q.x * z2 % p) ++ Sha.beBytes 48 (q.y * (z2 * zi % p) % p)]

/-- A signature over a message verifies under a key of which only the SHA-384 digest is held (Table 14.6; log entry 58). -/
def verifyUnder (digest msg sig : List Byte) : Bool := (recovered msg sig).any (fun k => Sha.sha384 k == digest)

end Sys2Proof.Machine.Ec
end

