-- ==== Sys2Proof/Machine/HostIf.lean ====
section
/-! DEFINITION. The host interface: Session commands, the doorbell and its enable, Session timeouts, held records and
interrupt windows (R321-R346). -/

namespace Sys2Proof.Machine

/-! ### Session commands (Table 10.9) -/

/-- The partitions of a bitmap that count as owned by the port through which a Session opens (R328, R377). -/
def openGrants (m : Mach) (port : Port) (bm : PartMap) : List Nat :=
  (partsList bm).filter (fun p => match port with
    | .sideband => true
    | _ => (ownerOf m p).map (fun o => o.port) == some port)

/-- OBSERVE over partitions. -/
def observeOver (ps : List Nat) : Store Grant := ps.foldl (fun l q => Store.put { level := 0 } l q { level := 1 }) []

/-- The map of partitions. -/
def grantMap (ps : List Nat) : PartMap := ps.foldl (fun a q => a ||| (1 <<< q)) 0

/-- A Session of the host opens: its levels, its numbering, and OPEN in its hub area (R328, R342). -/
def openRing (m : Mach) (sid seq : Nat) (ps : List Nat) : Mach :=
  let m := updSess m sid (fun x => { x with open_ := true, nextSeq := seq, levels := observeOver ps })
  match sessOf m sid with
  | some s => writeState m s 1
  | none => m

/-- The handle of the next Session of a port: the next generation, with index 0 (R363). -/
def nextHandle (m : Mach) (port : Port) : W32 :=
  let old := if port = .scan then m.scan.gen else m.side.gen
  BitVec.ofNat 32 ((if old = 0xFFFFF then 1 else old + 1) * 2 ^ 12)

/-- A port's Session opens under the next handle. -/
def openPort (m : Mach) (port : Port) (seq : Nat) (ps : List Nat) : Mach :=
  let h := nextHandle m port
  let x : Session := { sid := sidOf port h, handle := h, port := port, open_ := true, nextSeq := seq,
                       levels := observeOver ps, lastBell := gtcNow m }
  let m := if port = .scan then { m with scan := { m.scan with gen := h.toNat / 2 ^ 12 } }
    else { m with side := { m.side with gen := h.toNat / 2 ^ 12 } }
  { m with host := { m.host with sessions := m.host.sessions ++ [x] } }

/-- OPEN_SESSION on the ring of a host Session or, on a port, for a new Session with the next generation (R328, R363). -/
def doOpen (m : Mach) (i : Issuer) (p : Pkt) : Mach :=
  if p.body.length != 9 then answer m i 0x0101 p.cookie St.malformed []
  else if ((sessOf m i.sess).map (fun s => s.open_)).getD false || (onPort i && (portSess m i.port).isSome) then
    answer m i 0x0101 p.cookie St.busy []
  else
    let ps := openGrants m i.port (partMapAt p.body 0)
    let seq := (wAt p.body 8).toNat
    let detail := leWords 8 (grantMap ps).toNat
    if onPort i then
      let h := nextHandle m i.port
      let m := openPort m i.port seq ps
      postRecord m (sidOf i.port h) (completion m h 0x0101 p.cookie St.ok detail) false
    else answer (openRing m i.sess seq ps) i 0x0101 p.cookie St.ok detail

/-- The meaning of OPEN_SESSION. -/
def execOpenSession (p : Pkt) (s : State) : Host.Outcome State Fault Refusal :=
  hostRow 0x0101 p s (fun m i => doOpen m i p)

/-- CLOSE_SESSION (R331). -/
def doClose (m : Mach) (i : Issuer) (p : Pkt) : Mach :=
  if p.body != [] then answer m i 0x0102 p.cookie St.malformed [] else endSession m i.sess 1 p.cookie

/-- The meaning of CLOSE_SESSION. -/
def execCloseSession (p : Pkt) (s : State) : Host.Outcome State Fault Refusal :=
  hostRow 0x0102 p s (fun m i => doClose m i p)

/-- FENCE (R339): it waits for arms of earlier commands and for the events that the Session holds. -/
def doFence (m : Mach) (i : Issuer) (p : Pkt) : Mach :=
  if p.body != [] then answer m i 0x0103 p.cookie St.malformed []
  else
    let held := ((sessOf m i.sess).map (fun s => s.held.length)).getD 0
    let (c, m) := newCmd m i 0x0103 p.cookie p.body noScope
    fenceAll (updCmd m c.id (fun x => { x with need := held }))

/-- The meaning of FENCE. -/
def execFence (p : Pkt) (s : State) : Host.Outcome State Fault Refusal :=
  hostRow 0x0103 p s (fun m i => doFence m i p)

/-- NOP (Table 10.9). -/
def doNop (m : Mach) (i : Issuer) (p : Pkt) : Mach :=
  answer m i 0x0104 p.cookie (if p.body != [] then St.malformed else St.ok) []

/-- The meaning of NOP. -/
def execNopCmd (p : Pkt) (s : State) : Host.Outcome State Fault Refusal :=
  hostRow 0x0104 p s (fun m i => doNop m i p)

/-- The state and slot of an object for QUERY OBJECT (Table 10.10); none when a port may not carry the handle (R364). -/
def queryObject (m : Mach) (i : Issuer) (kind : Nat) (h : W32) : Option (Nat × Nat) :=
  let no : Nat := 0xFFFFFFFF
  if h = 0 then some (0, no)
  else if onPort i then
    match kind with
    | 0 => some (if handleOf m i.sess == h then 1 else 2, no)
    | 1 => if h = replyHandle then some (1, no) else none
    | 3 =>
      match portDumpSlot h with
      | some s => if (dump m s).isSome then some (1, s) else some (2, no)
      | none => none
    | _ => none
  else
    match kind with
    | 1 => some (if (bufferOf m h).isSome then 1 else 2, no)
    | 3 =>
      match dumpOf m i h with
      | some (_, some s) => some (1, s)
      | some (_, none) => some (1, no)
      | none => some (2, no)
    | 4 => if handleCurrent m 4 h then
        some (1, ((List.range 8).find? (fun s => ((stream m s).map (fun x => x.handle == h)).getD false)).getD no)
      else some (2, no)
    | k => some (if handleCurrent m k h then 1 else 2, no)

/-- QUERY OBJECT names a current Buffer, Routine, stream or owned Dump of another Session (R320). -/
def queryDenied (m : Mach) (i : Issuer) (kind : Nat) (h : W32) : Bool :=
  !onPort i && i.origin != .firmware && (kind == 1 || kind == 2 || kind == 3 || kind == 4) && handleCurrent m kind h &&
  descOwner m kind h != ownerHandle m i && !(kind == 3 && ((dumpDescOf m h).map (fun d => d.byJob || d.bySlot)).getD false)

/-- QUERY (Table 10.10). -/
def doQuery (m : Mach) (i : Issuer) (p : Pkt) : Mach :=
  let w := wAt p.body 0
  let code := wfld w 0 16
  let kind := wfld w 16 3
  let h := wAt p.body 1
  let bad := answer m i 0x0105 p.cookie St.malformed []
  if p.body.length != 2 || decide (2 < code) || wfld w 19 13 != 0 || (code != 2 && (kind != 0 || h != 0)) ||
     decide (4 < kind) then bad
  else
    match code with
    | 0 => answer m i 0x0105 p.cookie St.ok
        (w2 (hget m 0x0498).toNat ++ w2 (hget m 0x0010).toNat ++ w2 (gtcNow m))
    | 1 => answer m i 0x0105 p.cookie St.ok
        (bytesWords ((List.range 256).map (fun q => BitVec.ofNat 8 (levelOf m i.sess q))))
    | _ =>
      match queryObject m i kind h with
      | none => bad
      | some (st, slot) =>
        if queryDenied m i kind h then answer m i 0x0105 p.cookie St.notAuthorised []
        else answer m i 0x0105 p.cookie St.ok (w1 kind ++ w1 st ++ w1 slot)

/-- The meaning of QUERY. -/
def execQuery (p : Pkt) (s : State) : Host.Outcome State Fault Refusal :=
  hostRow 0x0105 p s (fun m i => doQuery m i p)

/-! ### Paging in (R324, R325, R327) -/

/-- STATE in the hub area. -/
def descState (m : Mach) (h : W32) : Nat := memNat m.hostMem (sessDesc m h + 64) 4

/-- The first packet of a Session for which no slot is free: its slots are consumed and it is answered with NO_SLOT
(R327). -/
def noSlotPacket (m : Mach) (s : Session) : Mach :=
  let avail := (s.sqProd + 2 ^ 32 - s.sqCons) % 2 ^ 32
  let head := bytesWords (ringRead m.hostMem s.sqBase s.sqSlots s.sqCons 1)
  let len := wfld (wAt head 0) 0 12
  let n := if len < 4 ∨ len = 0xFFF then avail else Nat.min avail (slotsFor len)
  let m := writeCons (updSess (incHf m R.IF_CNT_PACKETS) s.sid (fun x => { x with sqCons := (x.sqCons + n) % 2 ^ 32 })) s.sid
  let m := incIfErr m R.IF_ERR_NO_SLOT
  reply m (.session s.sid) (wfld (wAt head 0) 16 16) (BitVec.ofNat 64 (w64At head 2)) St.noSlot []

/-- A Session that an accepted doorbell names is paged in when it is not resident, and its packets are read (R327). -/
def pageAndRead (m : Mach) (s : Session) : Mach :=
  if s.slot.isSome then readNext m s.sid
  else
    match takeSlot m s.sid with
    | none => noSlotPacket m (pagedFields m s)
    | some m => readNext (updSess m s.sid (fun x => descSession m s.handle x)) s.sid

/-! ### The doorbell (R335) -/

/-- A bad doorbell: counted and, for an open Session that is not ending, reported (R335). -/
def badDoorbell (m : Mach) (s : Option Session) (prod cause : Nat) : Mach :=
  let m := incIfErr m R.IF_ERR_BAD_DOORBELL
  match s with
  | some s =>
    if s.open_ && s.ending == 0 && cause != 0 then
      raiseEv m { code := EvCode.doorbellBad, source := hubPath m, stamp := gtcNow m,
                  detail := w1 prod ++ w1 s.sqCons ++ w1 cause, named := [s.sid], wide := false }
    else m
  | none => m

/-- A doorbell for a Session that the hub knows. -/
def knownDoorbell (m : Mach) (s : Session) (prod : Nat) : Mach :=
  if s.ending = 6 then incIfErr m R.IF_ERR_BAD_DESC
  else if s.closed || s.ending != 0 then badDoorbell m none prod 0
  else if s.slot.isNone && !ringFieldsOk m s.handle then
    let m := incIfErr m R.IF_ERR_BAD_DESC
    if s.open_ then endSession (updSess m s.sid (fun x => { x with held := [], lost := 0 })) s.sid 7 0 else m
  else if (pagedFields m s).sqSlots < (prod + 2 ^ 32 - s.sqCons) % 2 ^ 32 then badDoorbell m (some s) prod 1
  else if seqLater s.sqProd prod then badDoorbell m (some s) prod 2
  else
    let m := updSess m s.sid (fun x => { x with sqProd := prod, lastBell := gtcNow m })
    if prod = s.sqCons then retryHeld m s.sid
    else if s.slot.isNone && (!otherFieldsOk m s.handle || ((s.open_ || descState m s.handle != 0) && !tagOk m s.handle)) then
      endSession m s.sid 3 0
    else
      let m := retryHeld m s.sid
      match sessOf m s.sid with
      | some s => pageAndRead m s
      | none => m

/-- The first doorbell of a Session: its descriptor is read (R324, R325). -/
def firstDoorbell (m : Mach) (h : W32) (prod : Nat) : Mach :=
  if descState m h = 2 then badDoorbell m none prod 0
  else if !ringFieldsOk m h then incIfErr m R.IF_ERR_BAD_DESC
  else
    let cons := if descState m h = 0 then 0 else memNat m.hostMem (sessDesc m h + 68) 4
    let made := if descState m h = 0 then 0 else memNat m.hostMem (sessDesc m h + 72) 4
    let x := descSession m h { sid := sidOf .host h, handle := h, port := .host, sqCons := cons, eqProd := made }
    let x := { x with sqProd := x.sqCons }
    let m1 := { m with host := { m.host with sessions := m.host.sessions ++ [x] } }
    if descState m h != 0 || !otherFieldsOk m h then endSession m1 x.sid 3 0
    else if x.sqSlots < (prod + 2 ^ 32 - x.sqCons) % 2 ^ 32 then badDoorbell m none prod 0
    else knownDoorbell m1 x prod

/-- The meaning of DOORBELL: a write of `size` bytes (R321, R335). -/
def execDoorbell (size : Nat) (v : W64) (s : State) : Host.Outcome State Fault Refusal :=
  if s.m.peer.isolated then .next s
  else
  let m := s.m
  let h : W32 := BitVec.ofNat 32 (fld v 0 32)
  let prod := fld v 32 32
  let m :=
    if size != 8 then incIfErr m R.IF_ERR_BAD_DOORBELL
    else if hf m R.IF_STATUS_ENABLED = 0 then m
    else if !handleCurrent m 0 h then badDoorbell m none prod 0
    else
      match m.host.sessions.find? (fun x => x.sid == sidOf .host h) with
      | some x => knownDoorbell m x prod
      | none => firstDoorbell m h prod
  .next { s with m := fenceAll m }

/-! ### The enable (R321) -/

/-- The root structure keeps R321. -/
def rootOk (mem : Store Byte) (a : Nat) : Bool :=
  memNat mem a 4 == 0x544F4F52 && memNat mem (a + 4) 1 == 1 &&
  (List.range 5).all (fun k => memNat mem (a + 16 + 16 * k) 8 % 64 == 0 && decide (memNat mem (a + 24 + 16 * k) 4 ≤ 4096))

/-- The meaning of IF_CTL_ENABLE: a write of IF_CTL (R321). -/
def execIfCtlEnable (v : W64) (s : State) : Host.Outcome State Fault Refusal :=
  let m := s.m
  if m.peer.isolated then .next s
  else
  let was := hf m R.IF_CTL_ENABLE
  let m := setHf (setHf (setHf m R.IF_CTL_ENABLE (fld v 0 1)) R.IF_CTL_VECTOR (fld v 8 6)) R.IF_CTL_VEC_EN (fld v 14 1)
  let m := if v.toNat &&& 0xFFFFFFFFFFFF80FE = 0 then m else setHf m R.HUB_STATUS_RSVD_WRITE 1
  let m :=
    if was = 0 ∧ fld v 0 1 = 1 then
      let a := hf m R.IF_ROOT_BASE * 4096
      if rootOk m.hostMem a then
        let r : Root := { bases := (List.range 5).map (fun k => memNat m.hostMem (a + 16 + 16 * k) 8),
                          counts := (List.range 5).map (fun k => memNat m.hostMem (a + 24 + 16 * k) 4) }
        setHf (setHf { m with host := { m.host with root := some r } } R.IF_STATUS_ENABLED 1) R.IF_STATUS_ROOT_BAD 0
      else
        let quiet := hf m R.IF_STATUS_ROOT_BAD == 0
        let m := setHf (setHf m R.IF_STATUS_ENABLED 0) R.IF_STATUS_ROOT_BAD 1
        if quiet then signalIfErr m else m
    else if was = 1 ∧ fld v 0 1 = 0 then setHf m R.IF_STATUS_ENABLED 0
    else m
  .next { s with m := m }

/-! ### Timeouts, held records and interrupts -/

/-- The instant at which a Session times out, if it does (R332, R377). -/
def timeoutAt (m : Mach) (s : Session) : Option Nat :=
  match s.port with
  | .host => if s.timeoutMs = 0 then none else some (s.lastBell + s.timeoutMs * 1000000)
  | .sideband => some (Nat.max s.lastBell m.side.lastCommand + 60000000000)
  | _ => none

/-- The meaning of SESSION_TIMEOUT, which acts once the time has passed (R332, R377). -/
def execSessionTimeout (port : Port) (session : W32) (s : State) : Host.Outcome State Fault Refusal :=
  let m := s.m
  let sid := sidOf port session
  match sessOf m sid with
  | some x =>
    match timeoutAt m x with
    | some t => if x.open_ ∧ x.ending = 0 ∧ t ≤ gtcNow m then .next { s with m := endSession m sid 2 0 } else .next s
    | none => .next s
  | none => .next s

/-- Try again the held records of a Session; an ending one goes on ending and may then be gone, and the next packet is read (R331,
R340). -/
def retrySession (m : Mach) (sid : Nat) : Mach := readNext (closeIfFlushed (endCheck (retryHeld m sid) sid) sid) sid

/-- The meaning of EQ_RETRY (R340). -/
def execEqRetry (session : W32) (s : State) : Host.Outcome State Fault Refusal :=
  let m := ([Port.host, .scan, .sideband] : List Port).foldl (fun m p => retrySession m (sidOf p session)) s.m
  .next { s with m := fenceAll m }

/-- The meaning of COALESCE_END: the interrupt owed at the end of a window is sent (R343). -/
def execCoalesceEnd (session : W32) (s : State) : Host.Outcome State Fault Refusal :=
  let m := s.m
  match sessOf m (sidOf .host session) with
  | some x =>
    match x.irqDue with
    | some t =>
      if t ≤ gtcNow m then
        .next { s with m := updSess (emit m (.msix x.vector)) x.sid (fun y => { y with lastIrq := some (gtcNow m), irqDue := none }) }
      else .next s
    | none => .next s
  | none => .next s

end Sys2Proof.Machine
end

