-- ==== Sys2Proof/Machine/Otp.lean ====
section
/-! DEFINITION. The one-time-programmable fuses: cells, copies, the package counter, the die counters and the keys that the
present state allows (R454-R457, R463, R470). -/

namespace Sys2Proof.Machine

/-! ### Cells and fuses (R455) -/

/-- What n cells from key `base` read: 1 BLOWN or 0 UNBLOWN when at least two cells agree, else 2 MARGINAL. -/
def fuseOf (cells : Store Nat) (base : Nat) : Nat :=
  let v := (List.range 3).map (fun c => Store.get 0 cells (base + c))
  if decide (2 ≤ (v.filter (fun x => x == 1)).length) then 1
  else if decide (2 ≤ (v.filter (fun x => x == 0)).length) then 0 else 2

/-- Marginal cells that a fuse masks. -/
def maskedCells (cells : Store Nat) (base : Nat) : Nat :=
  if fuseOf cells base = 2 then 0
  else ((List.range 3).filter (fun c => Store.get 0 cells (base + c) == 2)).length

/-- Program a fuse: every cell reads BLOWN. -/
def blow (cells : Store Nat) (base : Nat) : Store Nat :=
  (List.range 3).foldl (fun s c => Store.put 0 s (base + c) 1) cells

/-- Index of the intent and the done fuse of pair s, and of token fuse t. -/
def intentFuse (s : Nat) : Nat := 2 * (s - 1)
def doneFuse (s : Nat) : Nat := 2 * (s - 1) + 1
def tokenFuse (t : Nat) : Nat := 12 + t

/-- The copies that are present: the serving instance's own, and the other's while its heartbeat is. Copy 0 is that of A0. -/
def copies (m : Mach) : List Nat :=
  let own := if m.peer.onA2 then 1 else 0
  if m.peer.present then [own, 1 - own] else [own]

/-- A logical fuse across the copies (R455). -/
def pkgFuse (m : Mach) (f : Nat) : Nat :=
  let v := (copies m).map (fun c => fuseOf m.lcy.hub (c * 256 + 3 * f))
  if v.contains 1 then 1 else if v.contains 2 then 2 else 0

/-- Program a logical fuse in the copies that are present. -/
def blowPkg (m : Mach) (f : Nat) : Mach :=
  { m with lcy := { m.lcy with hub := (copies m).foldl (fun s c => blow s (c * 256 + 3 * f)) m.lcy.hub } }

/-- A fuse of a die's counter. -/
def dieFuse (m : Mach) (d f : Nat) : Nat := fuseOf m.lcy.dies (d * 64 + 3 * f)

/-- Program a fuse of a die's counter. -/
def blowDie (m : Mach) (d f : Nat) : Mach :=
  { m with lcy := { m.lcy with dies := blow m.lcy.dies (d * 64 + 3 * f) } }

/-! ### Counters (R456, R457, R463) -/

/-- The highest s whose done fuse reads BLOWN; 0 is RAW. -/
def counterOf (g : Nat → Nat) : Nat :=
  ([6, 5, 4, 3, 2, 1].find? (fun s => g (doneFuse s) == 1)).getD 0

/-- An intent or done fuse above the state reads MARGINAL. -/
def counterMarginal (g : Nat → Nat) : Bool :=
  [1, 2, 3, 4, 5, 6].any (fun s => decide (counterOf g < s) && (g (intentFuse s) == 2 || g (doneFuse s) == 2))

/-- The pair above the state whose intent is BLOWN while its done fuse is UNBLOWN: the counter is torn. -/
def counterTorn (g : Nat → Nat) : Option Nat :=
  [1, 2, 3, 4, 5, 6].find? (fun s => decide (counterOf g < s) && g (intentFuse s) == 1 && g (doneFuse s) == 0)

/-- The package state that the fuses give: Table 14.1, with 7 for LOST. -/
def otpState (m : Mach) : Nat := if counterMarginal (pkgFuse m) then 7 else counterOf (pkgFuse m)

/-- The counter state of a die. -/
def dieState (m : Mach) (d : Nat) : Nat := counterOf (dieFuse m d)

/-- Token fuses that are consumed: those that read BLOWN or MARGINAL (R468). -/
def tokensUsed (m : Mach) : Nat := ((List.range 24).filter (fun t => pkgFuse m (tokenFuse t) != 0)).length

/-! ### The state in force and the keys (R454, R470, Table 14.6) -/

/-- LCY_STATE.STATE: what the latest start or transition left. -/
def lcState (m : Mach) : Nat := hf m R.LCY_STATE_STATE

/-- TEST_UNLOCK is active. -/
def unlocked (m : Mach) : Bool := hf m R.LCY_STATE_UNLOCKED == 1

/-- The package has booted to identity only (R462). -/
def identityOnly (m : Mach) : Bool := decide (6 ≤ lcState m) && hf m R.HUB_STATUS_FW_IN_SERVICE == 0

/-- A key is usable now: 0 licence, 1 manufacturing, 2 operator, 3 analysis, 4 firmware signing, 5 die attestation. -/
def keyUsable (m : Mach) (k : Nat) : Bool :=
  let st := lcState m
  match k with
  | 0 => decide (st ≤ 5)
  | 1 => decide (st ≤ 1) || (unlocked m && decide (st ≤ 5))
  | 2 => !unlocked m && (st == 2 || st == 3 || st == 4)
  | 3 => st == 5
  | 4 => decide (st ≤ 5)
  | 5 => !unlocked m && (st == 2 || st == 3 || st == 4)
  | _ => false

/-- The digest of a root in OTP: the operator's once it is programmed, any other as fused at manufacture. -/
def rootDigest (m : Mach) (k : Nat) : List Byte :=
  let d := Store.get [] m.lcy.digests k
  if d.isEmpty && k != 2 then Config.fusedDigest k else d

/-- An attestation key is present on a die and not wiped. -/
def keySet (m : Mach) (d : Nat) : Bool := Store.get 0 m.lcy.keys d != 0

/-- Byte i of a die's attestation public key. -/
def attestByte (m : Mach) (d i : Nat) : Byte :=
  if keySet m d then Config.attestKeyByte d (Store.get 0 m.lcy.keys d - 1) i else 0

/-! ### Access levels (Table 14.7) -/

/-- The highest level that a root can grant now: 1 manufacturing, 2 operator, 3 analysis. -/
def rootCeiling (m : Mach) (root : Nat) : Nat :=
  if !keyUsable m root then 0
  else if root = 1 then 4 else if root = 2 ∨ root = 3 then 3 else 0

end Sys2Proof.Machine
end

