-- ==== Sys2Proof/Machine/LifeCycle.lean ====
section
/-! DEFINITION. The life cycle: die phases, wipes, transitions and TEST_UNLOCK, challenges and credentials, levels that lapse,
attestation and the revocation of ledger entries (R454-R482). -/

namespace Sys2Proof.Machine

/-! ### Die phases and wipes (R459, R463-R466) -/

/-- A die's counter is lost (R463): a fuse reads MARGINAL, or it is ahead of a package whose intent fuse is unblown. -/
def dieLost (m : Mach) (d : Nat) : Bool :=
  counterMarginal (dieFuse m d) ||
  (decide (otpState m < dieState m d) && pkgFuse m (intentFuse (dieState m d)) == 0)

/-- The Station takes part in the phases of the dies: it answers, and its die is not lost. -/
def dieTakes (m : Mach) (d : Nat) : Bool := stnAnswers m d && sf m d R.STN_LCY_LOST == 0

/-- The wipes that a die makes on its way to pair s (Table 14.4). -/
def dieWipe (m : Mach) (d s : Nat) : Mach :=
  if s = 5 ∨ s = 6 then
    let m := { m with lcy := { m.lcy with keys := Store.put 0 m.lcy.keys d 0 } }
    let m := countMram (updNote m d (fun x => { x with user := [] })) d 0
    if s = 6 then countMram (countMram (updNote m d (fun x => { x with training := [], ledger := [] })) d 1) d 2 else m
  else m

/-- The key pair that a die draws at PERSONALISED (R471). -/
def dieKey (m : Mach) (d s : Nat) : Mach :=
  if s = 2 ∧ !keySet m d then
    { m with lcy := { m.lcy with keys := Store.put 0 m.lcy.keys d (m.free + 1) }, free := m.free + 1 }
  else m

/-- The die phase of a transition to pair s (R463). -/
def diePhase (m : Mach) (d s : Nat) : Mach :=
  blowDie (dieWipe (dieKey (blowDie m d (intentFuse s)) d s) d s) d (doneFuse s)

/-- The regions of Table 12.2 other than the firmware copies, erased. -/
def eraseFlash (_ : Flash) : Flash :=
  { seed := { dies := 0, hbms := 0, ext := 0, nominal := 0 }, erased := true }

/-- The package wipe of a transition to SCRAPPED (Table 14.4). -/
def packageWipe (m : Mach) : Mach :=
  let m := updFlash { m with lcy := { m.lcy with opWiped := true } } eraseFlash
  let inH (a : Nat) : Bool := (List.range 32).any (fun s =>
    let b := hamperBase m s
    decide (b ≠ 0) && decide (b ≤ a) && decide (a < b + hamperSize))
  { m with
      hbm := m.hbm.filter (fun e => !inH e.1),
      trc := { m.trc with slots := m.trc.slots.map (fun e => (e.1, e.2.map (fun x => { x with merge := none }))) },
      stns := m.stns.map (fun e => (e.1, { e.2 with frames := e.2.frames.map (fun f =>
        (f.1, f.2.map (fun (x : TrFrame) => { x with data := [], state := 0 }))), spill := [] })) }

/-! ### Levels that lapse (R469, R478) -/

/-- A level falls as at NOT_AFTER: to OBSERVE over a partition that the Session's port owns, else to NONE. -/
def levelLapses (m : Mach) (s : Session) (part : Nat) : Mach :=
  if (openGrants m s.port ((1 : PartMap) <<< part)).isEmpty then dropLevel m s.sid part 0
  else setGrant (dropLevel m s.sid part 1) s.sid part { level := 1 }

/-- Every level that `g` selects lapses. -/
def lapseAll (m : Mach) (g : Grant → Bool) : Mach :=
  (m.host.sessions.filter (fun s => !s.closed)).foldl (fun m s =>
    (s.levels.filter (fun e => e.2.root != 0 && g e.2)).foldl (fun m e => levelLapses m s e.1) m) m

/-- Under TEST_UNLOCK every level above OBSERVE drops to OBSERVE, and each Session that it affects hears so once (R469). -/
def unlockDrop (m : Mach) : Mach :=
  (m.host.sessions.filter (fun s => !s.closed && s.levels.any (fun e => decide (1 < e.2.level)))).foldl (fun m s =>
    let m := updSess m s.sid (fun x => { x with levels := x.levels.map (fun e =>
      if 1 < e.2.level then (e.1, { e.2 with level := 1 }) else e) })
    raiseEv (incHf m R.LCY_AUTH_REVOCATIONS) {
      code := EvCode.authorityRevoked, source := hubPath m, stamp := gtcNow m,
      detail := w1 0xFFFFFFFF, named := [s.sid], wide := false }) m

/-- The meaning of CREDENTIAL_EXPIRY: levels lapse whose chain's earliest NOT_AFTER the time of day has passed (R478). -/
def execCredentialExpiry (s : State) : Host.Outcome State Fault Refusal :=
  if hf s.m R.GTC_STATUS_TOD_VALID = 1 then
    .next { s with m := lapseAll s.m (fun g => decide (g.notAfter < todSeconds s.m)) }
  else .next s

/-! ### Authority of a transition (R458) -/

/-- A Session holds a level of DEBUG or above that a chain of this root granted whose PARTS are all ones. -/
def rootAuthority (m : Mach) (i : Issuer) (root : Nat) : Bool :=
  match sessOf m i.sess with
  | some s => s.levels.any (fun e => decide (2 ≤ e.2.level) && e.2.root == root && e.2.whole)
  | none => false

/-- VENDOR_TEST. -/
def vendorAuthority (m : Mach) (i : Issuer) : Bool := decide (4 ≤ issLevel m i 0)

/-- The authority that Table 14.2 asks for in a state: 1 vendor, 2 operator, 3 analysis. -/
def lcAuthority (m : Mach) (i : Issuer) (st : Nat) : Bool :=
  if st ≤ 1 then vendorAuthority m i else if st = 5 then rootAuthority m i 3 else rootAuthority m i 2

/-- The transitions of Table 14.2; 8 is TEST_UNLOCK. -/
def lcAllowed (st target : Nat) : Bool :=
  if target = 8 then st == 3 || st == 4
  else if target = 6 then decide (st ≤ 5)
  else decide (target ≤ 5) && target == st + 1

/-! ### LC_TRANSITION (R458-R460, R468, R469, R479-R481) -/

/-- HUB_SERIAL. -/
def hubSerial (m : Mach) : Nat := hf m R.HUB_SERIAL_SERIAL

/-- DATA has the form of R480. -/
def lcDataOk (target : Nat) (x : List Byte) : Bool :=
  let zeroFrom (a : Nat) : Bool := (x.drop a).all (fun b => b == 0)
  if target = 1 then bytesAt x 0 8 != 0 && zeroFrom 8
  else if target = 2 then zeroFrom 48
  else if target = 8 then
    bytesAt x 0 4 == 0x4B4C4E55 && bytesAt x 4 1 == 1 && bytesAt x 6 2 == 0 && ((x.drop 16).take 32).all (fun b => b == 0)
  else zeroFrom 0

/-- An unlock token passes its checks (R468). -/
def tokenGood (m : Mach) (x : List Byte) : Bool :=
  bytesAt x 5 1 == tokensUsed m && bytesAt x 8 8 == hubSerial m &&
  Ec.verifyUnder (rootDigest m 0) (x.take 48) ((x.drop 48).take 96)

/-- The status that refuses an LC_TRANSITION, 0 for none (R481). -/
def lcStatus (m : Mach) (i : Issuer) (b : List W32) : Nat :=
  let w := wAt b 0
  let target := wfld w 0 4
  let x := wordsBytes (b.drop 1)
  let st := lcState m
  firstStatus [
    (b.length != 37 || w.toNat != target + 256 * wfld w 8 1 || !nbit w.toNat 8 ||
      !((decide (1 ≤ target) && decide (target ≤ 6)) || target == 8) || !lcDataOk target x, St.malformed),
    (unlocked m || !lcAllowed st target || (target == 8 && tokensUsed m == 24), St.lifecycleDenied),
    (!lcAuthority m i st || (target == 8 && !tokenGood m x), St.notAuthorised),
    (!m.pins.holdupOk || hf m R.LCY_STATE_IN_TRANSITION == 1 ||
      m.rcv.escs.any (fun e => (e.2.map (fun x => decide (4 ≤ x.rung) && !x.waitStitch)).getD false), St.busy)] 0

/-- A duration in µs that the spec bounds and does not fix (R460; log entry 61). -/
def lcDuration (m : Mach) (bound : Nat) : Nat × Mach :=
  let (v, m) := draw m
  (v.toNat % (bound + 1), m)

/-- Show the counter and the tokens in LCY_STATE. -/
def lcShow (m : Mach) : Mach := setHf (setHf m R.LCY_STATE_STATE (otpState m)) R.LCY_STATE_TOKENS_USED (tokensUsed m)

/-- What a transition programs in the package's OTP from DATA (Table 14.2). -/
def lcProgram (m : Mach) (target : Nat) (x : List Byte) : Mach :=
  if target = 1 then setHf m R.HUB_SERIAL_SERIAL (bytesAt x 0 8)
  else if target = 2 then { m with lcy := { m.lcy with digests := Store.put [] m.lcy.digests 2 (x.take 48), opWiped := false } }
  else m

/-- The µs that a phase takes at most (Table 14.3): the package's intent, the dies, the package wipe and the package's done fuse. -/
def phaseBound (phase : Nat) : Nat :=
  match phase with
  | 2 => 3140
  | 3 => 1400
  | _ => 140

/-- A transition enters a phase, whose length is free within its bound (R460; log entry 61). -/
def lcEnter (m : Mach) (x : LcMove) (phase : Nat) : Mach :=
  let (us, m) := lcDuration m (phaseBound phase)
  let x := { x with phase := phase, due := m.time.ns + 1000 * us, us := x.us + us }
  setHf { m with lcy := { m.lcy with move := some x } } R.LCY_TRANS_PHASE phase

/-- The fuse that the first phase of a transition programs in the package's copies: I_s, or the token fuse of TEST_UNLOCK. -/
def firstFuse (m : Mach) (target : Nat) : Nat := if target = 8 then tokenFuse (tokensUsed m) else intentFuse target

/-- The die phases of a transition, on every Station that answers (R459, R463). -/
def lcDies (m : Mach) (target : Nat) : Mach :=
  let dies := (List.range 100).filter (dieTakes m)
  setHf (dies.foldl (fun m d => diePhase m d target) m) R.LCY_TRANS_DIES_DONE dies.length

/-- What a transition leaves once its fuses are programmed: the state in force, the levels whose root can grant no more, and LC_CHANGED
to every Session and the tray (R459). -/
def lcSettle (m : Mach) : Mach :=
  let m := lapseAll (lcShow m) (fun g => !keyUsable m g.root)
  raiseEv m {
    code := EvCode.lcChanged, source := hubPath m, stamp := gtcNow m, detail := [], tray := true, wide := false,
    named := (m.host.sessions.filter (fun y => y.open_)).map (fun y => y.sid) }

/-- TEST_UNLOCK takes effect (R468, R469). -/
def lcUnlock (m : Mach) : Mach :=
  let m := unlockDrop (setHf (lcShow m) R.LCY_STATE_UNLOCKED 1)
  trayEvent m EvCode.testUnlocked (gtcNow m) (hubPath m) []

/-- A transition has ended: its command completes with the µs that it took. -/
def lcEnd (m : Mach) (x : LcMove) : Mach :=
  let m := setHf (setHf { m with lcy := { m.lcy with move := none } } R.LCY_STATE_IN_TRANSITION 0) R.LCY_TRANS_PHASE 0
  let m := setHf m R.LCY_TRANS_DURATION_US x.us
  let m := if x.target = 8 then lcUnlock m else lcSettle m
  finish m x.cmd St.ok (w1 (lcState m) ++ w1 (tokensUsed m) ++ w1 x.us)

/-- A phase of a transition has ended, and the next begins (R459). -/
def lcPhase (m : Mach) (x : LcMove) : Mach :=
  match x.phase with
  | 1 =>
    let m := blowPkg m (firstFuse m x.target)
    if x.target = 8 then lcEnd m x else lcEnter (lcProgram m x.target x.data) x 2
  | 2 => lcEnter (lcDies m x.target) x (if x.target = 6 then 3 else 4)
  | 3 => lcEnter (packageWipe m) x 4
  | _ => lcEnd (blowPkg m (doneFuse x.target)) x

/-- One clock of a transition: a phase whose time has passed ends. -/
def lcTick (m : Mach) : Mach :=
  match m.lcy.move with
  | some x => if x.due ≤ m.time.ns then lcPhase m x else m
  | none => m

/-! ### A transition that a loss of power cuts short (Table 14.3) -/

/-- A fuse whose programming is cut short: each cell is as it was, BLOWN, or MARGINAL. -/
def cutFuse (cells : Store Nat) (base : Nat) (w : W64) : Store Nat :=
  (List.range 3).foldl (fun s c => match fld w (2 * c) 2 with
    | 0 => s
    | 1 => Store.put 0 s (base + c) 1
    | _ => Store.put 0 s (base + c) 2) cells

/-- The package's copies of a fuse, cut short in the serving instance's copy or, with that one BLOWN, in the other. -/
def cutPkg (m : Mach) (f : Nat) : Mach :=
  let (w, m) := draw m
  let own := (copies m).headD 0
  let hub := m.lcy.hub
  let new := if fld w 0 1 = 0 then cutFuse hub (own * 256 + 3 * f) (w >>> 8)
    else ((copies m).drop 1).foldl (fun s c => cutFuse s (c * 256 + 3 * f) (w >>> 8)) (blow hub (own * 256 + 3 * f))
  { m with lcy := { m.lcy with hub := new } }

/-- A die phase cut short: in I_s, before or after the wipe, in D_s, or after it. -/
def cutDie (m : Mach) (d s : Nat) : Mach :=
  let (w, m) := draw m
  let torn (m : Mach) (f : Nat) : Mach := { m with lcy := { m.lcy with dies := cutFuse m.lcy.dies (d * 64 + 3 * f) (w >>> 8) } }
  match fld w 0 3 with
  | 0 => torn m (intentFuse s)
  | 1 => blowDie m d (intentFuse s)
  | 2 => dieWipe (dieKey (blowDie m d (intentFuse s)) d s) d s
  | 3 => torn (dieWipe (dieKey (blowDie m d (intentFuse s)) d s) d s) (doneFuse s)
  | _ => diePhase m d s

/-- A DBG_RESET in a transition leaves the package torn, with how far its dies had come free (R504; log entry 61). -/
def tornByReset (m : Mach) (x : LcMove) : Mach :=
  let (w, m) := draw m
  if x.target = 8 then (if fld w 0 1 = 1 then blowPkg m (firstFuse m 8) else m)
  else
    let m := if x.phase = 1 then lcProgram (blowPkg m (intentFuse x.target)) x.target x.data else m
    if x.phase != 2 then m
    else ((List.range 100).filter (dieTakes m)).foldl (fun m d =>
      let (w, m) := draw m
      match fld w 0 2 with
      | 0 => m
      | 1 => blowDie m d (intentFuse x.target)
      | 2 => dieWipe (dieKey (blowDie m d (intentFuse x.target)) d x.target) d x.target
      | _ => diePhase m d x.target) m

/-- What a loss of power, or with `dbg` a DBG_RESET, leaves of a transition in progress: the windows W1 to W4 of Table 14.3, how far each
had come being free (log entry 61). -/
def cutShort (m : Mach) (dbg : Bool) : Mach :=
  match m.lcy.move with
  | none => m
  | some x =>
    let m := { m with lcy := { m.lcy with move := none } }
    if dbg then tornByReset m x
    else match x.phase with
    | 1 =>
      let f := firstFuse m x.target
      let m := cutPkg m f
      if pkgFuse m f = 1 then lcProgram m x.target x.data else m
    | 2 => ((List.range 100).filter (dieTakes m)).foldl (fun m d => cutDie m d x.target) m
    | 3 =>
      let (w, m) := draw m
      if fld w 0 1 = 1 then packageWipe m else m
    | _ => cutPkg m (doneFuse x.target)

/-- Begin a transition that has passed its checks (R459, R468). -/
def startTransition (m : Mach) (i : Issuer) (p : Pkt) : Mach :=
  let target := wfld (wAt p.body 0) 0 4
  let (c, m) := newCmd m i 0x0A03 p.cookie p.body noScope
  let m := setHf (setHf (setHf m R.LCY_STATE_IN_TRANSITION 1) R.LCY_TRANS_TARGET target) R.LCY_TRANS_DIES_DONE 0
  lcEnter m { target := target, data := wordsBytes (p.body.drop 1), cmd := c.id, phase := 1, due := 0, us := 0 } 1

/-- LC_TRANSITION. -/
def doLcTransition (m : Mach) (i : Issuer) (p : Pkt) : Mach :=
  let st := lcStatus m i p.body
  if st != 0 then answer m i 0x0A03 p.cookie st [] else startTransition m i p

/-- The meaning of LC_TRANSITION. -/
def execLcTransition (p : Pkt) (s : State) : Host.Outcome State Fault Refusal :=
  hostRow 0x0A03 p s (fun m i => doLcTransition m i p)

/-- The meaning of HOLDUP_DROP: the pin falls, and a transition in progress keeps note of it (R460). -/
def execHoldupDrop (s : State) : Host.Outcome State Fault Refusal :=
  let m := { s.m with pins := { s.m.pins with holdupOk := false } }
  .next { s with m := if hf m R.LCY_STATE_IN_TRANSITION = 1 then setHf m R.LCY_STATE_HOLDUP_DROP 1 else m }

/-! ### AUTH_CHALLENGE (R473, R480) -/

/-- The challenge block (Table 14.8). -/
def challengeBlock (m : Mach) (s : Session) (level : Nat) (parts : PartMap) : List Byte :=
  let port := match s.port with
    | .scan => 1
    | .sideband => 2
    | _ => 0
  leBytes 4 0x4C414843 ++ leBytes 1 1 ++ leBytes 1 level ++ zeros 2 ++ leBytes 4 s.handle.toNat ++ leBytes 4 port ++
    leBytes 8 (hubSerial m) ++ leBytes 8 (gtcNow m) ++ leBytes 32 parts.toNat ++
    (List.range 48).map (Config.nonceByte m.free) ++ zeros 16

/-- A challenge for a Session: the block is kept with its time, a new one in place of an older one (R473). -/
def giveChallenge (m : Mach) (s : Session) (level : Nat) (parts : PartMap) : Mach :=
  let blk := challengeBlock m s level parts
  let m := updSess { m with free := m.free + 1 } s.sid (fun x => { x with challenge := some (gtcNow m, blk) })
  incHf m R.LCY_AUTH_CHALLENGES

/-- AUTH_CHALLENGE. -/
def doAuthChallenge (m : Mach) (i : Issuer) (p : Pkt) : Mach :=
  let b := p.body
  let level := (wAt b 0).toNat
  let parts := partMapAt b 1
  let st := firstStatus [
    (b.length != 9 || level == 0 || decide (4 < level) || parts == 0 || (level == 4 && parts != BitVec.allOnes 256), St.malformed),
    (decide (6 ≤ lcState m) || [1, 2, 3].all (fun r => decide (rootCeiling m r < level)), St.lifecycleDenied)] 0
  match st, sessOf m i.sess with
  | 0, some s => answer (giveChallenge m s level parts) i 0x0A01 p.cookie St.ok (bytesWords (challengeBlock m s level parts))
  | 0, none => answer m i 0x0A01 p.cookie St.notAuthorised []
  | st, _ => answer m i 0x0A01 p.cookie st []

/-- The meaning of AUTH_CHALLENGE. -/
def execAuthChallenge (p : Pkt) (s : State) : Host.Outcome State Fault Refusal :=
  hostRow 0x0A01 p s (fun m i => doAuthChallenge m i p)

/-! ### AUTH_RESPONSE (R474-R477) -/

/-- The credentials of a response: 256 bytes each, from word 25 of the body. -/
def respCreds (b : List W32) (n : Nat) : List (List Byte) :=
  (List.range n).map (fun k => wordsBytes ((b.drop (25 + 64 * k)).take 64))

/-- The leaf's signature and the consent tokens. -/
def respSig (b : List W32) (n : Nat) : List Byte := wordsBytes ((b.drop (25 + 64 * n)).take 24)
def respTokens (b : List W32) (n c : Nat) : List (List Byte) :=
  (List.range c).map (fun k => wordsBytes ((b.drop (49 + 64 * n + 64 * k)).take 64))

/-- A credential has the form of Table 14.9. -/
def credForm (x : List Byte) : Bool :=
  bytesAt x 0 4 == 0x44455243 && bytesAt x 4 1 == 1 && decide (1 ≤ bytesAt x 5 1) && decide (bytesAt x 5 1 ≤ 3) &&
  decide (bytesAt x 7 1 < 4) && (nbit (bytesAt x 7 1) 1 || bytesAt x 8 8 == 0)

/-- A consent token has the form of Table 14.10. -/
def tokenForm (x : List Byte) : Bool :=
  bytesAt x 0 4 == 0x54534E43 && bytesAt x 4 1 == 1 && decide (bytesAt x 6 1 < 2) && bytesAt x 7 1 == 0 && bytesAt x 12 4 == 0

/-- Bytes [a, a + n). -/
def cut (x : List Byte) (a n : Nat) : List Byte := (x.drop a).take n

/-- The signatures of a chain hold: each credential under the key before it, then the challenge under the leaf's. -/
def chainHolds : List Byte → List (List Byte) → List Byte → List Byte → Bool
  | key, [], blk, sig => Ec.verify key blk sig
  | key, x :: r, blk, sig =>
    Ec.verify key (x.take 160) (cut x 160 96) && (r.isEmpty || nbit (bytesAt x 7 1) 0) && chainHolds (cut x 64 96) r blk sig

/-- The time of day lies in a credential's term (R476). -/
def termHolds (m : Mach) (x : List Byte) : Bool :=
  if hf m R.GTC_STATUS_TOD_VALID = 1 then
    decide (bytesAt x 16 8 ≤ todSeconds m) && decide (todSeconds m ≤ bytesAt x 24 8)
  else bytesAt x 16 8 == 0 && bytesAt x 24 8 == 2 ^ 64 - 1

/-- A partition map of 32 bytes. -/
def mapAt (x : List Byte) (a : Nat) : PartMap := BitVec.ofNat 256 (bytesAt x a 32)

/-- The owner digest that the Composer reports for a token's partition is that of its key, and the token carries the nonce. -/
def tokenHolds (m : Mach) (blk x : List Byte) : Bool :=
  cut x 16 48 == cut blk 64 48 && ((ownerOf m (bytesAt x 5 1)).map (fun o => o.digest)) == some (Sha.sha384 (cut x 64 96))

/-- Row 4 of Table 14.11 finds nothing. -/
def respHolds (m : Mach) (blk : List Byte) (b : List W32) (n c : Nat) : Bool :=
  let level := bytesAt blk 5 1
  let parts := mapAt blk 32
  let key := wordsBytes ((b.drop 1).take 24)
  let creds := respCreds b n
  let tokens := respTokens b n c
  let root := bytesAt (creds.headD []) 5 1
  Sha.sha384 key == rootDigest m root && chainHolds key creds blk (respSig b n) &&
  creds.all (fun x => bytesAt x 5 1 == root && (!nbit (bytesAt x 7 1) 1 || bytesAt x 8 8 == hubSerial m) && termHolds m x &&
    decide (level ≤ bytesAt x 6 1) && (parts &&& ~~~(mapAt x 32)) == 0) &&
  decide (level ≤ rootCeiling m root) &&
  tokens.all (fun x => Ec.verify (cut x 64 96) (x.take 64) (cut x 160 96)) &&
  (level != 3 || (partsList parts).all (fun q =>
    let mine := tokens.filter (fun x => bytesAt x 5 1 == q)
    !mine.isEmpty && mine.all (tokenHolds m blk)))

/-- The status of an AUTH_RESPONSE (Table 14.11), 0 when it grants. -/
def respStatus (m : Mach) (held : Option (Nat × List Byte)) (b : List W32) : Nat :=
  let w := wAt b 0
  let n := wfld w 0 2
  let c := wfld w 8 6
  let creds := respCreds b n
  let tokens := respTokens b n c
  let root := bytesAt (creds.headD []) 5 1
  let blk := (held.map (fun h => h.2)).getD []
  firstStatus [
    (w.toNat != n + 256 * c || n == 0 || n == 3 || decide (61 < c) || b.length != 49 + 64 * (n + c) ||
      !creds.all credForm || !tokens.all tokenForm, St.malformed),
    (decide (6 ≤ lcState m) || !keyUsable m root || (bytesAt blk 5 1 == 4 && root != 1), St.lifecycleDenied),
    (match held with
      | some h => decide (h.1 + 60 * 1000000000 < gtcNow m)
      | none => true, St.timeout),
    (!respHolds m blk b n c, St.notAuthorised),
    (tokens.any (fun x => bytesAt x 8 4 != epochOf m (bytesAt x 5 1)), St.bindingMoved)] 0

/-- The grant of R477: levels rise, and PRIV_TRACE permits privileged trace. -/
def respGrant (m : Mach) (sid level : Nat) (parts : PartMap) (creds tokens : List (List Byte)) : Mach :=
  let g : Grant := {
    level := level, root := bytesAt (creds.headD []) 5 1,
    notAfter := creds.foldl (fun a x => min a (bytesAt x 24 8)) (2 ^ 64 - 1),
    whole := creds.all (fun x => mapAt x 32 == BitVec.allOnes 256) }
  let m := (partsList parts).foldl (fun m q => if levelOf m sid q ≤ level then setGrant m sid q g else m) m
  let priv := (tokens.filter (fun x => nbit (bytesAt x 6 1) 0)).map (fun x => bytesAt x 5 1)
  let m := { m with trc := { m.trc with policy := priv.foldl (fun a q => a ||| ((1 : PartMap) <<< q)) m.trc.policy } }
  ((partsList parts ++ priv).dedup).foldl privSync m

/-- AUTH_RESPONSE: whatever the outcome, the challenge is used (R473, R476). -/
def doAuthResponse (m : Mach) (i : Issuer) (p : Pkt) : Mach :=
  let b := p.body
  let held := (sessOf m i.sess).bind (fun s => s.challenge)
  let blk := (held.map (fun h => h.2)).getD []
  let st := respStatus m held b
  let m := updSess m i.sess (fun x => { x with challenge := none })
  if st != 0 then answer (incHf m R.LCY_AUTH_REFUSALS) i 0x0A02 p.cookie st []
  else
    let n := wfld (wAt b 0) 0 2
    let parts := mapAt blk 32
    let m := respGrant m i.sess (bytesAt blk 5 1) parts (respCreds b n) (respTokens b n (wfld (wAt b 0) 8 6))
    answer (incHf m R.LCY_AUTH_GRANTS) i 0x0A02 p.cookie St.ok (leWords 8 parts.toNat ++ w1 (bytesAt blk 5 1))

/-- The meaning of AUTH_RESPONSE. -/
def execAuthResponse (p : Pkt) (s : State) : Host.Outcome State Fault Refusal :=
  hostRow 0x0A02 p s (fun m i => doAuthResponse m i p)

/-! ### LC_READ (R482) -/

/-- The 64 bytes that a die signs. -/
def attestMessage (m : Mach) (d : Nat) (nonce : List Byte) : List Byte :=
  leBytes 8 (hubSerial m) ++ leBytes 1 d ++ leBytes 1 (dieState m d) ++ zeros 6 ++ nonce

/-- LC_READ. -/
def doLcRead (m : Mach) (i : Issuer) (p : Pkt) : Mach :=
  let b := p.body
  let w := (wAt b 0).toNat
  let d := nfld w 0 7
  let attest := nbit w 7
  let st := firstStatus [
    (b.length != 13 || decide (256 ≤ w) || decide (99 < d) || (!attest && d != 0), St.malformed),
    (attest && !keyUsable m 5, St.lifecycleDenied),
    (attest && (dieHidden m d || !dieTakes m d), St.unitDark)] 0
  if st != 0 then answer m i 0x0A04 p.cookie st []
  else
    let base := [BitVec.ofNat 32 ((hget m 0x1000).toNat ||| (b2n m.pins.holdupOk <<< 16))] ++ w2 (hubSerial m)
    if !attest then answer m i 0x0A04 p.cookie St.ok base
    else
      let dg := Sha.sha384 (attestMessage m d (wordsBytes (b.drop 1)))
      let pub := (List.range 96).map (attestByte m d)
      let sig := (List.range 96).map (Config.attestSigByte m.free dg)
      answer { m with free := m.free + 1 } i 0x0A04 p.cookie St.ok (base ++ bytesWords pub ++ bytesWords sig)

/-- The meaning of LC_READ. -/
def execLcRead (p : Pkt) (s : State) : Host.Outcome State Fault Refusal :=
  hostRow 0x0A04 p s (fun m i => doLcRead m i p)

/-! ### The ledger as a whole (R406, R409, R410) -/

/-- The ledger summary as the serving hub reads it. -/
def summary (m : Mach) : List LedgerEntry := if m.peer.onA2 then m.bup.flash2.ledger else m.bup.flash0.ledger

/-- Two entries are one: all but REVOKED and the CRC agree. -/
def sameEntry (a b : LedgerEntry) : Bool :=
  a.unit == b.unit && a.cause == b.cause && a.detail == b.detail && a.seconds == b.seconds

/-- The entries of a die, each with whether the summary alone holds it: those of its ledger partition in order, a bad one taken
from the summary or left out, then those that only the summary holds. A Station that does not answer shows none. -/
def dieLedger (m : Mach) (d : Nat) : List (LedgerEntry × Bool) :=
  let mine := (summary m).filter (fun e => upDie e.unit == d && e.good)
  let own := if stnAnswers m d then (note m d).ledger else []
  let kept := own.filterMap (fun e => if e.good then some (e, false) else (mine.find? (sameEntry e)).map (fun x => (x, false)))
  kept ++ (mine.filter (fun e => !(kept.any (fun k => sameEntry k.1 e)))).map (fun e => (e, true))

/-- Entries of a die that are bad and stand nowhere else (R409). -/
def badEntries (m : Mach) (d : Nat) : List LedgerEntry :=
  if stnAnswers m d then
    (note m d).ledger.filter (fun e => !e.good && !((summary m).any (fun x => x.good && sameEntry e x)))
  else []

/-- The ledger of the package, in die order. -/
def wholeLedger (m : Mach) : List (LedgerEntry × Bool) := (List.range 100).flatMap (dieLedger m)

/-! ### LEDGER_REVOKE (R467) -/

/-- Set REVOKED in the entries of a list that match. -/
def revokeIn (g : LedgerEntry → Bool) (l : List LedgerEntry) : List LedgerEntry :=
  l.map (fun e => if g e then { e with revoked := true } else e)

/-- An entry that a revocation of a unit names: of the cause, or of any with ALL, and not revoked yet. -/
def revokeNames (unit : W32) (all : Bool) (cause : Nat) (e : LedgerEntry) : Bool :=
  e.unit == unit && (all || e.cause == cause) && !e.revoked

/-- The entries of a unit's die that a revocation names. -/
def revokeHits (m : Mach) (unit : W32) (all : Bool) (cause : Nat) : List LedgerEntry :=
  ((dieLedger m (upDie unit)).map Prod.fst).filter (revokeNames unit all cause)

/-- Revoke entries: in the summary at once, and in the die's ledger at once or when its Station answers again; an entry of cause 9 is
never revoked (R408, R490). -/
def revoke (m : Mach) (unit : W32) (all : Bool) (cause : Nat) : Mach :=
  let d := upDie unit
  let hits := revokeHits m unit all cause
  let take (e : LedgerEntry) : Bool := revokeNames unit all cause e && e.cause != 9
  let live := stnAnswers m d
  let m := updFlash m (fun f => { f with ledger := revokeIn take f.ledger })
  if live then
    if (note m d).ledger.any take then countMram (updNote m d (fun x => { x with ledger := revokeIn take x.ledger })) d 2
    else m
  else { m with bup := { m.bup with revokeLater :=
    m.bup.revokeLater ++ (hits.filter (fun e => e.cause != 9)).map (fun e => (d, unit, e.cause)) } }

/-- LEDGER_REVOKE. -/
def doLedgerRevoke (m : Mach) (i : Issuer) (p : Pkt) : Mach :=
  let b := p.body
  let unit := wAt b 0
  let w := (wAt b 1).toNat
  let cause := nfld w 0 8
  let all := nbit w 8
  let d := upDie unit
  let st := firstStatus [
    (b.length != 2 || decide (512 ≤ w) || !pathFields unit || !([1, 3, 5, 6].contains (upLevel unit)) || upPkg unit != 0 ||
      decide (99 < d) || (!all && (cause == 0 || decide (9 < cause))), St.malformed),
    (lcState m != 5, St.lifecycleDenied),
    (!rootAuthority m i 3, St.notAuthorised)] 0
  if st != 0 then answer m i 0x0A05 p.cookie st []
  else
    let hits := revokeHits m unit all cause
    let n := (hits.filter (fun e => e.cause != 9)).length
    answer (revoke m unit all cause) i 0x0A05 p.cookie St.ok (w1 n ++ w1 (hits.length - n) ++ w1 (if stnAnswers m d then 0 else n))

/-- The meaning of LEDGER_REVOKE. -/
def execLedgerRevoke (p : Pkt) (s : State) : Host.Outcome State Fault Refusal :=
  hostRow 0x0A05 p s (fun m i => doLedgerRevoke m i p)

end Sys2Proof.Machine
end

