-- ==== Sys2Proof/Machine/Notebook.lean ====
section
/-! DEFINITION. The records of a Die Notebook as bytes: ledger entries, training records and the three partitions (R400, R406,
R465). -/

namespace Sys2Proof.Machine

/-- Bytes with their CRC-32C behind them; a record whose CRC does not hold shows another one (log entry 54). -/
def withCrc (good : Bool) (b : List Byte) : List Byte :=
  b ++ leBytes 4 (if good then crc32c b else crc32c b ^^^ 0xFFFFFFFF)

/-- A ledger entry (Table 12.6). -/
def ledgerBytes (e : LedgerEntry) : List Byte :=
  withCrc e.good (leBytes 4 e.unit.toNat ++ leBytes 1 e.cause ++ leBytes 1 (b2n e.revoked) ++ leBytes 2 e.detail ++ leBytes 4 e.seconds)

/-- A training record (Table 12.5). -/
def trainBytes (r : TrainRecord) : List Byte :=
  withCrc r.good (leBytes 4 r.unit.toNat ++ leBytes 1 (if r.chan then 2 else 1) ++ leBytes 1 r.ch ++ leBytes 1 r.width ++
    leBytes 1 r.speed ++ leBytes 8 r.seconds ++ leBytes 2 r.temp ++ leBytes 2 r.eyeH ++ leBytes 2 r.eyeV ++ zeros 2 ++
    padTo 32 r.params ++ leBytes 4 r.gen)

/-- Byte a of a Die Notebook: user partition, then the training pairs, then the ledger (R465; log entry 54). -/
def noteByte (x : Notebook) (a : Nat) : Byte :=
  if a < 0x8000 then Store.get 0 x.user a
  else if a < 0xC000 then
    let k := (a - 0x8000) / 128
    match x.training[k]? with
    | some r => ((trainBytes r.1 ++ trainBytes r.2)[(a - 0x8000) % 128]?).getD 0
    | none => 0
  else
    match x.ledger[(a - 0xC000) / 16]? with
    | some e => ((ledgerBytes e)[(a - 0xC000) % 16]?).getD 0
    | none => 0

/-! ### A Die Notebook as an image (R44) -/

/-- The training record that 64 bytes spell. -/
def trainOf (b : List Byte) : TrainRecord :=
  { unit := BitVec.ofNat 32 (bytesAt b 0 4), chan := bytesAt b 4 1 == 2, ch := bytesAt b 5 1, width := bytesAt b 6 1,
    speed := bytesAt b 7 1, seconds := bytesAt b 8 8, temp := bytesAt b 16 2, eyeH := bytesAt b 18 2, eyeV := bytesAt b 20 2,
    params := (b.drop 24).take 32, gen := bytesAt b 56 4, good := crc32c (b.take 60) == bytesAt b 60 4 }

/-- The ledger entry that 16 bytes spell. -/
def ledgerOf (b : List Byte) : LedgerEntry :=
  { unit := BitVec.ofNat 32 (bytesAt b 0 4), cause := bytesAt b 4 1, revoked := bytesAt b 5 1 % 2 == 1, detail := bytesAt b 6 2,
    seconds := bytesAt b 8 4, good := crc32c (b.take 12) == bytesAt b 12 4 }

/-- A list of records, each of n bytes, with bytes written at an offset of their image; records that it passes over are blank. -/
def putRecords {α : Type} (n : Nat) (enc : α → List Byte) (dec : List Byte → α) (l : List α) (a : Nat) (new : List Byte) : List α :=
  let last := (a + new.length + n - 1) / n
  (List.range (Nat.max l.length last)).map (fun k =>
    let old := (l[k]?.map enc).getD (zeros n)
    dec ((List.range n).map (fun j =>
      if a ≤ n * k + j ∧ n * k + j < a + new.length then (new[n * k + j - a]?).getD 0 else (old[j]?).getD 0)))

/-- Replace the Die Notebook of die d. -/
def setNote (m : Mach) (d : Nat) (x : Notebook) : Mach :=
  { m with bup := { m.bup with notes := Store.put { } m.bup.notes d x } }

/-- Bytes written at an offset of a notebook's window, which do not cross its parts. -/
def putNote (x : Notebook) (a : Nat) (new : List Byte) : Notebook :=
  if a < 0x8000 then
    let places := (List.range new.length).filter (fun i => decide (a + i < 0x8000))
    { x with user := places.foldl (fun u i => Store.put 0 u (a + i) ((new[i]?).getD 0)) x.user }
  else if a < 0xC000 then
    let enc (r : TrainRecord × TrainRecord) : List Byte := trainBytes r.1 ++ trainBytes r.2
    let dec (b : List Byte) : TrainRecord × TrainRecord := (trainOf (b.take 64), trainOf (b.drop 64))
    { x with training := putRecords 128 enc dec x.training (a - 0x8000) new }
  else { x with ledger := putRecords 16 ledgerBytes ledgerOf x.ledger (a - 0xC000) new }

end Sys2Proof.Machine
end

