-- ==== Sys2Proof/Machine/RegView.lean ====
section
/-! DEFINITION. What a read of a register returns: the stored value, or for a register that shows something else of the block,
that (R9, R34, R68-R70; log entry 55). -/

namespace Sys2Proof.Machine

/-- A register with fields laid over it: low bit, width and value of each. -/
def overlay (w : W64) (l : List (Nat × Nat × Nat)) : W64 := l.foldl (fun w x => setFld w x.1 x.2.1 x.2.2) w

/-! ### The hub window -/

/-- Some Station shows a condition. -/
def anyStn (g : Nat → Bool) : Bool := (List.range 100).any g

/-- RUN_STATUS: its latest Headcount, the halt flags on the Stations and the orphaned halts. -/
def viewRunStatus (m : Mach) (w : W64) : W64 :=
  let parts := ((List.range 256).filter (fun p => anyStn (fun d => partFlag m d p))).length
  overlay w [(32, 9, parts), (41, 1, b2n (anyStn (fun d => sf m d R.STN_RUN_CTL_PKG_HALT == 1))),
    (42, 1, b2n (anyStn (fun d => sf m d R.STN_RUN_CTL_JOB_HALT == 1))), (48, 8, satN 8 m.run.orphans.length)]

/-- STH_STATUS: slots in use, between arm and completion, and pinning channels. -/
def viewSthStatus (m : Mach) : W64 :=
  let bits (g : Dump → Bool) := bitmapOf ((List.range 8).filter (fun s => ((dump m s).map g).getD false))
  overlay 0 [(0, 8, bits (fun _ => true)), (8, 8, bits dumpBusy), (16, 8, bits (fun x => !x.pins.isEmpty))]

/-- STH_SLOT of the selected slot. -/
def viewSthSlot (m : Mach) : W64 :=
  match dump m (hf m R.STH_SEL_SLOT) with
  | none => 0
  | some x => overlay 0 [(0, 4, x.state), (4, 3, x.kind), (7, 1, b2n x.composer), (8, 8, x.part), (32, 7, x.quires.length)]

/-- STH_STACK of the selected stack. -/
def viewSthStack (m : Mach) : W64 :=
  let st := hf m R.STH_SEL_STACK
  overlay 0 [(0, 18, largest (freeRuns captureFolios (captureUsed m st none))),
    (18, 18, largest (freeRuns pressedUnits (pressedUsed m st))), (36, 13, overflowFolios - (overflowUsed m st).length),
    (49, 1, b2n (stackTrained m st))]

/-- TLY_STATUS: a run reads, runs that wait for their Waypoint, and the parts being read. -/
def viewTlyStatus (m : Mach) : W64 :=
  overlay 0 [(0, 1, b2n (m.tly.any (fun r => r.start.isSome))),
    (8, 8, satN 8 (m.tly.filter (fun r => r.start.isNone)).length),
    (16, 16, sumBy (fun r => (r.parts.filter (fun p => p.active && !p.ended)).length) m.tly)]

/-- KiB of merged records that stand in the Merge Buffer. -/
def mergeKib (m : Mach) : Nat :=
  Nat.min 16384 ((32 * bufferUsed m + 1023) / 1024)

/-- A drain of a slot is in progress: a TRACE_DRAIN waits for its horizon, or merged records wait to be written. -/
def draining (m : Mach) (s : Nat) : Bool :=
  m.cmds.any (fun c => c.op == 0x0604 && c.aux.head? == some s) ||
  (((stream m s).bind (fun x => x.merge)).map (fun g => !g.waiting.isEmpty)).getD false

/-- TRC_STATUS. -/
def viewTrcStatus (m : Mach) : W64 :=
  let bits (g : Nat → Bool) := bitmapOf ((List.range 8).filter g)
  overlay 0 [(0, 8, bits (fun s => (stream m s).isSome)), (8, 8, bits (fun s => (stream m s).elim false (fun x => x.state == 3))),
    (16, 8, bits (draining m)), (24, 15, mergeKib m)]

/-- TRC_SLOT of the selected slot. -/
def viewTrcSlot (m : Mach) : W64 :=
  match stream m (hf m R.TRC_SEL_SLOT) with
  | none => 0
  | some x => overlay 0 [(0, 3, x.state), (3, 2, x.mode), (5, 3, x.scope.kind), (8, 4, x.cls), (12, 1, b2n x.links),
      (16, 8, x.scope.part), (24, 11, x.frames)]

/-- RTN_STATUS. -/
def viewRtnStatus (m : Mach) : W64 :=
  let armed := (List.range 64).filter (fun n => (trigger m n).isSome)
  overlay 0 [(0, 6, (residents m).length), (6, 6, ((residents m).filter (routinePinned m)).length),
    (12, 4, (m.rtn.runs.filter (fun r => r.executing)).length), (16, 7, armed.length), (24, 7, queuedRuns m)]

/-- RTN_TRIG of the selected trigger. -/
def viewRtnTrig (m : Mach) : W64 :=
  match trigger m (hf m R.RTN_TRIG_SEL_TRIGGER) with
  | none => 0
  | some t => overlay 0 [(0, 4, t.source), (4, 2, t.action), (6, 1, b2n t.oneshot), (7, 1, b2n t.outEn),
      (8, 8, if t.source < 4 then t.part else 0), (16, 32, satN 32 t.fires), (48, 16, satN 16 t.dropped)]

/-- The Session in a slot. -/
def slotSess (m : Mach) (k : Nat) : Option Session := m.host.sessions.find? (fun s => s.slot == some k && !s.closed)

/-- SLOT_STAT, SLOT_SQ and SLOT_EQ of slot k. -/
def viewSlot (m : Mach) (k which : Nat) : W64 :=
  match slotSess m k with
  | none => 0
  | some s =>
    if which = 0 then overlay 0 [(0, 32, s.handle.toNat), (32, 2, 1), (34, 1, b2n (sessPinned m s)), (35, 1, b2n s.open_),
      (40, 5, s.held.length)]
    else if which = 1 then overlay 0 [(0, 32, s.sqProd), (32, 32, s.sqCons)]
    else overlay 0 [(0, 32, s.eqProd), (32, 32, s.nextSeq)]

/-- IF_STATUS. -/
def viewIfStatus (m : Mach) (w : W64) : W64 :=
  let res := (List.range 32).filterMap (slotSess m)
  overlay w [(8, 6, res.length), (14, 6, (res.filter (sessPinned m)).length)]

/-- BUP_MODE of the selected class. -/
def viewBupMode (m : Mach) : W64 :=
  let c := hf m R.BUP_MODE_SEL_CLASS
  overlay 0 [(0, 32, Store.get 0 m.bup.modeEpoch c), (32, 1, b2n (Store.get none m.bup.modeStaged c).isSome),
    (33, 1, b2n (m.cmds.any (fun x => x.op == 0x0805 && wfld (wAt x.body 0) 0 2 == c))), (34, 1, b2n (nbit m.bup.split c))]

/-- RCV_STATUS: an escalation of the package stands for every partition. -/
def viewRcvStatus (m : Mach) (w : W64) : W64 :=
  let on := (List.range 257).filter (fun p => (esc m p).isSome)
  overlay w [(0, 9, if on.contains 256 then 256 else on.length),
    (9, 3, on.foldl (fun n p => Nat.max n (((esc m p).map (fun x => x.rung)).getD 0)) 0)]

/-- RCV_ESC of the selected partition; 257 to 511 show zero. -/
def viewRcvEsc (m : Mach) : W64 :=
  let p := hf m R.RCV_ESC_SEL_PART
  if 256 < p then 0
  else
    match esc m p with
    | some x => overlay 0 [(0, 3, x.rung), (3, 3, x.cause), (6, 10, satN 10 x.engines.length), (16, 16, ctxOf m p), (32, 32, x.start)]
    | none => overlay 0 [(16, 16, ctxOf m p)]

/-- LCY_KEYS. -/
def viewLcyKeys (m : Mach) : W64 :=
  overlay 0 [(0, 1, b2n (keyUsable m 1)), (1, 1, b2n (keyUsable m 2)), (2, 1, b2n (keyUsable m 0)), (3, 1, b2n (keyUsable m 5)),
    (4, 1, b2n (keyUsable m 3)), (5, 1, b2n (keyUsable m 4)), (8, 1, b2n (!(rootDigest m 2).isEmpty && !m.lcy.opWiped))]

/-- The earliest end-of-life date of any die, with its die; 0 while no die has an estimate. -/
def earliestEol (m : Mach) : Nat × Nat :=
  (List.range 100).foldl (fun acc d =>
    let p := (dieHealth m d).p50
    if p = 0 then acc else if acc.1 = 0 ∨ p < acc.1 then (p, d) else acc) (0, 0)

/-- CDC_STATUS: the Codec works on one command's block at a time, and the others wait. -/
def viewCdcStatus (m : Mach) : W64 :=
  let n := (codecCmds m).length
  overlay 0 [(0, 1, b2n (decide (0 < n))), (8, 8, satN 8 (n - 1))]

/-- What a 64-bit read of an offset of the hub window returns. -/
def hubView (m : Mach) (off : Nat) : W64 :=
  let w := hget m off
  match hubRowAt off with
  | none => 0
  | some r =>
    match r.base with
    | 0x0100 => m.time.gtc
    | 0x0140 =>
      let k := (off - 0x140) / 8
      let at_ := Store.get 0 m.time.calAt k
      if at_ = 0 then w else overlay w [(16, 16, satN 16 ((gtcNow m + 1 - at_) / 1000000))]
    | 0x0220 => overlay w [(8, 25, bitmapOf ((List.range 25).filter (fun p => stnAnswers m (dieAt ((off - 0x220) / 0x20) p))))]
    | 0x0810 => viewRunStatus m w
    | 0x0820 => overlay 0 [(0, 5, (hubCfg m (hf m R.RUN_FRZ_SEL_PART)).freeze)]
    | 0x0900 => viewSthStatus m
    | 0x0910 => viewSthSlot m
    | 0x0918 => BitVec.ofNat 64 (((dump m (hf m R.STH_SEL_SLOT)).map (fun x => x.t)).getD 0)
    | 0x0920 => viewSthStack m
    | 0x0A08 => viewCdcStatus m
    | 0x0B00 => viewTlyStatus m
    | 0x0C00 => viewTrcStatus m
    | 0x0C10 => viewTrcSlot m
    | 0x0C18 => BitVec.ofNat 64 (((stream m (hf m R.TRC_SEL_SLOT)).map (fun x => x.horizon)).getD 0)
    | 0x0D00 => viewRtnStatus m
    | 0x0D08 => BitVec.ofNat 64 (bitmapOf ((List.range 64).filter (fun n => (trigger m n).isSome)))
    | 0x0D10 => BitVec.ofNat 64 (bitmapOf ((List.range 64).filter (fun n => ((trigger m n).bind (fun t => t.pending)).isSome)))
    | 0x0D28 => viewRtnTrig m
    | 0x0400 => viewSlot m ((off - 0x400) / 0x20) 0
    | 0x0408 => viewSlot m ((off - 0x408) / 0x20) 1
    | 0x0410 => viewSlot m ((off - 0x410) / 0x20) 2
    | 0x0478 => viewIfStatus m w
    | 0x0E38 => viewBupMode m
    | 0x0F00 => viewRcvStatus m w
    | 0x0F28 => viewRcvEsc m
    | 0x1000 => overlay w [(16, 1, b2n m.pins.holdupOk)]
    | 0x1008 => viewLcyKeys m
    | 0x1128 => BitVec.ofNat 64 (earliestEol m).1
    | _ => BitVec.ofNat 64 (w.toNat - (w.toNat &&& r.wo))

/-! ### Stations and Taps -/

/-- STN_WDT_ENTRY of the selected entry. -/
def viewWdt (m : Mach) (d : Nat) : W64 :=
  let x := wdt m d (sf m d R.STN_WDT_SEL_ENTRY)
  let st := if x.period = 0 then 0 else if x.expired then 4 else if x.since.isSome then 1 else if x.paused then 3 else 2
  overlay 0 [(0, 32, wdtLeft m d x), (32, 3, st)]

/-- The escalation in progress on a die: the package's, else that of the lowest partition that has a core there. -/
def escOn (m : Mach) (d : Nat) : Option (Nat × Esc) :=
  ([256] ++ List.range 256).findSome? (fun p =>
    match esc m p with
    | some x => if p = 256 || dieHolds m d p then some (p, x) else none
    | none => none)

/-- STN_RST_STAT. -/
def viewRst (m : Mach) (d : Nat) : W64 :=
  let owed := ((List.range 128).filter (fun p => (core_ m d p).resetPending != 0)).length
  match escOn m d with
  | none => overlay 0 [(21, 8, owed)]
  | some (p, x) =>
    let busy := ((escEngines m p).filter (fun y => y.1 == d && !engIdle m y.1 y.2.1 y.2.2)).length
    overlay 0 [(0, 3, x.rung), (3, 8, p % 256), (11, 10, busy), (21, 8, owed)]

/-- STN_CAP_STAT with the Folios written for the current Quire. -/
def viewCap (m : Mach) (d : Nat) (w : W64) : W64 :=
  overlay w [(32, 32, ((quireAt m (sf m d R.STN_CAP_STAT_SLOT) d).map (fun q => q.folios)).getD 0)]

/-- STN_TLY_STAT: the part in progress, or an arm of a TALLY or COMPARE in a Waypoint slot. A part is read in one step, so
KIB_DONE stays 0. -/
def viewTly (m : Mach) (d : Nat) : W64 :=
  match m.tly.find? (fun r => r.parts.any (fun p => p.die == d && p.active && !p.ended)) with
  | some r => overlay 0 [(0, 2, 2), (8, 4, r.format)]
  | none => overlay 0 [(0, 2, b2n ((stn m d).wpts.any (fun a => !a.stitch && a.action == 6)))]

/-- Cores of a die that miss a chunk, and those that hold the whole image. -/
def coresShort (m : Mach) (d : Nat) : List Nat := (List.range 128).filter (fun p => (core_ m d p).missing != 0)
def coresBooted (m : Mach) (d : Nat) : List Nat := (List.range 128).filter (fun p => (core_ m d p).booted)

/-- STN_BUP_STAT. -/
def viewBupStat (m : Mach) (d : Nat) (w : W64) : W64 :=
  overlay w [(14, 8, (coresShort m d).length), (22, 8, (coresBooted m d).length)]

/-- STN_MODE of class k. -/
def viewMode (m : Mach) (d k : Nat) : W64 :=
  let x := Store.get { } (stn m d).modes k
  overlay 0 [(0, 32, x.epoch), (32, 32, (x.staged.map Prod.snd).getD 0)]

/-- STN_LCY. -/
def viewLcy (m : Mach) (d : Nat) (w : W64) : W64 :=
  let masked := sumBy (fun f => maskedCells m.lcy.dies (d * 64 + 3 * f)) (List.range 12)
  overlay w [(0, 3, dieState m d), (3, 1, b2n (counterTorn (dieFuse m d)).isSome), (5, 1, b2n (keySet m d)), (8, 8, satN 8 masked)]

/-- A word of a State Directory entry (Table 4.8). -/
def dirWord (e : DirEntry) (w : Nat) : W64 :=
  if w = 0 then overlay 0 [(0, 16, e.region), (16, 4, e.cls), (20, 1, b2n e.secure), (21, 1, b2n e.rs), (22, 1, b2n e.volatile),
    (23, 1, 1), (24, 2, e.engine), (26, 1, b2n e.engValid), (32, 32, e.size)]
  else overlay 0 [(0, 4, e.grain)]

/-- A 64-bit word of a Tap window (R69, R127). -/
def tapView (m : Mach) (d p off : Nat) : W64 :=
  if 0x1000 ≤ off ∧ off < 0x1400 then
    match (core_ m d p).dir[(off - 0x1000) / 16]? with
    | some e => dirWord e ((off - 0x1000) / 8 % 2)
    | none => 0
  else
    match tapRows.find? (fun r => rowHolds r off) with
    | none => 0
    | some r =>
      let w := sget m d (tapBase p + off)
      BitVec.ofNat 64 (w.toNat - (w.toNat &&& r.wo))

/-- Eight bytes of a trace frame at an offset of the trace buffer window (R269). -/
def traceWord (m : Mach) (d off : Nat) : W64 :=
  match trFrame m d (off / 4096) with
  | some x => BitVec.ofNat 64 (bytesAt x.data (off % 4096) 8)
  | none => 0

/-- What a read of 8 bytes at a Station address returns (R68-R70). -/
def stnView (m : Mach) (d a : Nat) : W64 :=
  if 0x400000 ≤ a ∧ a < 0x800000 then traceWord m d (a - 0x400000)
  else if 0x800000 ≤ a ∧ a < 0x810000 then
    BitVec.ofNat 64 (leNat ((List.range 8).map (fun i => noteByte (note m d) (a - 0x800000 + i))))
  else if 0x100000 ≤ a ∧ a < 0x200000 then
    if d < 64 then tapView m d ((a - 0x100000) / 0x2000) ((a - 0x100000) % 0x2000) else 0
  else
    match stnRowAt d a with
    | none => 0
    | some r =>
      let w := sget m d a
      match r.base with
      | 0x1000 => (stn m d).replica
      | 0x3008 => viewWdt m d
      | 0x3100 => viewRst m d
      | 0x4000 => viewCap m d w
      | 0x6000 => viewTly m d
      | 0x8500 => viewBupStat m d w
      | 0x8520 => BitVec.ofNat 64 ((bitmapOf (coresShort m d) >>> (64 * ((a - 0x8520) / 8))) % 2 ^ 64)
      | 0x8540 => BitVec.ofNat 64 (((core_ m d (sf m d R.STN_BUP_SEL_CORE)).missing >>> (64 * ((a - 0x8540) / 8))) % 2 ^ 64)
      | 0x8680 => viewMode m d ((a - 0x8680) / 8)
      | 0x9000 => viewLcy m d w
      | 0x9100 => BitVec.ofNat 64 (leNat ((List.range 8).map (fun i => attestByte m d (a - 0x9100 + i))))
      | _ => w

/-- Reading clears the fields with access RC of the bits of `mask` (R9, R35). -/
def clearRead (w reset : W64) (rc mask : Nat) : W64 :=
  let c := rc &&& mask
  BitVec.ofNat 64 ((w.toNat - (w.toNat &&& c)) ||| (reset.toNat &&& c))

/-- The side effect of reading a hub register. -/
def hubRead (m : Mach) (off mask : Nat) : Mach :=
  match hubRowAt off with
  | some r => if r.rc = 0 then m else hput m off (clearRead (hget m off) (hubReset off) r.rc mask)
  | none => m

/-- The side effect of reading a Station or Tap register. -/
def stnRead (m : Mach) (d a : Nat) : Mach :=
  match stnRowAt d a with
  | some r => if r.rc = 0 then m else sput m d a (clearRead (sget m d a) (stnReset (stnKey d a)) r.rc (2 ^ 64 - 1))
  | none => m

end Sys2Proof.Machine
end

