-- ==== Sys2Proof/Machine/StationIo.lean ====
section
/-! DEFINITION. How a Station answers requests, takes broadcast writes and boot chunks, and combines its values into gathers
(R32, R49-R58, R395-R397). -/

namespace Sys2Proof.Machine

/-! ### Fences and units (R32, R50) -/

/-- The bindable unit whose register an address is, as die and instance of its shadow: a core, or an internal endpoint (R29). -/
def unitAt (d a : Nat) : Option (Nat × Nat) :=
  if 0x100000 ≤ a ∧ a < 0x200000 then (if d < 64 then some (d, bindCore ((a - 0x100000) / 0x2000)) else none)
  else if 0x200000 ≤ a ∧ a < 0x400000 then
    (if (farEnd d ((a - 0x200000) / 0x100)).isSome then some (d, bindPort ((a - 0x200000) / 0x100)) else none)
  else none

/-- The bindable units that an access touches: those of each of its registers, or the one that its target names. -/
def unitsOf (m : Mach) (d : Nat) (t : Target) (a n : Nat) : List (Nat × Nat) :=
  match t with
  | .reg => ((List.range (n / 8)).filterMap (fun i => unitAt d (a + 8 * i))).dedup
  | .state p _ _ _ => [(d, bindCore p)]
  | .hbm x => ((chanAt m x).map (fun c => (c.die, bindChan c.chan))).toList
  | .config _ _ _ _ => []

/-- The shadow of a unit has BOUND set and names this partition and epoch. -/
def fencePasses (m : Mach) (d inst part epoch : Nat) : Bool :=
  !(stn m d).badShadow.contains inst && sf m d R.STN_BIND_BOUND inst == 1 && sf m d R.STN_BIND_PART inst == part &&
    sf m d R.STN_BIND_EPOCH inst == epoch

/-- The fence of a frame for an access of n bytes: every unit that it touches passes (R32, R50). -/
def fenceOk (m : Mach) (d : Nat) (f : Frame) (t : Target) (a n : Nat) : Bool :=
  !f.fenced || (unitsOf m d t a n).all (fun u => fencePasses m u.1 u.2 f.part (fld f.word1 32 32))

/-- The core whose Tap an access needs. -/
def tapNeeded (d : Nat) (t : Target) (a : Nat) : Option Nat :=
  match t with
  | .reg => if d < 64 ∧ 0x100000 ≤ a ∧ a < 0x200000 then some ((a - 0x100000) / 0x2000) else none
  | .state p _ _ _ => some p
  | _ => none

/-- The Tap gives no access: its core is hidden or powered down, or the Tap has faulted (Table 2.4, R488). -/
def tapOff (m : Mach) (d p : Nat) : Bool := coreHidden m d p || !(core_ m d p).powered || coreDark m d p

/-- A read names an RS region; no register of a Station or Tap has the code RS. -/
def readChanges (m : Mach) (d : Nat) (t : Target) : Bool :=
  match t with
  | .state p r _ _ => ((regionOf m d p r).map (fun e => e.rs)).getD false
  | _ => false

/-- ADDR and LEN keep R49. -/
def accessOk (a n : Nat) : Bool :=
  a % 8 == 0 && n % 8 == 0 && decide (8 ≤ n) && decide (n ≤ 256) && decide (a % 4096 + n ≤ 4096)

/-- A Tap whose core is powered down still takes what the hub writes into its breakpoints (R522). -/
def breakAccess (write : Bool) (a n : Nat) : Bool :=
  write && decide (0x100000 ≤ a) && decide (0x400 ≤ a % 0x2000) && decide (a % 0x2000 + n ≤ 0x4E0)

/-- The Tap that an access needs gives it none. -/
def accessOff (m : Mach) (d : Nat) (t : Target) (a n : Nat) (write : Bool) : Bool :=
  match tapNeeded d t a with
  | some p => if t == .reg && breakAccess write a n then coreHidden m d p || coreDark m d p else tapOff m d p
  | none => false

/-- The status with which a Station answers before it touches anything (R49, R50, Table 2.4). Where several apply the first of
BAD_ACCESS, FENCE, TAP_OFF and SIDE_EFFECT is the answer (log entry 83, DESIGN CHOICE). -/
def requestStatus (m : Mach) (d : Nat) (f : Frame) (t : Target) (write : Bool) : Nat :=
  let a := fld f.word1 0 24
  if !accessOk a f.len then 2
  else if !fenceOk m d f t a f.len then 1
  else if accessOff m d t a f.len write then 4
  else if !write && !f.force && readChanges m d t then 3
  else 0

/-! ### Reads and writes -/

/-- The bytes of a register range; a read clears what has the code RC (R9, R517; log entry 76). -/
def readRegs (d a : Nat) : Nat → Mach → List Byte × Mach
  | 0, m => ([], m)
  | n + 1, m =>
    let w := stnView m d a
    let (r, m) := readRegs d (a + 8) n (stnRead m d a)
    (leBytes 8 w.toNat ++ r, m)

/-- What a read returns; bytes of a region come in the places that their offset gives them in the frame's 8-byte units (R49). -/
def stationRead (m : Mach) (d : Nat) (f : Frame) (t : Target) : List Byte × Mach :=
  match t with
  | .reg => readRegs d (fld f.word1 0 24) (f.len / 8) m
  | .state p r off n => (padTo f.len (zeros (off % 8) ++ coreRead m d p r off n), m)
  | .hbm x => (hbmRead m x f.len, m)
  | .config _ _ _ _ => (zeros f.len, m)

/-- The CRC-32C of the chunk table that a Station holds for n chunks (R395). -/
def tableCrc (m : Mach) (d n : Nat) : Nat :=
  crc32c ((List.range n).flatMap (fun k => leBytes 4 (fld (sget m d (0x8800 + k / 2 * 8)) (32 * (k % 2)) 32)))

/-- A write of STN_BUP_TAB: the Station checks its table and begins to receive chunks (R395). -/
def writeTable (m : Mach) (d : Nat) : Mach :=
  let ok := tableCrc m d (sf m d R.STN_BUP_TAB_CHUNKS) == sf m d R.STN_BUP_TAB_TCRC
  let m := setSf (setSf m d R.STN_BUP_STAT_TABLE_OK (b2n ok)) d R.STN_BUP_STAT_BOOT 2
  setSf (updStn m d (fun x => { x with bulk := [], chunks := 0 })) d R.STN_BUP_STAT_CHUNKS_OK 0

/-- A write has a one in a reserved bit of the State Directory entry's word (Table 4.8). -/
def dirReserved (off v : Nat) : Bool := if off % 16 = 0 then decide (nfld v 27 5 ≠ 0) else decide (nfld v 4 60 ≠ 0)

/-- A write of 8 bytes at a Station address: what the register does beside storing, and whether a reserved bit was written. -/
def stnWrite (m : Mach) (d a v : Nat) : Mach × Bool :=
  let w := BitVec.ofNat 64 v
  if 0x400000 ≤ a ∧ a < 0x810000 then (m, false)
  else if 0x100000 ≤ a ∧ a < 0x200000 ∧ d < 64 then
    let p := (a - 0x100000) / 0x2000
    let off := (a - 0x100000) % 0x2000
    if 0x1000 ≤ off ∧ off < 0x1400 then (m, dirReserved off v)
    else if off = 0x1400 then (writeFreeze m d p (v % 32), decide (nfld v 5 3 ≠ 0 ∨ nfld v 13 51 ≠ 0))
    else if off = 0x0C50 then (writeMark m d p w, false)
    else
      let (m, bad) := stnStore m d a v
      let m := if (off = 0x0808 ∨ off = 0x0848) ∧ v % 2 = 1 then clearLatch m d p ((off - 0x0808) / 0x40) else m
      let m := if 0x0400 ≤ off ∧ off < 0x0480 then
          updCore m d p (fun c => { c with brkSkip := Store.put 0 c.brkSkip ((off - 0x0400) / 0x10) 0 })
        else if 0x0480 ≤ off ∧ off < 0x04E0 then
          updCore m d p (fun c => { c with brkSkip := Store.put 0 c.brkSkip (8 + (off - 0x0480) / 0x18) 0 })
        else m
      (m, bad)
  else
    let (m, bad) := stnStore m d a v
    (if a = 0x8510 then writeTable m d else m, bad)

/-- Write registers from an address on. -/
def writeRegs (d : Nat) : Nat → Nat → List Byte → Mach → Mach × Bool
  | 0, _, _, m => (m, false)
  | n + 1, a, b, m =>
    let (m, bad) := stnWrite m d a (leNat (b.take 8))
    let (m, more) := writeRegs d n (a + 8) (b.drop 8) m
    (m, bad || more)

/-- Apply the configuration of a partition (R523). -/
def applyConfig (m : Mach) (d kind part a b : Nat) : Mach :=
  match kind with
  | 1 => applyFreeze m d part a b
  | 2 => applySentinel m d part a (b % 2 ^ 32) (nbit b 32)
  | _ => applyWatchdog m d part [a % 2 ^ 32, a / 2 ^ 32, b % 2 ^ 32, b / 2 ^ 32]

/-- What a write does; the second value tells whether a reserved bit was written. -/
def stationWrite (m : Mach) (d : Nat) (f : Frame) (t : Target) : Mach × Bool :=
  match t with
  | .reg => writeRegs d (f.len / 8) (fld f.word1 0 24) f.payload m
  | .state p r off n => (coreWrite m d p r off ((f.payload.drop (off % 8)).take n), false)
  | .hbm x => (hbmWrite m x (f.payload.take f.len), false)
  | .config kind part a b => (applyConfig m d kind part a b, false)

/-! ### Requests (R49-R53) -/

/-- What a request reaches: what the hub's own list says of it, else its address (log entry 24). -/
def targetOf (m : Mach) (d : Nat) (f : Frame) : Target :=
  ((m.spine.reqs.find? (fun r => r.tag == f.tag && r.req.die == d)).map (fun r => r.req.target)).getD .reg

/-- The response frame (Table 2.3): it takes the direction opposite to the request's. -/
def responseFrame (d : Nat) (f : Frame) (ty status : Nat) (data : List Byte) : Frame :=
  { ftype := ty, dir := 1 - f.dir, routine := f.routine, dest := f.src, src := d, part := f.part, len := data.length,
    tag := f.tag, word1 := BitVec.ofNat 64 (fld f.word1 0 24 + status * 2 ^ 24 + fld f.word1 32 32 * 2 ^ 32), payload := data }

/-- Keep an executed request's response among the last 16 (R53). -/
def keepResponse (m : Mach) (d : Nat) (f r : Frame) : Mach :=
  updStn m d (fun s =>
    let l := s.dups ++ [{ src := f.src, tag := f.tag, rsp := r }]
    { s with dups := l.drop (l.length - 16) })

/-- Send a response to a request that was executed, and keep it (R53). -/
def respond (m : Mach) (d : Nat) (f r : Frame) : Mach := stnSend (keepResponse m d f r) d true r .good

/-- A lost die's Station answers only STN_ID and STN_LCY (R463). -/
def lostSilent (m : Mach) (d : Nat) (f : Frame) : Bool :=
  sf m d R.STN_LCY_LOST == 1 && fld f.word1 0 24 != 0 && fld f.word1 0 24 != 0x9000

/-- A Station takes a request: a repeat is answered from the store; any other is checked, and answered with its refusal, or made, kept
and answered. -/
def takeRequest (m : Mach) (d : Nat) (f : Frame) (write : Bool) : Mach :=
  if lostSilent m d f then m
  else
    match (stn m d).dups.find? (fun x => x.src == f.src && x.tag == f.tag) with
    | some x => stnSend (incSf m d R.STN_SPN_ERR_DUP_TAG) d true x.rsp .good
    | none =>
      let t := targetOf m d f
      let st := requestStatus m d f t write
      if st != 0 then stnSend m d true (responseFrame d f (if write then 4 else 3) st []) .good
      else if write then
        let (m, bad) := stationWrite m d f t
        respond m d f (responseFrame d f 4 (if bad then 5 else 0) [])
      else
        let (b, m) := stationRead m d f t
        respond m d f (responseFrame d f 3 0 b)

/-- The meaning of RD_REQ. -/
def execRdReq (die : Nat) (f : Frame) (fin : FrameEnd) (s : State) : Host.Outcome State Fault Refusal :=
  rxRow die f fin 1 s fun m => takeRequest m die f false

/-- The meaning of WR_REQ. -/
def execWrReq (die : Nat) (f : Frame) (fin : FrameEnd) (s : State) : Host.Outcome State Fault Refusal :=
  rxRow die f fin 2 s fun m => takeRequest m die f true

/-! ### Broadcast writes (R54, R55) -/

/-- The words of a broadcast, those of units that fail the fence or have no Tap left out; the second value tells whether a reserved bit
was written. -/
def castWords (d : Nat) (f : Frame) : Nat → Nat → List Byte → Mach → Mach × Bool
  | 0, _, _, m => (m, false)
  | n + 1, a, b, m =>
    let (m, bad) := if accessOff m d .reg a 8 true || !fenceOk m d f .reg a 8 then (m, false) else stnWrite m d a (leNat (b.take 8))
    let (m, more) := castWords d f n (a + 8) (b.drop 8) m
    (m, bad || more)

/-- The meaning of BCAST_WR: Stations whose kind the mask holds write the payload; ones in reserved bits set RSVD_WRITE (R10; log
entry 84). -/
def execBcastWr (die : Nat) (f : Frame) (fin : FrameEnd) (s : State) : Host.Outcome State Fault Refusal :=
  rxRow die f fin 5 s fun m =>
    let a := fld f.word1 0 24
    if nbit (fld f.word1 24 3) (dieKind die) && a % 8 == 0 && !lostSilent m die f then
      let (m, bad) := castWords die f (f.payload.length / 8) a f.payload m
      if bad then setRsvd m else m
    else m

/-! ### Boot chunks (R394-R396) -/

/-- A core that takes the boot image: not hidden, and still in reset. -/
def bootingCores (m : Mach) (d : Nat) : List Nat :=
  (List.range 128).filter (fun p => !coreHidden m d p && !(core_ m d p).released)

/-- Write a chunk into a core's LOCAL_MEM; the core misses it no more. -/
def chunkInto (m : Mach) (d p n : Nat) (b : List Byte) : Mach :=
  let m := updCore m d p (fun c => { c with missing := clrBit c.missing n, booted := clrBit c.missing n == 0 })
  match localRegion m d p with
  | some r => coreWrite m d p r (4096 * n) b
  | none => m

/-- A whole chunk: compared with the table, and written into each booting core (R396), or into the one that a unicast names. -/
def takeChunk (m : Mach) (d n : Nat) (b : List Byte) (one : Option Nat) : Mach :=
  if crc32c b != fld (sget m d (0x8800 + n / 2 * 8)) (32 * (n % 2)) 32 then m
  else
    let m := updStn m d (fun x => { x with chunks := setBit x.chunks n })
    let m := setSf m d R.STN_BUP_STAT_CHUNKS_OK (bitsOf (stn m d).chunks 512).length
    let cores := match one with
      | some p => [p]
      | none => bootingCores m d
    cores.foldl (fun m p => chunkInto m d p n b) m

/-- Frame SEQ of the boot stream: a Station assembles frame j of chunk n from SEQ 16n + j (R396); `one` names the core that a unicast
serves (R399). -/
def takeBoot (m : Mach) (die : Nat) (f : Frame) (one : Option Nat) : Mach :=
  let seq := fld f.word1 32 32
  let n := seq / 16
  if 64 ≤ die ∨ 512 ≤ n ∨ f.payload.length ≠ 256 then m
  else
    let m := updStn m die (fun x => { x with bulk := Store.put [] x.bulk seq f.payload })
    let parts := (List.range 16).map (fun j => Store.get [] (stn m die).bulk (16 * n + j))
    if parts.any (fun b => b.isEmpty) then m
    else
      let m := updStn m die (fun x => { x with
        bulk := (List.range 16).foldl (fun l j => Store.put [] l (16 * n + j) []) x.bulk })
      takeChunk m die n parts.flatten one

/-- The meaning of BULK: a broadcast, or a unicast to a Tap window, carries the boot image (R396, R399); frames for the Die Notebook window
write its image, each at its ADDR (R44; log entry 85). -/
def execBulkFrame (die : Nat) (f : Frame) (fin : FrameEnd) (s : State) : Host.Outcome State Fault Refusal :=
  rxRow die f fin 11 s fun m =>
    let a := fld f.word1 0 24
    if 0x800000 ≤ a ∧ a < 0x810000 then setNote m die (putNote (note m die) (a - 0x800000) f.payload)
    else takeBoot m die f (if 0x100000 ≤ a ∧ a < 0x200000 then some ((a - 0x100000) / 0x2000) else none)

/-! ### Gathers (R56-R58) -/

/-- The scope that a gather counts over: that of the command which sent it (log entry 24). -/
def gatherScope (m : Mach) (d : Nat) (f : Frame) : Scope :=
  match m.spine.gathers.find? (fun g => g.tag == f.tag && g.ring == ringOf d) with
  | some g => ((findCmd m g.cmd).map (fun c => c.scope)).getD packageScope
  | none => packageScope

/-- Bytes of counters of 32 bits. -/
def counterBytes (l : List Nat) : List Byte := l.flatMap (fun n => leBytes 4 (satN 32 n))

/-- The Roll Call record of a die (Table 12.4). -/
def rollRecord (m : Mach) (d : Nat) : List Byte :=
  let boot := sf m d R.STN_BUP_STAT_BOOT
  let ports := bitmapOf ((List.range (portsOf d)).filter (fun p => sf m d R.STN_BUP_PORT_UP p == 1))
  let chans := ((List.range 16).filter (fun c => dieKind d == 1 && sf m d R.STN_BUP_CHAN_UP c == 1)).length
  let step := hf m R.BUP_STATUS_STEP
  let up := if d < 64 then ((coresBooted m d).filter (fun p => !coreHidden m d p)).length else 0
  let hid := if d < 64 then ((List.range 128).filter (fun p => coreHidden m d p)).length else 0
  leBytes 1 d ++ leBytes 1 (dieKind d + 4 * b2n (boot == 4) + 8 * b2n (decide (9 ≤ step)) + 16 * b2n (decide (10 ≤ step))) ++
    leBytes 1 up ++ leBytes 1 hid ++ leBytes 2 ports ++ leBytes 1 chans ++ leBytes 1 (satN 8 (Store.get 0 m.bup.newDefects d))

/-- The bitmap of BOOT_MISSING (R397). -/
def bootMissing (m : Mach) (d : Nat) : List Byte :=
  let miss := if d < 64 then (List.range 128).foldl (fun acc p => acc ||| (core_ m d p).missing) 0 else 0
  leBytes 64 miss ++ leBytes 4 (b2n (decide (d < 64) && sf m d R.STN_BUP_STAT_TABLE_OK == 0))

/-- What die d adds to a gather: nothing for a query that it has no value for. -/
def localValue (m : Mach) (d : Nat) (f : Frame) : List Byte :=
  let q := fld f.word1 40 8
  let s := gatherScope m d f
  match fld f.word1 32 4, q with
  | 0, 0x01 => counterBytes (stateCounts m ((scopeEngines m d s.kind s.unit s.parts).map (fun x => (d, x.1, x.2))))
  | 0, 0x10 =>
    match if s.kind < 4 ∧ d ≠ upDie s.unit then none else stitchHolding m s with
    | some k => counterBytes (stitchCounters m d k)
    | none => []
  | 0, 0x32 => counterBytes (modeCounters m d 0)
  | 0, 0x33 => counterBytes (modeCounters m d 1)
  | 0, 0x34 => counterBytes (modeCounters m d 2)
  | 0, 0x35 => counterBytes (modeCounters m d 3)
  | 1, 0x20 => if sf m d R.STN_SNT_SUM_COUNT = 0 then [] else leBytes 16 (setBit 0 d)
  | 1, 0x31 => bootMissing m d
  | 3, 0x30 => rollRecord m d
  | _, _ => []

/-- Combine by the rule of Table 2.6: the payload, a value of n-byte parts, and what joins two parts. -/
def zipParts (w : Nat) (g : Nat → Nat → Nat) : Nat → List Byte → List Byte → List Byte
  | 0, p, _ => p
  | n + 1, p, v => leBytes w (g (bytesAt p 0 w) (bytesAt v 0 w)) ++ zipParts w g n (p.drop w) (v.drop w)

/-- The payload of a gather with one more value. -/
def gatherJoin (gkind len pos : Nat) (p v : List Byte) : List Byte :=
  if v.isEmpty then p
  else
    match gkind with
    | 0 => zipParts 4 (fun a b => satN 32 (a + b)) (len / 4) p v
    | 1 => zipParts 1 (fun a b => a ||| b) len p v
    | 2 => zipParts 8 Nat.min (len / 8) p v
    | _ => patch p (8 * pos) v

/-- A Station sets its position bit in VISITED (R56, R58). -/
def setVisited (f : Frame) (p : Nat) : Frame := { f with word1 := setFld f.word1 p 1 1 }

/-- A Station's part in a gather: its VISITED bit and its value; a copy that a break has turned back passes without change (R56, R57,
R61). -/
def takeGatherHere (m : Mach) (die : Nat) (f : Frame) : Mach :=
  let gk := fld f.word1 32 4
  if gatherBad gk f.len then badType m die
  else if f.wrapped then stnSend m die false f .good
  else
    let payload := gatherJoin gk f.len (posOf die) (padTo f.len f.payload) (localValue m die f)
    stnSend m die false { setVisited f (posOf die) with payload := payload } .good

/-- The meaning of GATHER, and of a HEARTBEAT on its way: a gather with no payload (R56-R58, R61). Turned back at a break it keeps DIR
(log entry 80, DESIGN CHOICE). -/
def execGather (die : Nat) (f : Frame) (fin : FrameEnd) (s : State) : Host.Outcome State Fault Refusal :=
  if f.ftype = 10 then
    rxRow die f fin 10 s fun m => stnSend m die false (if f.wrapped then f else setVisited f (posOf die)) .good
  else rxRow die f fin 6 s fun m => takeGatherHere m die f

end Sys2Proof.Machine
end

