-- ==== Sys2Proof/Machine/BringUp.lean ====
section
/-! DEFINITION. The start sequence: firmware, life-cycle check, licence, Spine training, hidden units, boot, training, start
test and the release of the pool (R13, R384-R406, R461-R463, R502-R504; log entries 58, 60, 62). -/

namespace Sys2Proof.Machine

/-! ### What a reset clears (R504, Table 16.5) -/

/-- The machine after a power-on reset, or with `dbg` a DBG_RESET: registers at their reset values, everything volatile cleared;
OTP, Die Notebooks with their write counts, anchor flashes and HUB_SERIAL are kept, and core memory is undefined. A life-cycle transition in
progress is cut short. -/
def resetMach (m : Mach) (dbg : Bool) : Mach :=
  let m := cutShort m dbg
  let kept : Mach := {
    sregs := m.sregs.filter (fun e => decide (0xA100 ≤ e.1 % 2 ^ 24) && decide (e.1 % 2 ^ 24 < 0xA118)),
    hostMem := m.hostMem, hbm := m.hbm, nextId := m.nextId, out := m.out, free := m.free + 1,
    host := { draws := m.host.draws + 1 }, lcy := m.lcy,
    pins := { holdupOk := !dbg || m.pins.holdupOk, trigIn := m.pins.trigIn },
    bup := { flash0 := m.bup.flash0, flash2 := m.bup.flash2, notes := m.bup.notes, revokeLater := m.bup.revokeLater,
             memEpoch := m.free + 1 } }
  setHf (hput kept 0x28 (hget m 0x28)) R.HUB_STATUS_DBG_RESET_SEEN (b2n dbg)

/-! ### Firmware and flashes (R13, R387, R388) -/

/-- Region r of an instance's flash fails its CRC. -/
def regionBad (e : StartEnv) (a2 : Bool) (r : Nat) : Bool := nbit e.badRegions (if a2 then 8 + r else r)

/-- The copy that an instance boots: the one that its directory prefers, or copy A when the directory fails its CRC; else the
other. True is copy B. -/
def bootCopy (e : StartEnv) (a2 : Bool) (f : Flash) : Option Bool :=
  let good (b : Bool) : Bool := nbit e.fwGood ((if a2 then 2 else 0) + b2n b)
  let first := !regionBad e a2 0 && f.preferB
  if good first then some first else if good (!first) then some (!first) else none

/-- An instance that boots the other copy marks the one that failed. -/
def markCopy (e : StartEnv) (a2 : Bool) (f : Flash) : Flash :=
  match bootCopy e a2 f with
  | some b =>
    if b == (!regionBad e a2 0 && f.preferB) then f else { f with failed := setBit f.failed (1 - b2n b) }
  | none => f

/-- A flash whose bad regions are taken from the other one and rewritten; a region that is bad in both, or whose other copy cannot
be reached, holds nothing. -/
def repairFlash (own other : Flash) (bad badOther : Nat → Bool) (peer : Bool) : Flash :=
  let src (r : Nat) : Flash := if !bad r then own else if peer && !badOther r then other else eraseFlash own
  { preferB := (src 0).preferB, failed := (src 0).failed, image := (src 3).image, training := (src 4).training,
    lic0 := (src 5).lic0, lic1 := (src 5).lic1, seed := (src 6).seed, ledger := (src 7).ledger, erased := own.erased }

/-- The flashes as something outside the block may have left them. -/
def placeFlashes (m : Mach) (e : StartEnv) : Mach :=
  match e.flashes with
  | some f => { m with bup := { m.bup with flash0 := f.1, flash2 := f.2 } }
  | none => m

/-- The instances boot; the one that serves takes over with the flashes repaired. None when no instance serves. -/
def bootHubs (m : Mach) (e : StartEnv) : Option Mach :=
  let f0 := m.bup.flash0
  let f2 := m.bup.flash2
  let c0 := bootCopy e false f0
  let c2 := bootCopy e true f2
  let up (onA2 peer copyB : Bool) : Mach :=
    let g0 := markCopy e false f0
    let g2 := markCopy e true f2
    let r0 := if onA2 && !peer then g0 else repairFlash g0 g2 (regionBad e false) (regionBad e true) peer
    let r2 := if !onA2 && !peer then g2 else repairFlash g2 g0 (regionBad e true) (regionBad e false) peer
    let m := { m with peer := { present := peer, gone := !peer, onA2 := onA2 }, bup := { m.bup with flash0 := r0, flash2 := r2 } }
    setHf (setHf (setHf m R.HUB_ID_INST_DIE (if onA2 then 98 else 96)) R.HUB_STATUS_PEER_OK (b2n peer))
      R.HUB_STATUS_FW_IMAGE (b2n copyB)
  match c0, c2 with
  | some b, _ => some (up false c2.isSome b)
  | none, some b => some (up true false b)
  | none, none => none

/-- The flash of the serving instance. -/
def ownFlash (m : Mach) : Flash := if m.peer.onA2 then m.bup.flash2 else m.bup.flash0

/-! ### Spine training (R39, R88, R393) -/

/-- The segments on either side of an absent Station. -/
def absentSegs (e : StartEnv) : List (Nat × Nat) :=
  (List.range 4).flatMap (fun k => ((List.range 25).filter (fun p =>
    !nbit e.present (dieAt k p) || !nbit e.present (dieAt k ((p + 1) % 25)))).map (fun p => (k, p)))

/-- The Spine as training finds it: trunks, wire delays, absent Stations as breaks, the routes, and the first calibration. -/
def trainSpine (m : Mach) (e : StartEnv) : Mach :=
  let segs := absentSegs e
  let m := { m with bup := { m.bup with env := some e }, hth := { m.hth with faulted := 0 },
                    spine := { m.spine with down := segs, known := segs, silent := 0, missed := [] } }
  let m := (List.range 4).foldl (fun m t =>
    let w := e.trunks.getD t 0
    let m := setHf m R.SPN_TRUNK_TRUNK_UP (if w = 0 then clrBit (hf m R.SPN_TRUNK_TRUNK_UP) t else setBit (hf m R.SPN_TRUNK_TRUNK_UP) t)
    setSf (setSf m (96 + t) R.STN_GTC_TRUNK_TRUNK_UP w) (96 + (t + 1) % 4) R.STN_GTC_TRUNK_TRUNK_DOWN w) m
  let m := (List.range 100).foldl (fun m i =>
    setSf m (dieAt (i / 25) (i % 25)) R.STN_GTC_PATH_WIRE_CW (e.wires.getD i 0)) m
  (List.range 4).foldl (fun m k =>
    let m := syncRoutes (syncStations m k) k
    let m := writePaths m k
    { m with time := { m.time with calAt := Store.put 0 m.time.calAt k (gtcNow m + 1) } }) m

/-- The Spine at a warm start, which trains nothing: a Station that had faulted is back when it is present, absent Stations are
breaks, and what was down else stays down. -/
def warmSpine (m : Mach) (e : StartEnv) : Mach :=
  let back (x : Nat × Nat) : Bool := nbit m.hth.faulted (dieAt x.1 x.2) || nbit m.hth.faulted (dieAt x.1 ((x.2 + 1) % 25))
  let keep (l : List (Nat × Nat)) : List (Nat × Nat) := (l.filter (fun x => !back x) ++ absentSegs e).dedup
  let m := { m with bup := { m.bup with env := some e }, hth := { m.hth with faulted := 0 },
                    spine := { m.spine with down := keep m.spine.down, known := keep m.spine.known, silent := 0, missed := [] } }
  (List.range 4).foldl (fun m k => rewriteRing (syncRoutes (syncStations m k) k) k) m

/-! ### Life-cycle check (R457, R459, R461-R463) -/

/-- Program in each present copy what another copy reads as BLOWN; REPAIRED tells (R459). -/
def repairCopies (m : Mach) : Mach :=
  let owed := (copies m).flatMap (fun c => ((List.range 36).filter (fun f =>
    pkgFuse m f == 1 && fuseOf m.lcy.hub (c * 256 + 3 * f) != 1)).map (fun f => c * 256 + 3 * f))
  if owed.isEmpty then m
  else setHf { m with lcy := { m.lcy with hub := owed.foldl blow m.lcy.hub } } R.LCY_FUSE_REPAIRED 1

/-- LC_TORN recovery: the interrupted transition is completed from its die phases on (R461). -/
def recoverTorn (m : Mach) : Mach :=
  match counterTorn (pkgFuse m) with
  | none => m
  | some s =>
    let ready (d : Nat) : Bool := stnAnswers m d && !counterMarginal (dieFuse m d) && dieFuse m d (doneFuse s) == 0
    let m := ((List.range 100).filter ready).foldl (fun m d => diePhase m d s) m
    let m := if s = 6 then packageWipe m else m
    let m := setHf (blowPkg m (doneFuse s)) R.LCY_STATE_TORN_DONE 1
    trayEvent m EvCode.lcTorn (gtcNow m) (hubPath m) (w1 s)

/-- A lost die: its Station answers only STN_ID and STN_LCY, the summary lists it and it is hidden (R463). -/
def loseDie (m : Mach) (d : Nat) : Mach :=
  let entry := newEntry m (diePath m d) 7 1
  let m := incHf (setSf m d R.STN_LCY_LOST 1) R.LCY_FUSE_DIES_LOST
  let m := if (summary m).any (fun x => x.unit == entry.unit && x.cause == 7 && x.detail == 1 && !x.revoked) then m
    else updFlash m (fun f => { f with ledger := f.ledger ++ [entry] })
  raiseOn (hideDie m d) d { code := EvCode.dieLcLost, source := diePath m d, stamp := gtcNow m, detail := [] }

/-- A die at a start: a lost one is given up, one behind the package is stepped pair by pair (R463). -/
def stepDie (m : Mach) (d : Nat) : Mach :=
  if dieLost m d then loseDie m d
  else ((List.range 7).filter (fun s => decide (dieState m d < s) && decide (s ≤ otpState m))).foldl (fun m s => diePhase m d s) m

/-- The life-cycle check of step 3. -/
def checkLifeCycle (m : Mach) : Mach :=
  let masked := sumBy (fun c => sumBy (fun f => maskedCells m.lcy.hub (c * 256 + 3 * f)) (List.range 12)) (copies m)
  let m := setHf (setHf m R.LCY_FUSE_MARGINAL_CELLS (satN 8 masked)) R.LCY_FUSE_COPIES (bitmapOf (copies m))
  let m := repairCopies m
  let m := if otpState m = 7 then m else recoverTorn m
  let m := lcShow m
  if 6 ≤ otpState m then m else ((List.range 100).filter (stnAnswers m)).foldl stepDie m

/-! ### Licences (R390, R391) -/

/-- The seed. -/
def seed (m : Mach) : Seed := (ownFlash m).seed

/-- A width and speed code byte of a licence: neither code is the reserved 0. -/
def codeOk (v : Nat) : Bool := decide (v < 16) && v % 4 != 0 && v / 4 != 0

/-- A licence is valid (R391). -/
def licValid (m : Mach) (l : List Byte) : Bool :=
  l.length == 224 && bytesAt l 0 4 == 0x4E43494C && bytesAt l 4 1 == 1 && bytesAt l 5 3 == 0 && bytesAt l 20 4 == 0 &&
  ((l.drop 49).take 79).all (fun b => b == 0) && codeOk (bytesAt l 42 1) && codeOk (bytesAt l 43 1) && codeOk (bytesAt l 44 1) &&
  decide (1 ≤ bytesAt l 40 2) && decide (bytesAt l 40 2 ≤ 256) && bytesAt l 8 8 == hubSerial m && keyUsable m 0 &&
  Ec.verifyUnder (rootDigest m 0) (l.take 128) (l.drop 128) &&
  (bytesAt l 24 8 &&& (2 ^ 64 - 1 - (seed m).dies % 2 ^ 64)) == 0 && (bytesAt l 32 4 &&& (2 ^ 32 - 1 - (seed m).hbms % 2 ^ 32)) == 0 &&
  (bytesAt l 36 4 &&& (2 ^ 32 - 1 - (seed m).ext % 2 ^ 32)) == 0

/-- RAW and TEST need no licence. -/
def licFree (m : Mach) : Bool := decide (lcState m ≤ 1)

/-- What a licence enables: compute dies, stacks and fabric ports; in RAW and TEST every fitted unit, with no licence none. -/
def compMask (m : Mach) : Nat := if licFree m then (seed m).dies % 2 ^ 64 else bytesAt m.bup.lic 24 8
def stackMask (m : Mach) : Nat := if licFree m then (seed m).hbms % 2 ^ 32 else bytesAt m.bup.lic 32 4
def extMask (m : Mach) : Nat := if licFree m then (seed m).ext % 2 ^ 32 else bytesAt m.bup.lic 36 4

/-- A die that the seed records as fitted and the licence enables. -/
def dieEnabled (m : Mach) (d : Nat) : Bool :=
  if d < 64 then nbit (compMask m) d else if d < 96 then nbit (stackMask m) (d - 64) else nbit (seed m).dies d

/-- Read the licence, the copy at +0 before that at +0x8000; none leaves the hub waiting. -/
def takeLicence (m : Mach) : Mach :=
  let f := ownFlash m
  let l := if licFree m then [] else if licValid m f.lic0 then f.lic0 else if licValid m f.lic1 then f.lic1 else []
  let m := { m with bup := { m.bup with lic := l } }
  setHf (setHf m R.BUP_STATUS_WAIT_LICENCE (b2n (!licFree m && l.isEmpty))) R.BUP_STATUS_LIC_PENDING 0

/-- Show the licence in force in BUP_LIC. -/
def showLicence (m : Mach) : Mach :=
  let l := m.bup.lic
  let m := setHf (setHf m R.BUP_LIC_LICENCE_ID (bytesAt l 16 4)) R.BUP_LIC_PART_MAX (if licFree m then 256 else bytesAt l 40 2)
  let m := setHf m R.BUP_LIC_COMPUTE_DIES (bitsOf (compMask m) 64).length
  setHf (setHf m R.BUP_LIC_STACKS (bitsOf (stackMask m) 32).length) R.BUP_LIC_EXT_PORTS (bitsOf (extMask m) 32).length

/-! ### Hidden units (R26, R392, R406, R409) -/

/-- Entries that hide: those of either place without REVOKED. -/
def hidingEntries (m : Mach) : List LedgerEntry :=
  ((List.range 100).flatMap (fun d => if stnAnswers m d then (note m d).ledger else []) ++ summary m).filter
    (fun e => e.good && !e.revoked)

/-- An entry hides the whole die: a die or Station entry other than one of a channel. -/
def entryHidesDie (e : LedgerEntry) : Bool := (upLevel e.unit == 3 && e.cause != 5) || upLevel e.unit == 6

/-- Write HIDDEN of a unit's shadow; a hidden unit is bound to nothing (R30). -/
def putHidden (m : Mach) (d inst : Nat) (h : Bool) : Mach :=
  if (sf m d R.STN_BIND_HIDDEN inst == 1) == h then m
  else
    let m := if h then freeUnit m d inst else m
    setSf m d R.STN_BIND_HIDDEN (b2n h) inst

/-- A core's engines: DARK while it is hidden, and out of DARK at a start when it is not (R102). -/
def coreStates (m : Mach) (d p : Nat) (h : Bool) : Mach :=
  if h then (if coreDark m d p then m else darkCore m d p)
  else if fld (sget m d (tapBase p)) 0 18 = 0 then m
  else sput m d (tapBase p) (setFld (sget m d (tapBase p)) 0 18 0)

/-- Hide what ledger, licence and seed hide on a die. -/
def hideUnits (es : List LedgerEntry) (m : Mach) (d : Nat) : Mach :=
  let mine := es.filter (fun e => upDie e.unit == d)
  let byLedger := mine.any entryHidesDie
  let whole := byLedger || !dieEnabled m d || sf m d R.STN_LCY_LOST == 1
  let m := { m with bup := { m.bup with
    hiddenDies := if whole then setBit m.bup.hiddenDies d else clrBit m.bup.hiddenDies d,
    stnHidden := if mine.any (fun e => e.cause == 7) then setBit m.bup.stnHidden d else clrBit m.bup.stnHidden d } }
  let m := if d < 64 then
      let cores := mine.filterMap (fun e => if upLevel e.unit = 1 then some (upTap e.unit) else none)
      (List.range 128).foldl (fun m p =>
        let h := whole || cores.contains p || (seed m).unfittedCores.contains (d * 128 + p)
        coreStates (putHidden m d (bindCore p) h) d p h) m
    else m
  let m := if dieKind d = 1 then
      let chans := mine.filterMap (fun e => if upLevel e.unit = 3 ∧ e.cause = 5 then some e.detail else none)
      (List.range 16).foldl (fun m c => putHidden m d (bindChan c) (whole || chans.contains c)) m
    else m
  let ports := mine.filterMap (fun e => if upLevel e.unit = 5 then some (upPort e.unit) else none)
  (List.range (portsOf d)).foldl (fun m p =>
    putHidden m d (bindPort p) (whole || ports.contains p ||
      (decide (96 ≤ d) && decide (8 ≤ p) && !nbit (extMask m) (8 * (d - 96) + p - 8)))) m

/-- A bitmap of dies in a pair of hub registers. -/
def setDies (m : Mach) (lo hi : Fld) (v : Nat) : Mach := setHf (setHf m lo (v % 2 ^ 64)) hi (v / 2 ^ 64)

/-- Bring the hidden units into line with ledger, licence and seed. -/
def applyHidden (m : Mach) : Mach :=
  let es := hidingEntries m
  let m := (List.range 100).foldl (hideUnits es) m
  setDies m R.HUB_HIDDEN_LO_HIDDEN R.HUB_HIDDEN_HI_HIDDEN (bitmapOf ((List.range 100).filter (fun d =>
    es.any (fun e => upDie e.unit == d && entryHidesDie e))))

/-- Revocations that waited for a Station that now answers are written into its Die Notebook (R467). -/
def payRevocations (m : Mach) : Mach :=
  let now := m.bup.revokeLater.filter (fun x => stnAnswers m x.1)
  let m := now.foldl (fun m x =>
    let g (e : LedgerEntry) : Bool := e.unit == x.2.1 && e.cause == x.2.2
    countMram (updNote m x.1 (fun y => { y with ledger := revokeIn g y.ledger })) x.1 2) m
  { m with bup := { m.bup with revokeLater := m.bup.revokeLater.filter (fun x => !stnAnswers m x.1) } }

/-- A new ledger entry of a start: appended, counted for its die, and the unit is hidden from now on. -/
def ledgerNew (m : Mach) (unit : W32) (cause detail : Nat) : Mach :=
  let d := upDie unit
  let e := newEntry m unit cause detail
  let m := ledgerAppend m d e
  let m := { m with bup := { m.bup with newDefects := Store.put 0 m.bup.newDefects d (Store.get 0 m.bup.newDefects d + 1) } }
  hideUnits (hidingEntries m) m d

/-! ### Roll Call 1 (R393) -/

/-- The Stations that answer the gather are present. -/
def rollCall1 (m : Mach) : Mach :=
  setDies m R.HUB_PRESENT_LO_PRESENT R.HUB_PRESENT_HI_PRESENT (bitmapOf ((List.range 100).filter (stnAnswers m)))

/-! ### Core boot (R389, R394-R399) -/

/-- The chunks of an image. -/
def imgChunks (b : List Byte) : Nat := bytesAt b 6 2

/-- Chunk n of an image, and its CRC in the table. -/
def imgChunk (b : List Byte) (n : Nat) : List Byte := padTo 4096 ((b.drop (64 + 4 * imgChunks b + 4096 * n)).take 4096)
def imgCrc (b : List Byte) (n : Nat) : Nat := bytesAt b (64 + 4 * n) 4

/-- The image has the form of R389, and its signature verifies under the firmware-signing key. -/
def imageGood (m : Mach) (b : List Byte) : Bool :=
  let n := imgChunks b
  let len := 64 + 4 * n + 4096 * n
  bytesAt b 0 4 == 0x57464243 && bytesAt b 4 1 == 1 && decide (1 ≤ n) && decide (n ≤ 512) && decide (bytesAt b 8 4 ≤ 2097152) &&
  keyUsable m 4 && Ec.verifyUnder (rootDigest m 4) (b.take len) ((b.drop len).take 96)

/-- The compute dies that take the image: enabled, not hidden and answering. -/
def bootDies (m : Mach) : List Nat := (List.range 64).filter (fun d => stnAnswers m d && !dieHidden m d)

/-- How often in a row a core misses a chunk; one that breaks the table is missed every time. -/
def missPasses (e : StartEnv) (bad : List Nat) (d p : Nat) : List (Nat × Nat) :=
  (e.bootMiss.filter (fun x => x.die == d && x.core == p && !bad.contains x.chunk)).map (fun x => (x.chunk, x.passes)) ++
  bad.map (fun n => (n, 6))

/-- What a core is before its boot firmware runs. -/
def coreAtStart (e : StartEnv) (old : CoreSt) (d p : Nat) : CoreSt :=
  { dir := ((e.dirs.find? (fun x => x.1 == d * 128 + p)).map (fun x => x.2)).getD [], memGen := old.memGen }

/-- Change the cores of a die together. -/
def updCores (m : Mach) (d : Nat) (g : Nat → CoreSt → CoreSt) : Mach :=
  let mine := m.cores.filter (fun e => e.1 / 128 == d)
  let new := ((List.range 128).map (fun p => (d * 128 + p, g p (Store.get { } mine (d * 128 + p))))).filter (fun e => e.2 != { })
  { m with cores := m.cores.filter (fun e => decide (e.1 / 128 < d)) ++ new ++ m.cores.filter (fun e => decide (d < e.1 / 128)) }

/-- Every core back in reset, with its State Directory as the surroundings have it. -/
def coresInReset (m : Mach) (e : StartEnv) : Mach :=
  (List.range 64).foldl (fun m d => updCores m d (fun p old => coreAtStart e old d p)) m

/-- Load the image into the cores of a die that boot. -/
def bootDie (e : StartEnv) (bad : List Nat) (n : Nat) (m : Mach) (d : Nat) : Mach :=
  let img := m.bup.bootImg
  let table := (img.drop 64).take (4 * n)
  let m := (List.range ((n + 1) / 2)).foldl (fun m j => sput m d (0x8800 + 8 * j) (BitVec.ofNat 64 (bytesAt table (8 * j) 8))) m
  let m := setSf (setSf m d R.STN_BUP_TAB_TCRC (crc32c table)) d R.STN_BUP_TAB_CHUNKS n
  let held := n - bad.length
  let m := setSf (setSf (setSf m d R.STN_BUP_STAT_BOOT 4) d R.STN_BUP_STAT_TABLE_OK 1) d R.STN_BUP_STAT_CHUNKS_OK held
  let m := updStn m d (fun x => { x with chunks := bitmapOf ((List.range n).filter (fun i => !bad.contains i)) })
  let take := bootingCores m d
  updCores m d (fun p c =>
    let miss := bitmapOf (((missPasses e bad d p).filter (fun x => decide (6 ≤ x.2))).map Prod.fst)
    if take.contains p then { c with img := true, missing := miss, booted := miss == 0 } else c)

/-- Count what the boot took and ledger the cores that still miss a chunk (R398, R399). -/
def bootJudge (m : Mach) (e : StartEnv) (bad : List Nat) (n : Nat) (dies : List Nat) : Mach :=
  let passes := dies.flatMap (fun d => (bootingCores m d).map (fun p => (d, p, (missPasses e bad d p).foldl (fun a x => max a x.2) 0)))
  let most := passes.foldl (fun a x => max a x.2.2) 0
  let defect := passes.filter (fun x => decide (6 ≤ x.2.2))
  let m := setHf (setHf m R.BUP_BOOT_CHUNKS n) R.BUP_BOOT_ROUNDS (min 3 most)
  let m := setHf m R.BUP_BOOT_UNICASTS (satN 14 (passes.filter (fun x => decide (4 ≤ x.2.2))).length)
  let m := setHf m R.BUP_BOOT_DEFECT_BOOT (satN 14 defect.length)
  defect.foldl (fun m x => ledgerNew m (corePath m x.1 x.2.1) 1 (bitsOf (core_ m x.1 x.2.1).missing 512).length) m

/-- Step 7 with a good image: Stations that fall silent leave their cores unbooted. -/
def bootCores (m : Mach) (e : StartEnv) (img : List Byte) : Mach :=
  let n := imgChunks img
  let bad := (List.range n).filter (fun i => crc32c (imgChunk img i) != imgCrc img i)
  let m := { m with bup := { m.bup with bootImg := img }, spine := { m.spine with
    silent := bitmapOf ((List.range 100).filter (fun d => nbit m.spine.silent d || (nbit e.bootSilent d && stnAnswers m d))) } }
  let dies := bootDies m
  let m := dies.foldl (bootDie e bad n) m
  bootJudge m e bad n dies

/-! ### Link and HBM training (R400-R403) -/

/-- The unit and channel of a training record: an endpoint at level 5, or a channel of a die at level 3. -/
def trainUnit (m : Mach) (d place : Nat) (chan : Bool) : W32 := ledgerUnit (if chan then diePath m d else portPath m d place)

/-- A record belongs to a unit and channel. -/
def recFor (unit : W32) (place : Nat) (chan : Bool) (r : TrainRecord) : Bool :=
  r.unit == unit && r.chan == chan && r.ch == (if chan then place else 0)

/-- The pair of copies in the Die Notebook. -/
def notePair (m : Mach) (d place : Nat) (chan : Bool) : Option (TrainRecord × TrainRecord) :=
  (note m d).training.find? (fun r => recFor (trainUnit m d place chan) place chan r.1)

/-- The valid copy whose GEN is later (R342, R400). -/
def laterCopy (r : TrainRecord × TrainRecord) : Option TrainRecord :=
  if r.1.good && (!r.2.good || !seqLater r.2.gen r.1.gen) then some r.1 else if r.2.good then some r.2 else none

/-- The flash copy of a record. -/
def flashRecord (m : Mach) (d place : Nat) (chan : Bool) : Option TrainRecord :=
  (ownFlash m).training.find? (recFor (trainUnit m d place chan) place chan)

/-- The record that step 8 reads: the Die Notebook's valid copy, else the flash's. -/
def savedRecord (m : Mach) (d place : Nat) (chan : Bool) : Option TrainRecord :=
  match (notePair m d place chan).bind laterCopy with
  | some r => some r
  | none => (flashRecord m d place chan).filter (fun r => r.good)

/-- The reason for which an endpoint or channel is retrained, 0 when its record is reused (R401, R402). -/
def retrainReason (m : Mach) (d place : Nat) (chan : Bool) (works : Bool) : Nat :=
  match savedRecord m d place chan with
  | none => if (notePair m d place chan).isNone && (flashRecord m d place chan).isNone then 1 else 6
  | some r =>
    let now := gtcNow m / 1000000000
    let dt := signed 16 r.temp - signed 16 (sf m d R.STN_SENSE_TEMP)
    if hf m R.GTC_STATUS_TOD_VALID = 0 then 4
    else if now < r.seconds ∨ r.seconds + 2592000 ≤ now then 2
    else if 60 < dt ∨ dt < -60 then 3
    else if !works then 5 else 0

/-- The record of an endpoint's or channel's present training, with the next GEN. -/
def freshRecord (m : Mach) (d place : Nat) (chan : Bool) (params : List Byte) : TrainRecord :=
  let v (a b : Fld) : Nat := if chan then sf m d b place else sf m d a place
  { unit := trainUnit m d place chan, chan := chan, ch := if chan then place else 0,
    width := v R.STN_BUP_PORT_WIDTH R.STN_BUP_CHAN_WIDTH, speed := v R.STN_BUP_PORT_SPEED R.STN_BUP_CHAN_SPEED,
    seconds := todSeconds m, temp := sf m d R.STN_SENSE_TEMP,
    eyeH := v R.STN_BUP_PORT_EYE_H R.STN_BUP_CHAN_EYE_H, eyeV := v R.STN_BUP_PORT_EYE_V R.STN_BUP_CHAN_EYE_V, params := params,
    gen := match notePair m d place chan with
      | some (a, b) => ((if seqLater b.gen a.gen then b.gen else a.gen) + 1) % 2 ^ 32
      | none => 1 }

/-- Write a record to the Die Notebook: over the copy with the older GEN, or as a new pair whose other copy is bad (R400). -/
def writeRecord_ (m : Mach) (d : Nat) (r : TrainRecord) : Mach :=
  let same (x : TrainRecord × TrainRecord) : Bool := x.1.unit == r.unit && x.1.chan == r.chan && x.1.ch == r.ch
  let put (x : TrainRecord × TrainRecord) : TrainRecord × TrainRecord :=
    if x.1.good && (!x.2.good || !seqLater x.2.gen x.1.gen) then (x.1, r) else (r, x.2)
  let all (l : List (TrainRecord × TrainRecord)) : List (TrainRecord × TrainRecord) :=
    if l.any same then l.map (fun x => if same x then put x else x) else l ++ [(r, { r with good := false, gen := 0 })]
  countMram (updNote m d (fun y => { y with training := all y.training })) d 1

/-- Write a record to both flashes. -/
def writeFlashRecord (m : Mach) (r : TrainRecord) : Mach :=
  let others (l : List TrainRecord) : List TrainRecord :=
    l.filter (fun x => !(x.unit == r.unit && x.chan == r.chan && x.ch == r.ch))
  updFlash m (fun f => { f with training := others f.training ++ [r] })

/-- How an endpoint or channel trains: as the surroundings say, else at the nominal width and speed (log entry 60). -/
def trainResult (m : Mach) (e : StartEnv) (d place : Nat) (chan : Bool) : TrainResult :=
  (e.training.find? (fun x => x.die == d && x.place == place && x.chan == chan)).getD
    { die := d, place := place, chan := chan, fromRecord := true, width := (seed m).nominal % 4, speed := (seed m).nominal / 4 % 4,
      eyeH := 0, eyeV := 0, params := [] }

/-- The image of STN_BUP_PORT or STN_BUP_CHAN. -/
def trainImage (width speed eyeH eyeV reason : Nat) (dead : Bool) : W64 :=
  BitVec.ofNat 64 (width % 4 + (if width = 0 then 0 else speed % 4) * 4 + b2n (decide (width ≠ 0)) * 16 + b2n (reason == 0) * 32 +
    b2n dead * 64 + reason * 256 + eyeH % 2 ^ 16 * 2 ^ 16 + eyeV % 2 ^ 16 * 2 ^ 32)

/-- Train one endpoint or channel, and write its record when it was retrained. -/
def trainOne (e : StartEnv) (m : Mach) (x : Nat × Nat × Bool) : Mach :=
  let (d, place, chan) := x
  let r := trainResult m e d place chan
  let reason := retrainReason m d place chan (r.fromRecord && r.width % 4 != 0)
  let inner := chan || (farEnd d place).isSome
  let dead := r.width % 4 == 0 && inner
  let m := sput m d ((if chan then 0x8600 else 0x8580) + 8 * place)
    (trainImage (r.width % 4) r.speed r.eyeH r.eyeV reason dead)
  let m := if reason = 0 then m else setHf m R.BUP_STATUS_STALE 1
  if dead then incHf m R.BUP_TRAIN_DEAD
  else if r.width % 4 = 0 then m
  else if reason = 0 then incHf m R.BUP_TRAIN_REUSED
  else
    let m := incHf m R.BUP_TRAIN_RETRAINED
    let t := freshRecord m d place chan r.params
    writeFlashRecord (writeRecord_ m d t) t

/-- What step 8 trains: endpoints and channels that are not hidden, of Stations that answer. -/
def trainPlaces (m : Mach) : List (Nat × Nat × Bool) :=
  ((List.range 100).filter (fun d => stnAnswers m d && !dieHidden m d)).flatMap (fun d =>
    ((List.range (portsOf d)).filter (fun p => !portHidden m d p)).map (fun p => (d, p, false)) ++
    (if dieKind d = 1 then ((List.range 16).filter (fun c => !chanHidden m d c)).map (fun c => (d, c, true)) else []))

/-- Step 8: train, then ledger and hide what trained at no width. -/
def trainLinks (m : Mach) (e : StartEnv) : Mach :=
  let m := setHf (hput m 0xE18 0) R.BUP_STATUS_STALE 0
  let m := (List.range 100).foldl (fun m d =>
    let m := (List.range (portsOf d)).foldl (fun m p => sput m d (0x8580 + 8 * p) 0) m
    if dieKind d = 1 then (List.range 16).foldl (fun m c => sput m d (0x8600 + 8 * c) 0) m else m) m
  let places := trainPlaces m
  let m := places.foldl (trainOne e) m
  (places.filter (fun x => (if x.2.2 then sf m x.1 R.STN_BUP_CHAN_DEAD x.2.1 else sf m x.1 R.STN_BUP_PORT_DEAD x.2.1) == 1)).foldl
    (fun m x => if x.2.2 then ledgerNew m (diePath m x.1) 5 x.2.1 else ledgerNew m (portPath m x.1 x.2.1) 4 0) m

/-- Step 9: what fails the start test is ledgered and hidden (R405). -/
def startTest (m : Mach) (e : StartEnv) : Mach :=
  (e.failing.filter (fun x => stnAnswers m (upDie x.1))).foldl (fun m x => ledgerNew m x.1 x.2 0) m

/-! ### Roll Call 2 (R411-R413) -/

/-- Internal links, each named by the endpoint with the lower path, with its far end. -/
def allLinks : List (Nat × Nat × Nat × Nat) :=
  (List.range 100).flatMap (fun d => (List.range (portsOf d)).filterMap (fun p =>
    match farEnd d p with
    | some (d', p') => if d < d' then some (d, p, d', p') else none
    | none => none))

/-- The width and speed codes that both ends of a link reach; 0 when either is untrained. -/
def linkCode (m : Mach) (l : Nat × Nat × Nat × Nat) : Nat :=
  let (d, p, d', p') := l
  if sf m d R.STN_BUP_PORT_UP p = 1 ∧ sf m d' R.STN_BUP_PORT_UP p' = 1 ∧ stnAnswers m d ∧ stnAnswers m d' then
    min (sf m d R.STN_BUP_PORT_WIDTH p) (sf m d' R.STN_BUP_PORT_WIDTH p') +
      4 * min (sf m d R.STN_BUP_PORT_SPEED p) (sf m d' R.STN_BUP_PORT_SPEED p')
  else 0

/-- A pair of width and speed codes reaches another. -/
def codeReaches (a b : Nat) : Bool := decide (b % 4 ≤ a % 4) && decide (b / 4 % 4 ≤ a / 4 % 4)

/-- The least code that the licence allows a link. -/
def linkMin (m : Mach) (d d' : Nat) : Nat :=
  if licFree m then 0
  else if dieKind d = 2 ∨ dieKind d' = 2 then bytesAt m.bup.lic 44 1
  else if dieKind d' = 1 ∨ dieKind d = 1 then bytesAt m.bup.lic 43 1 else bytesAt m.bup.lic 42 1

/-- A link between a compute die and a memory-attach die. -/
def isMemLink (d d' : Nat) : Bool := dieKind d == 1 || dieKind d' == 1

/-- One round of spreading over trained links. -/
def spread (links : List (Nat × Nat)) (seen : Nat) : Nat :=
  links.foldl (fun s l => if nbit s l.1 || nbit s l.2 then setBit (setBit s l.1) l.2 else s) seen

/-- The dies that trained links join to a die. -/
def joined (links : List (Nat × Nat)) (d : Nat) : Nat := (List.range 100).foldl (fun s _ => spread links s) (setBit 0 d)

/-- Every expected compute die reaches every expected anchor over trained links. -/
def meshWhole (m : Mach) (links : List (Nat × Nat)) : Bool :=
  ((List.range 4).filter (fun a => dieEnabled m (96 + a))).all (fun a =>
    let s := joined links (96 + a)
    (List.range 64).all (fun d => !dieEnabled m d || dieHidden m d || nbit s d))

/-- The budgets in force: the lower of the licence's and firmware's (R411). RAW and TEST have no licence's. -/
def spareBudget (m : Mach) (e : StartEnv) (licByte licBytes lo n : Nat) : Nat :=
  let own := if licFree m then 2 ^ n - 1 else bytesAt m.bup.lic licByte licBytes
  match e.regs.find? (fun x => x.1 == 0xE28) with
  | some x => min own (nfld x.2 lo n)
  | none => min own (2 ^ n - 1)

/-- The cause for which the ledger hides a core, by itself or with its die. -/
def hideCause (es : List LedgerEntry) (unit : W32) : Nat :=
  ((es.find? (fun e => e.unit == unit || (upDie e.unit == upDie unit && entryHidesDie e))).map (fun e => e.cause)).getD 0

/-- The differences of Stations, cores, channels, stacks, ports and ledger entries. -/
def unitDiffs (m : Mach) (e : StartEnv) : List Diff :=
  let es := hidingEntries m
  let stations := ((List.range 100).filter (fun d => dieEnabled m d && !(es.any (fun x => upDie x.unit == d && entryHidesDie x)) &&
      !stnAnswers m d)).map (fun d => ({ unit := stnPath m d, item := 1, cls := 2, expected := 1, found := 0, aux := 0 } : Diff))
  let unfit := ((List.range 100).filter (fun d => stnAnswers m d && !(if d < 64 ∨ 96 ≤ d then nbit (seed m).dies d
      else nbit (seed m).hbms (d - 64)))).map (fun d =>
        ({ unit := stnPath m d, item := 7, cls := 0, expected := 0, found := 1, aux := 0 } : Diff))
  let cores := ((List.range 64).filter (dieEnabled m)).flatMap (fun d =>
    ((List.range 128).filter (fun p => coreHidden m d p && !(seed m).unfittedCores.contains (d * 128 + p))).map (fun p => (d, p)))
  let coreCls := if cores.length ≤ spareBudget m e 46 2 8 14 then 0 else 2
  let coreDiffs := cores.map (fun c =>
    ({ unit := corePath m c.1 c.2, item := 2, cls := coreCls, expected := 1, found := 0,
       aux := hideCause es (ledgerUnit (corePath m c.1 c.2)) } : Diff))
  let mems := ((List.range 32).map (fun n => 64 + n)).filter (dieEnabled m)
  let chanUp (d c : Nat) : Bool := stnAnswers m d && sf m d R.STN_BUP_CHAN_UP c == 1
  let lost := mems.flatMap (fun d => ((List.range 16).filter (fun c => !chanUp d c)).map (fun c => (d, c)))
  let chanCls := if lost.length ≤ spareBudget m e 48 1 22 8 then 1 else 2
  let chanDiffs := lost.map (fun c =>
    ({ unit := diePath m c.1, item := 4, cls := chanCls, expected := 1, found := 0, aux := c.2 } : Diff))
  let hbmDiffs := (mems.filter (fun d => (List.range 16).all (fun c => !chanUp d c))).map (fun d =>
    ({ unit := diePath m d, item := 5, cls := 2, expected := 1, found := 0, aux := 0 } : Diff))
  let extDiffs := ((bitsOf (extMask m) 32).filter (fun i => !portHidden m (96 + i / 8) (8 + i % 8) &&
      sf m (96 + i / 8) R.STN_BUP_PORT_UP (8 + i % 8) == 0)).map (fun i =>
    ({ unit := portPath m (96 + i / 8) (8 + i % 8), item := 6, cls := 1, expected := 1, found := 0, aux := 0 } : Diff))
  let badDiffs := ((List.range 100).flatMap (badEntries m)).map (fun x =>
    ({ unit := x.unit, item := 9, cls := 0, expected := 1, found := 0, aux := 0 } : Diff))
  stations ++ unfit ++ coreDiffs ++ chanDiffs ++ hbmDiffs ++ extDiffs ++ badDiffs

/-- The differences of links (ITEM 3). -/
def linkDiffs (m : Mach) (e : StartEnv) : List Diff :=
  let links := allLinks.filter (fun l => dieEnabled m l.1 && dieEnabled m l.2.2.1)
  let up := (links.filter (fun l => linkCode m l != 0)).map (fun l => (l.1, l.2.2.1))
  let absent := links.filter (fun l => linkCode m l == 0 && !isMemLink l.1 l.2.2.1)
  let absentCls := if absent.length ≤ spareBudget m e 45 1 0 8 ∧ meshWhole m up then 1 else 2
  let nominal := (seed m).nominal
  links.filterMap (fun l =>
    let code := linkCode m l
    let d := l.1
    let d' := l.2.2.1
    let mk (cls : Nat) : Option Diff :=
      some { unit := portPath m d l.2.1, item := 3, cls := cls, expected := nominal, found := code, aux := 0 }
    if code = 0 then
      if !isMemLink d d' then mk absentCls
      else if dieHidden m (if d < 64 then d else d') then none else mk 2
    else if !codeReaches code (linkMin m d d') then mk 2
    else if !codeReaches code nominal then mk 1 else none)

/-- All differences in ascending order of unit and item. -/
def allDiffs (m : Mach) (e : StartEnv) : List Diff :=
  sortBy (fun a b => decide (a.unit.toNat < b.unit.toNat) || (a.unit == b.unit && decide (a.item < b.item)))
    (unitDiffs m e ++ linkDiffs m e)

/-- The result of R412, which judges every difference, kept or not: 1 READY, 2 READY_DEGRADED, 3 NOT_READY. -/
def diffResult (m : Mach) : Nat :=
  if m.bup.diffFatal ≠ 0 then 3 else if m.bup.diffDegraded ≠ 0 then 2 else 1

/-- Differences of a class. -/
def ofClass (l : List Diff) (c : Nat) : Nat := (l.filter (fun x => x.cls == c)).length

/-- Keep the differences, up to 1,024, and count them. -/
def keepDiffs (m : Mach) (l : List Diff) : Mach :=
  setHf { m with bup := { m.bup with diffs := l.take 1024, diffCount := l.length, diffFatal := ofClass l 2,
                                      diffDegraded := ofClass l 1 } } R.BUP_STATUS_DIFFS (satN 10 l.length)

/-- Roll Call 2: presence, differences, budgets and counts. -/
def rollCall2 (m : Mach) (e : StartEnv) : Mach :=
  let m := keepDiffs (rollCall1 m) (allDiffs m e)
  let m := setHf m R.BUP_TOL_SPARE_LINKS (spareBudget m e 45 1 0 8)
  let m := setHf (setHf m R.BUP_TOL_SPARE_CORES (spareBudget m e 46 2 8 14)) R.BUP_TOL_SPARE_CHANNELS (spareBudget m e 48 1 22 8)
  let m := setHf m R.BUP_STATUS_BAD_ENTRIES (satN 10 (sumBy (fun d => (badEntries m d).length) (List.range 100)))
  let es := hidingEntries m
  let comp := (List.range 64).filter (fun d => stnAnswers m d && !dieHidden m d)
  let m := setHf m R.HUB_COUNTS_COMPUTE_DIES comp.length
  let m := setHf m R.HUB_COUNTS_CORES_UP (m.cores.filter (fun x =>
    x.2.booted && comp.contains (x.1 / 128) && !coreHidden m (x.1 / 128) (x.1 % 128))).length
  let m := setHf m R.HUB_COUNTS_CORES_HIDDEN (sumBy (fun d => ((List.range 128).filter (fun p =>
    hideCause es (ledgerUnit (corePath m d p)) != 0)).length) (List.range 64))
  setHf m R.HUB_COUNTS_HBM_STACKS ((List.range 32).filter (fun n => stnAnswers m (64 + n) && !dieHidden m (64 + n) &&
    (List.range 16).any (fun c => sf m (64 + n) R.STN_BUP_CHAN_UP c == 1))).length

/-! ### The end of a start (R386, R406) -/

/-- The summary rewritten as the union of both places (R406). -/
def rewriteSummary (m : Mach) : Mach :=
  let all := (wholeLedger m).map (fun x => x.1)
  updFlash m (fun f => { f with ledger := all })

/-- Release the booted cores to execute their boot firmware. -/
def releaseCores (m : Mach) : Mach :=
  let ok (k : Nat) : Bool := stnAnswers m (k / 128) && !coreHidden m (k / 128) (k % 128)
  { m with bup := { m.bup with pool := true },
           cores := m.cores.map (fun x => (x.1, if x.2.booted && ok x.1 then { x.2 with released := true } else x.2)) }

/-- A start ends with a result: the ledger summary is rewritten (R406), BRINGUP, the command port, BRINGUP_DONE, and with READY or
READY_DEGRADED the pool. -/
def endStart (m : Mach) (result step : Nat) : Mach :=
  let m := rewriteSummary m
  let m := setHf (setHf (setHf m R.HUB_STATUS_BRINGUP result) R.HUB_STATUS_FW_IN_SERVICE 1) R.BUP_STATUS_STEP step
  let m := trayEvent m EvCode.bringupDone (gtcNow m) (hubPath m) (w1 result ++ w1 (hf m R.BUP_STATUS_DIFFS))
  promiseSync (if result = 1 ∨ result = 2 then releaseCores m else { m with bup := { m.bup with pool := false } })

/-- Steps 7, 8, 9 on a cold start, and 10. A failed image stops bring-up at step 7 (R389). -/
def startTail (m : Mach) (e : StartEnv) (cold : Bool) : Mach :=
  let img := (ownFlash m).image
  let m := setHf { m with bup := { m.bup with newDefects := [] } } R.BUP_STATUS_STEP 7
  if !imageGood m img then
    endStart (keepDiffs m [{ unit := hubPath m, item := 8, cls := 2, expected := 1, found := 0, aux := 0 }]) 3 7
  else
    let m := trainLinks (setHf (bootCores m e img) R.BUP_STATUS_STEP 8) e
    let m := if cold then startTest (setHf m R.BUP_STATUS_STEP 9) e else m
    let m := rollCall2 (setHf m R.BUP_STATUS_STEP 10) e
    endStart m (diffResult m) 11

/-- What firmware sets in its registers, the Hamper bases, the present temperatures, and the time of day, which an edge of PPS_IN
during the start loads (R75, R76). -/
def firmwareSets (m : Mach) (e : StartEnv) : Mach :=
  let m := e.regs.foldl (fun m x => if x.1 = 0xE28 then m else hput m x.1 (BitVec.ofNat 64 x.2)) m
  let m := (List.range 32).foldl (fun m s => setSf m (64 + s) R.STN_CAP_HBASE_BASE (e.hampers.getD s 0)) m
  let m := (List.range 100).foldl (fun m d =>
    let t := e.temps.getD d 0
    setSf (setSf m d R.STN_SENSE_TEMP t) d R.STN_BUP_STAT_TEMP t) m
  match e.tod with
  | some v => doPpsEdge (hubStore m 0x0110 v.toNat (2 ^ 64 - 1))
  | none => m

/-- Steps 5 to 10 from a machine whose licence has been read. -/
def startBody (m : Mach) (e : StartEnv) (cold : Bool) : Mach :=
  let m := coresInReset (applyHidden (payRevocations m)) e
  let m := setHf (rollCall1 (showLicence m)) R.BUP_STATUS_STEP 6
  if hf m R.BUP_STATUS_WAIT_LICENCE = 1 then endStart m 3 6 else startTail m e cold

/-- The start after a power-on reset or DBG_RESET: path 0 or 2 (R384). -/
def coldStart (m : Mach) (e : StartEnv) (path : Nat) : Mach :=
  let m := placeFlashes m e
  match bootHubs m e with
  | none => setHf m R.HUB_STATUS_SERVING 0
  | some m =>
    let m := setHf (setHf (setHf m R.BUP_STATUS_PATH path) R.BUP_STATUS_OVER e.overBudget) R.BUP_TIME_LAST_MS e.ms
    let m := checkLifeCycle (trainSpine m e)
    if 6 ≤ otpState m then
      let m := setHf { m with bup := { m.bup with env := none } } R.HUB_STATUS_BRINGUP 3
      (List.range 4).foldl syncRoutes m
    else startBody (firmwareSets (takeLicence m) e) e (path == 0)

/-- The meaning of POWER_ON_RESET (R502). -/
def execPowerOnReset (env : StartEnv) (s : State) : Host.Outcome State Fault Refusal :=
  .next { s with m := coldStart (resetMach s.m false) env 0 }

/-- The meaning of DBG_RESET: a warm reset of the accelerator is requested first (R384, R503). -/
def execDbgReset (env : StartEnv) (s : State) : Host.Outcome State Fault Refusal :=
  .next { s with m := coldStart (emit (resetMach s.m true) .warmReq) env 2 }

/-! ### Warm starts (R384, R436) -/

/-- The accelerator's package warm reset: every halt, cut and piece of work is gone, and every core's state is undefined (Table
13.3). -/
def accelReset (m : Mach) : Mach :=
  let m := clearScope m 256
  let m := (bootDies m).foldl (fun m d => (List.range 128).foldl (fun m p => resetCore m 256 d p) m) m
  { m with engs := m.engs.map (fun x => (x.1, { x.2 with inReset := false })) }

/-- The warm path of Table 12.1, the accelerator having been reset. A licence that waited takes effect, and classes that were
split are not any longer (R392, R417). -/
def warmPath (m : Mach) (e : StartEnv) : Mach :=
  let m := setHf (setHf (setHf m R.BUP_STATUS_PATH 1) R.BUP_STATUS_OVER e.overBudget) R.BUP_TIME_LAST_MS e.warmMs
  let m := setHf { m with bup := { m.bup with split := 0, diffs := [], diffCount := 0, diffFatal := 0, diffDegraded := 0 } } R.HUB_STATUS_BRINGUP 0
  let m := setHf (setHf m R.HTH_STATUS_FAULTED 0) R.HTH_STATUS_TAPS_DARK 0
  let m := { m with hth := { m.hth with faults := 0, dies := m.hth.dies.map (fun x =>
    (x.1, { x.2 with faults := 0, lastT := 0, lastCode := 0, corrected := 0, uncorrected := 0, raised := [], tapsDark := 0 })) } }
  let m := warmSpine (placeFlashes m e) e
  let m := if hf m R.BUP_STATUS_LIC_PENDING = 1 ∨ hf m R.BUP_STATUS_WAIT_LICENCE = 1 then takeLicence m else m
  startBody (firmwareSets m { e with tod := none }) e false

/-- Every context epoch is 0 (Table 13.3). -/
def zeroCtx (m : Mach) : Mach := (m.rcv.ctx.map Prod.fst).foldl (fun m q => setCtx m q 0) m

/-- The meaning of WARM_START, when a hub serves. -/
def execWarmStart (env : StartEnv) (s : State) : Host.Outcome State Fault Refusal :=
  if hf s.m R.HUB_STATUS_SERVING = 1 ∧ !identityOnly s.m ∧ s.m.bup.env.isSome then
    .next { s with m := warmPath (zeroCtx (accelReset s.m)) env }
  else .next s

/-- The meaning of WARM_DONE: rung 4 has its reset, the context epochs are 0, the warm path runs and the rung ends (R436, Table
13.3). -/
def execWarmDone (env : StartEnv) (s : State) : Host.Outcome State Fault Refusal :=
  match esc s.m 256 with
  | some x =>
    if x.rung = 4 ∧ !x.waitStitch then
      let m := zeroCtx s.m
      let m := warmPath { m with engs := m.engs.map (fun y => (y.1, { y.2 with inReset := false })) } env
      .next { s with m := match esc m 256 with
        | some y => rungDone m 256 y
        | none => m }
    else .next s
  | none => .next s

end Sys2Proof.Machine
end

