-- ==== Sys2Proof/Machine/BringCmd.lean ====
section
/-! DEFINITION. The bring-up commands ROLL_CALL, INSTALL_LICENCE, READ_LEDGER and SAVE_TRAINING (R392, R403, R410, R414, R419). -/

namespace Sys2Proof.Machine

/-! ### Buffers of list commands -/

/-- The status that refuses a list command's Buffer range before anything is written: MALFORMED, NOT_AUTHORISED, STALE_HANDLE; 0 for
none (R320, R364, R495). -/
def listBuf (m : Mach) (i : Issuer) (h : W32) (off len : Nat) (bad : Bool) : Nat :=
  firstStatus [
    (bad || bufMalformed i h off || off % 8 != 0 || (!bufStale m i h && decide (bufLen m i h < off + len)), St.malformed),
    (bufDenied m i h false true, St.notAuthorised), (bufStale m i h, St.staleHandle)] 0

/-- Answer a list command: `recs` holds the records from FIRST on, each of `size` bytes; as many whole ones as fit are written, and
`detail` tells the reply from their number. A LENGTH of 0 writes nothing, one below a record does not fit. -/
def listReply (m : Mach) (i : Issuer) (op : Nat) (p : Pkt) (h : W32) (off len size : Nat) (recs : List (List Byte)) (st : Nat)
    (detail : Nat → List W32) : Mach :=
  if 0 < len ∧ len < size then answer m i op p.cookie St.doesNotFit (w1 (size - len))
  else
    let out := (recs.take (len / size)).flatten
    answer (bufWrite m i h off out) i op p.cookie st (detail (min recs.length (len / size)) ++ replyData i h out)

/-! ### ROLL_CALL (R413, R414) -/

/-- A difference as 16 bytes. -/
def diffBytes (x : Diff) : List Byte :=
  leBytes 4 x.unit.toNat ++ leBytes 1 x.item ++ leBytes 1 x.cls ++ leBytes 1 x.expected ++ leBytes 1 x.found ++ leBytes 2 x.aux ++ zeros 6

/-- ROLL_CALL. -/
def doRollCall (m : Mach) (i : Issuer) (p : Pkt) : Mach :=
  let b := p.body
  let h := wAt b 0
  let off := w64At b 1
  let len := (wAt b 3).toNat
  let bad := listBuf m i h off len (b.length != 5 || decide (2 ≤ (wAt b 4).toNat))
  if bad != 0 then answer m i 0x0801 p.cookie bad []
  else
    let wait := hf m R.BUP_STATUS_WAIT_LICENCE == 1
    let m := match nbit (wAt b 4).toNat 0 && !wait, m.bup.env with
      | true, some e => rollCall2 m e
      | _, _ => m
    let l := m.bup.diffs
    let fatal := m.bup.diffFatal
    let st := firstStatus [(wait, St.licenceInvalid), (fatal != 0, St.topologyMismatch),
      (hf m R.BUP_STATUS_STALE == 1, St.trainingStale)] St.ok
    let result := if hf m R.HUB_STATUS_BRINGUP = 0 then 0 else if wait then 3 else diffResult m
    listReply m i 0x0801 p h off len 16 (l.map diffBytes) st (fun n =>
      w1 result ++ w1 m.bup.diffCount ++ w1 n ++ w1 fatal ++ w1 m.bup.diffDegraded)

/-- The meaning of ROLL_CALL. -/
def execRollCall (p : Pkt) (s : State) : Host.Outcome State Fault Refusal := hostRow 0x0801 p s (fun m i => doRollCall m i p)

/-! ### READ_LEDGER (R410) -/

/-- An entry as READ_LEDGER returns it: the package number in UNIT, and bit 1 of FLAGS for an entry of the summary alone. -/
def ledgerOut (m : Mach) (x : LedgerEntry × Bool) : List Byte :=
  let e := x.1
  withCrc true (leBytes 4 (e.unit ||| BitVec.ofNat 32 (pkgNum m * 2 ^ 24)).toNat ++ leBytes 1 e.cause ++
    leBytes 1 (b2n e.revoked + 2 * b2n x.2) ++ leBytes 2 e.detail ++ leBytes 4 e.seconds)

/-- READ_LEDGER. -/
def doReadLedger (m : Mach) (i : Issuer) (p : Pkt) : Mach :=
  let b := p.body
  let h := wAt b 0
  let off := w64At b 1
  let len := (wAt b 3).toNat
  let first := (wAt b 4).toNat
  let bad := listBuf m i h off len (b.length != 5)
  if bad != 0 then answer m i 0x0803 p.cookie bad []
  else
    let all := wholeLedger m
    listReply m i 0x0803 p h off len 16 ((all.drop first).map (ledgerOut m)) St.ok (fun n =>
      w1 all.length ++ w1 n ++ w1 (first + n))

/-- The meaning of READ_LEDGER. -/
def execReadLedger (p : Pkt) (s : State) : Host.Outcome State Fault Refusal := hostRow 0x0803 p s (fun m i => doReadLedger m i p)

/-! ### INSTALL_LICENCE (R391, R392) -/

/-- The licence that the flash holds: the valid copy that the next start would take. -/
def flashLicence (m : Mach) : List Byte :=
  let f := ownFlash m
  if licValid m f.lic0 then f.lic0 else if licValid m f.lic1 then f.lic1 else []

/-- Write a licence to both copies on both flashes: at once in force when the hub waits for one, else at the next start. -/
def putLicence (m : Mach) (l : List Byte) : Mach :=
  let m := updFlash m (fun f => { f with lic0 := l, lic1 := l })
  if hf m R.BUP_STATUS_WAIT_LICENCE = 0 then setHf m R.BUP_STATUS_LIC_PENDING 1
  else
    let m := setHf (setHf { m with bup := { m.bup with lic := l } } R.BUP_STATUS_WAIT_LICENCE 0) R.HUB_STATUS_BRINGUP 0
    match m.bup.env with
    | some e => startTail (coresInReset (applyHidden (showLicence m)) e) e (hf m R.BUP_STATUS_PATH == 0)
    | none => m

/-- INSTALL_LICENCE. -/
def doInstallLicence (m : Mach) (i : Issuer) (p : Pkt) : Mach :=
  let b := p.body
  let h := wAt b 0
  let off := w64At b 1
  let bad := firstStatus [
    (b.length != 3 || bufMalformed i h off || (!bufStale m i h && decide (bufLen m i h < off + 224)), St.malformed),
    (bufDenied m i h true false, St.notAuthorised), (bufStale m i h, St.staleHandle)] 0
  if bad != 0 then answer m i 0x0802 p.cookie bad []
  else
    let l := bufRead m h off 224
    let id := bytesAt l 16 4
    if l = m.bup.lic ∧ l ≠ [] then answer m i 0x0802 p.cookie St.ok (w1 id ++ w1 0)
    else if !licValid m l || decide (id < bytesAt (flashLicence m) 16 4) || decide (id < bytesAt m.bup.lic 16 4) then
      answer m i 0x0802 p.cookie St.licenceInvalid []
    else
      let now := hf m R.BUP_STATUS_WAIT_LICENCE
      answer (putLicence m l) i 0x0802 p.cookie St.ok (w1 id ++ w1 now)

/-- The meaning of INSTALL_LICENCE. -/
def execInstallLicence (p : Pkt) (s : State) : Host.Outcome State Fault Refusal :=
  hostRow 0x0802 p s (fun m i => doInstallLicence m i p)

/-! ### SAVE_TRAINING (R403) -/

/-- The parameters that an endpoint or channel now stands at: those of its latest record, else as it was trained. -/
def presentParams (m : Mach) (d place : Nat) (chan : Bool) : List Byte :=
  match savedRecord m d place chan, m.bup.env with
  | some r, _ => r.params
  | none, some e => (trainResult m e d place chan).params
  | none, none => []

/-- The training places of a scope. -/
def savePlaces (m : Mach) (s : Scope) : List (Nat × Nat × Bool) :=
  (trainPlaces m).filter (fun x => (scopeDies m s).contains x.1)

/-- A place is trained. -/
def placeUp (m : Mach) (x : Nat × Nat × Bool) : Bool :=
  (if x.2.2 then sf m x.1 R.STN_BUP_CHAN_UP x.2.1 else sf m x.1 R.STN_BUP_PORT_UP x.2.1) == 1

/-- Write the training records of places with their present values, into the flashes as well when that is asked (R400-R402). -/
def saveTraining (m : Mach) (places : List (Nat × Nat × Bool)) (flash : Bool) : Mach :=
  places.foldl (fun m x =>
    let t := freshRecord m x.1 x.2.1 x.2.2 (presentParams m x.1 x.2.1 x.2.2)
    let m := writeRecord_ m x.1 t
    if flash then writeFlashRecord m t else m) m

/-- SAVE_TRAINING. -/
def doSaveTraining (m : Mach) (i : Issuer) (p : Pkt) : Mach :=
  let b := p.body
  let s := scopeAt m b 0
  let st := firstStatus [
    (b.length != 5 || decide (2 ≤ (wAt b 4).toNat) || !(s.kind == 3 || s.kind == 5) || !scopeOk m b 0, St.malformed),
    (scopeDark m s, St.unitDark), (!pkgLevel m i 2, St.notAuthorised), (s.kind == 3 && scopeMoved m s, St.bindingMoved)] 0
  if st != 0 then answer m i 0x0806 p.cookie st []
  else
    let places := savePlaces m s
    let trained := places.filter (placeUp m)
    answer (saveTraining m trained (nbit (wAt b 4).toNat 0)) i 0x0806 p.cookie St.ok
      (w1 trained.length ++ w1 (places.length - trained.length))

/-- The meaning of SAVE_TRAINING. -/
def execSaveTraining (p : Pkt) (s : State) : Host.Outcome State Fault Refusal :=
  hostRow 0x0806 p s (fun m i => doSaveTraining m i p)

end Sys2Proof.Machine
end

