-- ==== Sys2Proof/Machine/CodecCmd.lean ====
section
/-! DEFINITION. ENCODE and DECODE on the hub Codec (R205-R213). -/

namespace Sys2Proof.Machine

/-- The issuer holds a level above NONE over some partition. -/
def anyLevel (m : Mach) (i : Issuer) : Bool := (List.range 256).any (fun q => decide (1 ≤ issLevel m i q))

/-- The fields that ENCODE and DECODE share (Table 6.7), with the source length in bytes. -/
structure CodecArgs where
  src : W32
  srcOff : Nat
  srcLen : Nat
  dst : W32
  dstOff : Nat
  dstLen : Nat
  blocks : Nat
  cls : Nat
  need : Nat
  excess : Nat
  deriving DecidableEq, Repr

/-- A range runs past the end of a current Buffer. -/
def beyond (m : Mach) (i : Issuer) (h : W32) (off len : Nat) : Bool :=
  match bufGet m i h with
  | some b => decide (b.length < off + len)
  | none => false

/-- Two ranges have a byte in common. -/
def rangesMeet (a n b k : Nat) : Bool := decide (0 < n) && decide (0 < k) && decide (a < b + k) && decide (b < a + n)

/-- Table 6.8: the status, and the detail of DOES_NOT_FIT. -/
def codecStatus (m : Mach) (i : Issuer) (a : CodecArgs) (bad : Bool) : Nat × List W32 :=
  let classBad := !(a.cls == 2 || a.cls == 4 || a.cls == 8)
  let st := firstStatus [
    (bad || classBad || a.srcOff % 8 != 0 || a.dstOff % 8 != 0 || bufMalformed i a.src a.srcOff ||
      bufMalformed i a.dst a.dstOff || beyond m i a.src a.srcOff a.srcLen || beyond m i a.dst a.dstOff a.dstLen, St.malformed),
    (!anyLevel m i || bufDenied m i a.src true false || bufDenied m i a.dst false true, St.notAuthorised),
    (bufStale m i a.src || bufStale m i a.dst, St.staleHandle),
    (a.src == a.dst && rangesMeet a.srcOff a.srcLen a.dstOff a.dstLen, St.malformed),
    (a.excess != 0, St.doesNotFit), (decide (a.dstLen < a.need), St.doesNotFit)] St.ok
  (st, if st = St.doesNotFit then (if a.excess != 0 then w1 a.excess else w1 (a.need - a.dstLen)) else [])

/-! ### The hub Codec's turns (R212, R213) -/

/-- A command that has passed its checks joins the Codec's queue, behind one block of each that is there. Its counters start at 0;
`retired` counts its turns. -/
def startCodec (m : Mach) (i : Issuer) (op : Nat) (p : Pkt) : Mach :=
  let turn := (codecCmds m).foldl (fun n c => Nat.max n c.retired) 0
  let (c, m) := newCmd m i op p.cookie p.body noScope
  updCmd m c.id (fun x => { x with retired := turn, vals := List.replicate 6 0 })

/-- A counter of a Codec command. -/
def codecVal (c : Cmd) (k : Nat) : Nat := c.vals.getD k 0

/-- Add to one. -/
def codecAdd (c : Cmd) (k n : Nat) : Cmd := { c with vals := c.vals.set k (codecVal c k + n) }

/-- Note the first block of a kind: the counter holds one more than its index, 0 for none. -/
def codecFirst (c : Cmd) (k n : Nat) : Cmd := if codecVal c k = 0 then { c with vals := c.vals.set k (n + 1) } else c

/-! ### ENCODE (R210) -/

/-- The arguments of an ENCODE. -/
def encodeArgs (b : List W32) : CodecArgs :=
  let len := (wAt b 3).toNat
  let blocks := (len + 4095) / 4096
  let cls := wfld (wAt b 8) 4 4
  { src := wAt b 0, srcOff := w64At b 1, srcLen := len, dst := wAt b 4, dstOff := w64At b 5, dstLen := (wAt b 7).toNat,
    blocks := blocks, cls := cls, need := blocks * (4096 / cls), excess := len - 67108864 }

/-- Encode block n of a source into its slot; a refused one leaves an empty slot. Counters: encoded, refused, failed its self-check, first
refused, bytes. -/
def encodeStep (m : Mach) (c : Cmd) (n : Nat) : Mach × Cmd :=
  let a := encodeArgs c.body
  let w := wAt c.body 8
  let s := 4096 / a.cls
  let vlen := Nat.min 4096 (a.srcLen - 4096 * n)
  let inp := bufRead m a.src (a.srcOff + 4096 * n) vlen
  let put (bytes : List Byte) : Mach := bufWrite m (issuerOf c) a.dst (a.dstOff + s * n) bytes
  match encodeBlock inp vlen (widthCode (wfld w 0 4)) (wfld w 8 2) a.cls (wfld w 10 2) (((wAt c.body 9).toNat + n) % 2 ^ 32) with
  | .slot bytes plen => (incHf (put bytes) R.CDC_ENC_CNT_ENCODED, codecAdd (codecAdd c 0 1) 4 (40 + plen))
  | .incompressible => (incHf (put (zeros s)) R.CDC_ENC_CNT_INCOMPRESSIBLE, codecFirst (codecAdd c 1 1) 3 n)
  | .selfcheckFail => (incHf (put (zeros s)) R.CDC_ENC_CNT_SELFCHECK, codecFirst (codecAdd c 2 1) 3 n)

/-- The reply detail of an ENCODE. -/
def encodeDetail (c : Cmd) : List W32 :=
  w1 (codecVal c 0) ++ w1 (codecVal c 1) ++ w1 (codecVal c 2) ++ w1 (if codecVal c 3 = 0 then 0xFFFFFFFF else codecVal c 3 - 1) ++
  w2 (codecVal c 4)

/-- The status of an ENCODE of which every block has been served (R210). -/
def encodeStatus (c : Cmd) : Nat :=
  firstStatus [(codecVal c 2 != 0, St.selfcheckFail), (codecVal c 1 != 0, St.incompressible)] St.ok

/-- ENCODE: the checks; then the Codec serves its blocks. -/
def doEncode (m : Mach) (i : Issuer) (p : Pkt) : Mach :=
  let b := p.body
  let w := wAt b 8
  let a := encodeArgs b
  let bad := b.length != 10 || wfld w 0 4 == 15 || wfld w 8 2 == 3 || wfld w 10 2 == 3 || wfld w 12 20 != 0
  let (st, detail) := codecStatus m i a bad
  if st != 0 then answer m i 0x0401 p.cookie st detail
  else if a.blocks = 0 then answer m i 0x0401 p.cookie St.ok (w1 0 ++ w1 0 ++ w1 0 ++ w1 0 ++ w2 0)
  else startCodec m i 0x0401 p

/-- The meaning of ENCODE. -/
def execEncodeCmd (p : Pkt) (s : State) : Host.Outcome State Fault Refusal :=
  hostRow 0x0401 p s (fun m i => doEncode m i p)

/-! ### DECODE (R211) -/

/-- The arguments of a DECODE. -/
def decodeArgs (b : List W32) : CodecArgs :=
  let n := (wAt b 3).toNat
  let cls := wfld (wAt b 8) 4 4
  { src := wAt b 0, srcOff := w64At b 1, srcLen := n * (4096 / cls), dst := wAt b 4, dstOff := w64At b 5,
    dstLen := (wAt b 7).toNat, blocks := n, cls := cls, need := n * 4096, excess := n - 16384 }

/-- Decode source slot n into its 4 KiB; an empty slot, a stub and a failed block write nothing. Counters: decoded, empty, stubs, failed,
the first failure and its reason. -/
def decodeStep (m : Mach) (c : Cmd) (n : Nat) : Mach × Cmd :=
  let a := decodeArgs c.body
  let s := 4096 / a.cls
  let check := wfld (wAt c.body 8) 16 1 == 1
  let slot := bufRead m a.src (a.srcOff + s * n) s
  match decodeSlot slot a.cls (if check then some (((wAt c.body 9).toNat + n) % 2 ^ 32) else none) with
  | .empty => (m, codecAdd c 1 1)
  | .stub _ _ => (incHf m R.CDC_DEC_CNT_STUBS, codecAdd c 2 1)
  | .failed r =>
    (incHf m R.CDC_DEC_CNT_FAILED,
      codecAdd (codecFirst (if codecVal c 4 = 0 then { c with vals := c.vals.set 5 r } else c) 4 n) 3 1)
  | .bytes l => (incHf (bufWrite m (issuerOf c) a.dst (a.dstOff + 4096 * n) l) R.CDC_DEC_CNT_DECODED, codecAdd c 0 1)

/-- The reply detail of a DECODE. -/
def decodeDetail (c : Cmd) : List W32 :=
  w1 (codecVal c 0) ++ w1 (codecVal c 1) ++ w1 (codecVal c 2) ++ w1 (codecVal c 3) ++
  w1 (if codecVal c 4 = 0 then 0xFFFFFFFF else codecVal c 4 - 1) ++ w1 (codecVal c 5)

/-- The status of a DECODE of which every slot has been served (R211). -/
def decodeStatus (c : Cmd) : Nat :=
  firstStatus [(codecVal c 5 == 2, St.formatUnsupported), (codecVal c 5 != 0, St.crcMismatch)] St.ok

/-- DECODE: the checks; then the Codec serves its slots. -/
def doDecode (m : Mach) (i : Issuer) (p : Pkt) : Mach :=
  let b := p.body
  let w := wAt b 8
  let a := decodeArgs b
  let bad := b.length != 10 || wfld w 0 4 != 0 || wfld w 8 8 != 0 || wfld w 17 15 != 0
  let (st, detail) := codecStatus m i a bad
  if st != 0 then answer m i 0x0402 p.cookie st detail
  else if a.blocks = 0 then answer m i 0x0402 p.cookie St.ok (w1 0 ++ w1 0 ++ w1 0 ++ w1 0 ++ w1 0 ++ w1 0)
  else startCodec m i 0x0402 p

/-- The meaning of DECODE. -/
def execDecodeCmd (p : Pkt) (s : State) : Host.Outcome State Fault Refusal :=
  hostRow 0x0402 p s (fun m i => doDecode m i p)

/-! ### One block -/

/-- The Codec command whose turn it is: the one that has had the fewest turns, of equals the one dispatched first. -/
def codecNext (m : Mach) : Option Cmd :=
  (codecCmds m).foldl (fun acc c => match acc with
    | none => some c
    | some x => if c.retired < x.retired then some c else some x) none

/-- A Codec command ends. -/
def codecEnd (m : Mach) (c : Cmd) (stale : Bool) : Mach :=
  let encode := c.op == 0x0401
  let st := if stale then St.staleHandle else if encode then encodeStatus c else decodeStatus c
  finish m c.id st (if encode then encodeDetail c else decodeDetail c)

/-- The hub Codec serves one block of the command whose turn it is, so that the commands of different Sessions interleave block by block
(R213). Before the block the handles are looked up again, and one that is stale by now ends the command there (R212). -/
def codecTurn (m : Mach) : Mach :=
  match codecNext m with
  | none => m
  | some c =>
    let a := if c.op = 0x0401 then encodeArgs c.body else decodeArgs c.body
    if bufStale m (issuerOf c) a.src || bufStale m (issuerOf c) a.dst then codecEnd m c true
    else
      let (m, c) := if c.op = 0x0401 then encodeStep m c c.phase else decodeStep m c c.phase
      let c := { c with phase := c.phase + 1, retired := c.retired + 1 }
      let m := updCmd m c.id (fun _ => c)
      if c.phase < a.blocks then m else codecEnd m c false

end Sys2Proof.Machine
end

