-- ==== Sys2Proof/Machine/SpineRx.lean ====
section
/-! DEFINITION. What the hub does with what comes back over the Spine: responses, timeouts, gathers, heartbeats, events, breaks
and trunks (R26, R51-R67, R135, R485-R490, R519, R520). -/

namespace Sys2Proof.Machine

/-! ### Responses (R51-R53) -/

/-- The command of a request gets its answer; a request with no command is the rewrite of a configuration, which stays owed when
it fails (R523). -/
def answerReq (m : Mach) (r : OutReq) (status : Nat) (data : List Byte) (answered : Bool) : Mach :=
  match findCmd m r.cmd with
  | none =>
    match r.req.target with
    | .config kind part _ _ => if answered then m else oweConfig m r.req.die kind part
    | _ => m
  | some c =>
    if c.op = 0x0204 ∨ c.op = 0x0205 then peekResponse m c r.req status data
    else if c.op = 0x0206 ∨ c.op = 0x0207 then breakResponse m c status
    else if c.op = 0x0504 then faultResponse m c r.req (if answered && (status == 0 || status == 5) then some data else none)
    else configResponse m c r.req (if answered then some status else none)

/-- A request is no longer outstanding. -/
def dropReq (m : Mach) (r : OutReq) : Mach :=
  { m with spine := { m.spine with reqs := m.spine.reqs.filter (fun x => !(x.ring == r.ring && x.tag == r.tag)) } }

/-- Every command sends what the limit of 16 per Station now lets go, a Station's owed configuration first (R53, R523). -/
def pumpAll (m : Mach) (d : Nat) : Mach :=
  let m := if stnAnswers m d then rewriteOwed m d else m
  (m.cmds.map (fun c => c.id)).foldl pump m

/-- The hub receives a response: the request is answered, its Station has been heard, and STATUS goes to the command. -/
def takeResponse (m : Mach) (die : Nat) (f : Frame) : Mach :=
  match m.spine.reqs.find? (fun r => r.ring == ringOf die && r.tag == f.tag && r.req.die == die) with
  | none => m
  | some r =>
    let status := fld f.word1 24 8
    let m := heard (dropReq m r) die
    let m := if status = 5 then setRsvd m else m
    releaseRing (pumpAll (answerReq m r status f.payload true) die) r.ring

/-- The meaning of RD_RSP. -/
def execRdRsp (die : Nat) (f : Frame) (fin : FrameEnd) (s : State) : Host.Outcome State Fault Refusal :=
  hubRow die f fin 3 s fun m => takeResponse m die f

/-- The meaning of WR_RSP. -/
def execWrRsp (die : Nat) (f : Frame) (fin : FrameEnd) (s : State) : Host.Outcome State Fault Refusal :=
  hubRow die f fin 4 s fun m => takeResponse m die f

/-! ### Gathers (R56-R58, R135) -/

/-- A gather has come back whole, or been given up: its command adds it, and completes with its last one. -/
def gatherDone (m : Mach) (g : OutGather) : Mach :=
  let m := { m with spine := { m.spine with gathers := m.spine.gathers.filter (fun x => !(x.ring == g.ring && x.tag == g.tag)) } }
  match findCmd m g.cmd with
  | none => m
  | some c =>
    let n := g.len / 4
    let m := updCmd m c.id (fun x => { x with
      vals := (List.range 8).map (fun k => satN 32 (x.vals.getD k 0 + (if k < n then bytesAt g.acc (4 * k) 4 else 0))),
      seen := (bitsOf g.visited 25).foldl (fun b p => setBit b (dieAt g.ring p)) x.seen })
    match findCmd m c.id with
    | some c =>
      if m.spine.gathers.any (fun x => x.cmd == c.id) then m
      else if c.op = 0x0209 then completeHeadcount m c
      else if c.op = 0x0301 then stitchGathered m c
      else if c.op = 0x0504 then faultGathered m c
      else m
    | none => m

/-- A Station of a ring was missing from a gather or heartbeat: the hub takes it as silent (R520). -/
def missed (m : Mach) (d : Nat) : Mach := if nbit m.spine.silent d then m else settled (silence m d)

/-- What the VISITED bits of a ring tell of its Stations: those that are reached and present have been heard, or are missing. -/
def noteVisited (m : Mach) (k visited : Nat) : Mach :=
  (List.range 25).foldl (fun m p =>
    let d := dieAt k p
    if !reachable m d then m else if nbit visited p then heard m d else missed m d) m

/-- The combined payload of two copies: each Station is passed by one of them (R61). -/
def joinCopies (gkind len : Nat) (a b : List Byte) : List Byte :=
  if gkind = 3 then zipParts 1 (fun x y => x ||| y) len a b else gatherJoin gkind len 0 a b

/-- The hub receives a copy of a gather. -/
def takeGather (m : Mach) (ring : Nat) (f : Frame) : Mach :=
  match m.spine.gathers.find? (fun g => g.ring == ring && g.tag == f.tag) with
  | none => m
  | some g =>
    let g' := { g with copies := g.copies - 1, visited := g.visited ||| fld f.word1 0 25,
                       acc := joinCopies g.gkind g.len g.acc (padTo g.len f.payload) }
    if g'.copies = 0 then releaseRing (gatherDone (noteVisited m ring g'.visited) g') ring
    else { m with spine := { m.spine with gathers := m.spine.gathers.map (fun x =>
      if x.ring == ring && x.tag == f.tag then g' else x) } }

/-- The meaning of GATHER_RETURN; one that ends badly is counted for its ring and dropped, and times out (R45, R57). -/
def execGatherReturn (ring : Nat) (f : Arrival) (s : State) : Host.Outcome State Fault Refusal :=
  if 4 ≤ ring then .fault .noSuchUnit
  else if f.frame.ftype ≠ 6 then .next s
  else if f.fin = .good then .next { s with m := takeGather s.m ring f.frame }
  else .next { s with m := incHf s.m R.SPN_RING_ERR_CRC_ERR 1 ring }

/-! ### Timeouts (R52, R57) -/

/-- A request has waited long enough: it is sent again with its TAG, over the routes of now and under the share, or given up, and then its
Station is silent and its command fails (R52, R62, R65, R520). -/
def reqTimeout (m : Mach) (r : OutReq) : Mach :=
  if r.tries < hf m R.SPN_CTL_RETRIES then
    let f := { r.req.frame with dir := dirTo m r.req.die }
    let r' := { r with tries := r.tries + 1, req := { r.req with frame := f } }
    let m := { m with spine := { m.spine with reqs := m.spine.reqs.map (fun x =>
      if x.ring == r.ring && x.tag == r.tag then r' else x) } }
    releaseRing (launch (incHf m R.SPN_RING_ERR_RESENDS 1 r.ring) r.ring f) r.ring
  else
    let m := incHf (dropReq m r) R.SPN_RING_ERR_TIMEOUTS 1 r.ring
    let m := answerReq m r 0xFF [] false
    releaseRing (pumpAll (missed m r.req.die) r.req.die) r.ring

/-- A gather is lost: it is sent again with a new TAG, or given up with no Station visited (R57). -/
def gatherTimeout (m : Mach) (g : OutGather) : Mach :=
  let m := { m with spine := { m.spine with gathers := m.spine.gathers.filter (fun x => !(x.ring == g.ring && x.tag == g.tag)) } }
  if g.tries < hf m R.SPN_CTL_RETRIES then
    let m := gatherRing (incHf m R.SPN_RING_ERR_RESENDS 1 g.ring) g.cmd g.gkind g.query g.len g.init (cmdRoutine m g.cmd) g.ring
    releaseRing { m with spine := { m.spine with gathers := m.spine.gathers.map (fun x =>
      if x.ring == g.ring && x.tag == (Store.get 0 m.spine.nextTag g.ring + 2 ^ 16 - 1) % 2 ^ 16 then
        { x with tries := g.tries + 1 } else x) } } g.ring
  else
    releaseRing (gatherDone (noteVisited (incHf m R.SPN_RING_ERR_TIMEOUTS 1 g.ring) g.ring 0)
      { g with visited := 0, acc := g.init }) g.ring

/-- The meaning of RESPONSE_TIMEOUT; what still waits at the hub has no time-out (R67). -/
def execResponseTimeout (ring tag : Nat) (s : State) : Host.Outcome State Fault Refusal :=
  if 4 ≤ ring then .fault .noSuchUnit
  else
    let m := s.m
    match m.spine.reqs.find? (fun r => r.ring == ring && r.tag == tag),
          m.spine.gathers.find? (fun g => g.ring == ring && g.tag == tag) with
    | some r, _ =>
      if r.due ≤ gtcNow m ∧ !waitsAtHub m ring tag true then .next { s with m := reqTimeout m r } else .next s
    | none, some g =>
      if g.due ≤ gtcNow m ∧ !waitsAtHub m ring tag false then .next { s with m := gatherTimeout m g } else .next s
    | none, none => .next s

/-! ### Heartbeats (R58, R489) -/

/-- A HEARTBEAT frame. -/
def beatFrame (m : Mach) (dir : Nat) : Frame :=
  { ftype := 10, dir := dir, dest := 0x7F, src := hubDie m, word1 := BitVec.ofNat 64 (m.spine.beatSeq % 2 ^ 32 * 2 ^ 32) }

/-- What a heartbeat tells of one Station: heard, missing once, or missing twice in a row and then faulted. -/
def beatStation (k visited : Nat) (m : Mach) (p : Nat) : Mach :=
  let d := dieAt k p
  let n := Store.get 0 m.spine.missed d
  let count (m : Mach) (v : Nat) : Mach := { m with spine := { m.spine with missed := Store.put 0 m.spine.missed d v } }
  if !reachable m d || nbit m.hth.faulted d then m
  else if nbit visited p then heard (count m 0) d
  else if n = 0 then missed (count m 1) d
  else settled (declareFaulted (count m 0) d)

/-- What returns of a HEARTBEAT: each Station that works (`alive`, which the surroundings tell) and that the ring reaches sets its VISITED
bit in the frame as it passes (R58). -/
def beatReturn (m : Mach) (ring alive : Nat) (f : Frame) : Frame :=
  (List.range 25).foldl (fun f p => if nbit alive p && stnLive m (dieAt ring p) then setVisited f p else f) f

/-- The meaning of HEARTBEAT: the hub sends one on a ring every 1 µs, one copy per arm of a masked ring, and reads what returns. -/
def execHeartbeat (ring alive : Nat) (s : State) : Host.Outcome State Fault Refusal :=
  if 4 ≤ ring then .fault .noSuchUnit
  else
    let m := s.m
    if !nbit (hf m R.SPN_STATUS_RING_UP) ring || nbit m.spine.hold ring || decide (gtcNow m < Store.get 0 m.spine.beats ring) then
      .next s
    else
      let visited := fld (beatReturn m ring alive (beatFrame m 0)).word1 0 25
      let m := launch m ring (beatFrame m 0)
      let m := if ringMasked m ring then launch m ring (beatFrame m 1) else m
      let m := { m with spine := { m.spine with beatSeq := m.spine.beatSeq + 1,
                                                beats := Store.put 0 m.spine.beats ring (gtcNow m + 1000) } }
      .next { s with m := (List.range 25).foldl (beatStation ring visited) m }

/-! ### Breaks (R60-R64, R487) -/

/-- The meaning of SEGMENT_DOWN. -/
def execSegmentDown (ring pos lanesLo lanesHi : Nat) (s : State) : Host.Outcome State Fault Refusal :=
  if 4 ≤ ring ∨ 25 ≤ pos then .fault .noSuchUnit
  else .next { s with m := breakSegment s.m ring pos lanesLo lanesHi }

/-- The hub has heard that both segments of a position are down: its Station has faulted (R487). -/
def faultAlone (k : Nat) (m : Mach) (p : Nat) : Mach :=
  if m.spine.known.contains (k, p) && m.spine.known.contains (k, segBefore p) && posPresent m k p then
    let m := settled (declareFaulted m (dieAt k p))
    if p = 0 then syncRoutes m k else m
  else m

/-- The hub learns of a segment that is down: it counts and latches the fault, changes the routes, and declares a Station faulted
that has lost both (R62, R63, R486). One that is whole again has been counted at its return (R64). -/
def learnBreak (m : Mach) (d k p : Nat) : Mach :=
  if m.spine.known.contains (k, p) || !m.spine.down.contains (k, p) then m
  else
    let m := { m with spine := { m.spine with known := m.spine.known ++ [(k, p)] } }
    let m := latchFault (incHf m R.SPN_RING_ERR_BREAKS 1 k) 3 (stnPath m d) d
    let m := changeRoutes m k
    settled ([p, (p + 1) % 25].foldl (faultAlone k) m)

/-- A Station's frames reach the hub over what is whole of its ring and of the trunks. -/
def frameArrives (m : Mach) (d : Nat) : Bool :=
  let k := ringOf d
  trunkPath m k && posPresent m k 0 && posPresent m k (posOf d) && !nbit m.hth.faulted d && !nbit m.hth.faulted (96 + k) &&
  routeReaches (ringBreaks m.spine.down k) (posOf d)

/-- The EVENT frame of a queued event (Table 2.3): DEST is the serving hub, and DIR that of R48; while the ring is masked the direction that
does not cross the break (R59, R61; log entry 81). -/
def eventFrame (m : Mach) (d : Nat) (e : Ev) : Frame :=
  { ftype := 8, dir := if ringMasked m (ringOf d) then 1 - dirTo m d else dirTo m d, dest := 0x7E, src := d,
    len := 8 + 4 * e.detail.length, word1 := BitVec.ofNat 64 (e.source.toNat + e.code * 2 ^ 32),
    payload := leBytes 8 e.stamp ++ wordsBytes e.detail }

/-- What the hub reads from an EVENT frame. -/
def eventOf (f : Frame) (e : Ev) : Ev :=
  { e with code := fld f.word1 32 16, source := BitVec.ofNat 32 (fld f.word1 0 32), stamp := bytesAt f.payload 0 8,
           detail := bytesWords (f.payload.drop 8) }

/-- The hub takes an EVENT frame and delivers the event; a SEGMENT_DOWN it learns from (R59, R60, R519). -/
def takeEvent (m : Mach) (d : Nat) (e : Ev) : Mach :=
  let m := if e.code = EvCode.segmentDown then learnBreak m d ((wAt e.detail 0).toNat) ((wAt e.detail 1).toNat) else m
  fenceAll (if e.onlyParts then raiseEv m e else raiseOn m d e)

/-- The meaning of EVENT: a Station sends the oldest of its queued events, and the hub takes it (R59, R519). -/
def execEventFrame (die : Nat) (s : State) : Host.Outcome State Fault Refusal :=
  if 100 ≤ die then .fault .noSuchUnit
  else
    match (stn s.m die).events with
    | [] => .next s
    | e :: r =>
      if frameArrives s.m die then
        let f := eventFrame s.m die e
        let m := stnSend (updStn s.m die (fun x => { x with events := r })) die true f .good
        .next { s with m := takeEvent m die (eventOf f e) }
      else .next s

/-! ### Retraining (R64, R88) -/

/-- A round of exchanges has ended: the segments that were retrained before it carry the ring's frames again. The hub counts each
recovery, with its loss where it had not heard of it, and ends masked mode under the hold of R62 (R64, R87, R88). -/
def endRetrain (m : Mach) (k : Nat) : Mach :=
  let back := m.spine.retrained.filter (fun x => x.1 == k)
  if back.isEmpty then m
  else
    let lost := back.filter (fun x => !m.spine.known.contains x)
    let keep (l : List (Nat × Nat)) : List (Nat × Nat) := l.filter (fun x => !back.contains x)
    let m := { m with spine := { m.spine with down := keep m.spine.down, known := keep m.spine.known, retrained := keep m.spine.retrained } }
    let m := incHf (syncStations m k) R.SPN_RING_ERR_BREAKS (back.length + lost.length) k
    let m := lost.foldl (fun m x => latchFault m 3 (stnPath m (dieAt k x.2)) (dieAt k x.2)) m
    settled (changeRoutes m k)

/-- The meaning of RETRAIN: the Stations of a down segment retrain it every 10 ms; when that passes the hub runs the echo calibration
before it ends masked mode (R64, R88). -/
def execRetrain (ring pos : Nat) (passed : Bool) (s : State) : Host.Outcome State Fault Refusal :=
  if 4 ≤ ring ∨ 25 ≤ pos then .fault .noSuchUnit
  else
    let m := s.m
    let ends := [pos, (pos + 1) % 25]
    let alive := ends.all (fun p => posPresent m ring p && !nbit m.hth.faulted (dieAt ring p))
    if passed && alive && m.spine.down.contains (ring, pos) && !m.spine.retrained.contains (ring, pos) then
      let m := startEchoes { m with spine := { m.spine with retrained := m.spine.retrained ++ [(ring, pos)] } } ring
      .next { s with m := if Store.get 0 m.time.calOpen ring = 0 then endRetrain m ring else m }
    else .next s

/-- The meaning of ECHO_RSP; the last one of a round writes the path delays and ends what waited for it (R87, R88). -/
def execEchoRsp (die : Nat) (f : Frame) (t4 : W64) (s : State) : Host.Outcome State Fault Refusal :=
  if 100 ≤ die then .fault .noSuchUnit
  else if stnUp s.m die && f.ftype == 7 && payByte f 8 == 3 && f.dest == die then
    let m := doEchoRsp s.m die f t4.toNat
    let k := ringOf die
    if Store.get 0 s.m.time.calOpen k ≠ 0 ∧ Store.get 0 m.time.calOpen k = 0 then .next { s with m := endRetrain m k }
    else .next { s with m := m }
  else .next s

/-! ### Trunks (R39, R486) -/

/-- A trunk bit of SPN_TRUNK. -/
def setTrunk (m : Mach) (t : Nat) (v : Bool) : Mach :=
  let x := hf m R.SPN_TRUNK_TRUNK_UP
  setHf m R.SPN_TRUNK_TRUNK_UP (if v then setBit x t else clrBit x t)

/-- The meaning of TRUNK_DOWN. -/
def execTrunkDown (trunk : Nat) (s : State) : Host.Outcome State Fault Refusal :=
  if 4 ≤ trunk then .fault .noSuchUnit
  else if !trunkUp s.m trunk then .next s
  else
    let m := incHf (setTrunk s.m trunk false) R.SPN_TRUNK_TRUNK_BREAKS
    let d := 96 + trunk
    let m := reportFault m EvCode.healthFault 4 (stnPath m d) d
    .next { s with m := settled ((List.range 4).foldl changeRoutes m) }

/-- The meaning of TRUNK_RESTORED. -/
def execTrunkRestored (trunk : Nat) (s : State) : Host.Outcome State Fault Refusal :=
  if 4 ≤ trunk then .fault .noSuchUnit
  else if trunkUp s.m trunk || s.m.bup.env.isNone then .next s
  else
    .next { s with m := settled ((List.range 4).foldl changeRoutes (setTrunk s.m trunk true)) }

/-! ### The Routine share (R65-R67) -/

/-- Frames that the share has held for a ring direction go in order while the window allows it. -/
def shareLaunch (m : Mach) (k dir : Nat) : Nat → Mach
  | 0 => m
  | n + 1 =>
    match m.spine.heldFrames.find? (fun h => h.1 == k && h.2.1 == dir) with
    | none => m
    | some h =>
      if nbit m.spine.hold k || decide (shareNs m ≤ shareUsed m k dir) then m
      else
        let m := { m with spine := { m.spine with heldFrames := m.spine.heldFrames.erase h } }
        shareLaunch (sendNow (shareCharge m k dir (chargeNs h.2.2)) k h.2.2) k dir n

/-- The meaning of SHARE_RELEASE: a new window begins; the µs that frames waited count in STALL_US. -/
def execShareRelease (ring dir : Nat) (s : State) : Host.Outcome State Fault Refusal :=
  if 4 ≤ ring ∨ 2 ≤ dir then .fault .noSuchUnit
  else
    let m := s.m
    if !(m.spine.heldFrames.any (fun h => h.1 == ring && h.2.1 == dir)) ∨ nbit m.spine.hold ring ∨ shareNs m ≤ shareUsed m ring dir then
      .next s
    else
      let key := 2 * ring + dir
      let us := (gtcNow m - Store.get 0 m.spine.stallSince key) / 1000
      let m := incHf m R.SPN_RING_LOAD_STALL_US us ring
      let m := shareLaunch m ring dir m.spine.heldFrames.length
      let left := m.spine.heldFrames.any (fun h => h.1 == ring && h.2.1 == dir)
      .next { s with m := { m with spine := { m.spine with
        stallSince := Store.put 0 m.spine.stallSince key (if left then gtcNow m else 0) } } }

end Sys2Proof.Machine
end

