-- ==== Sys2Proof/Machine/Health.lean ====
section
/-! DEFINITION. Faults of Stations, Taps, memories and datapaths, scrubbing, wear, the health commands, and DMA failures
(R487-R496, R502, R508). -/

namespace Sys2Proof.Machine

/-! ### Stations and Taps (R487, R488) -/

/-- A Station stops driving both of its ring outputs: its neighbours declare their segments down and raise SEGMENT_DOWN with
lanes UNKNOWN (R60, R487). -/
def silentStation (m : Mach) (d : Nat) : Mach :=
  let k := ringOf d
  let p := posOf d
  let fresh := [(p, (p + 1) % 25), (segBefore p, segBefore p)].filter (fun x => !m.spine.down.contains (k, x.1))
  let down := m.spine.down ++ fresh.map (fun x => (k, x.1))
  let rest := m.spine.retrained.filter (fun x => !(x.1 == k && (x.2 == p || x.2 == segBefore p)))
  let m := syncStations { m with spine := { m.spine with down := down, retrained := rest } } k
  fresh.foldl (fun m x => segEvent m k x.2 x.1 3) m

/-- The meaning of STATION_FAULT. -/
def execStationFault (die : Nat) (s : State) : Host.Outcome State Fault Refusal :=
  if 100 ≤ die then .fault .noSuchUnit
  else if stnUp s.m die then .next { s with m := silentStation s.m die }
  else .next s

/-- The meaning of TAP_FAULT. -/
def execTapFault (die tap : Nat) (s : State) : Host.Outcome State Fault Refusal :=
  if !tapOk die tap then .fault .noSuchUnit
  else if stnUp s.m die then .next { s with m := faultTap s.m die tap }
  else .next s

/-- The meaning of TAP_ALIVE_POLL: `dead` has a bit for each Tap whose alive bit is missing; a Tap without power has none to
show. -/
def execTapAlivePoll (die dead : Nat) (s : State) : Host.Outcome State Fault Refusal :=
  if 64 ≤ die then .fault .noSuchUnit
  else if stnUp s.m die then
    .next { s with m := ((bitsOf dead 128).filter (fun p => (core_ s.m die p).powered)).foldl (fun m p => faultTap m die p) s.m }
  else .next s

/-! ### SECDED and parity (R491, R492) -/

/-- The array lies in the hub. -/
def hubArray : EccArray → Bool
  | .policyProcessor => true
  | .mergeBuffer => true
  | .sessionSlot => true
  | .routineSlot => true
  | _ => false

/-- The die whose health an error counts for. -/
def eccDie (m : Mach) (x : Ecc) : Nat := if hubArray x.array then hubDie m else x.die

/-- Corrected errors of the hub (no die) or of a Station are counted and masked. -/
def eccCorrected (m : Mach) (die : Option Nat) (n : Nat) : Mach :=
  let (m, d) := match die with
    | none => (incHf m R.HTH_FAULT_CNT_CORRECTED n, hubDie m)
    | some d => (incSf m d R.STN_ECC_CORRECTED n, d)
  updDie m d (fun y => { y with corrected := satN 32 (y.corrected + n) })

/-- The Merge Buffer: the record concerned becomes a CORRUPT record of the serving hub. -/
def corruptMerged (m : Mach) (slot k : Nat) : Mach :=
  updStream m slot (fun x => { x with merge := x.merge.map (fun g =>
    match g.waiting[k]? with
    | none => g
    | some r => { g with waiting := g.waiting.set k { key := r.key, die := r.die, stamp := r.stamp, source := hubPath m,
                                                      window := r.window, ty := 11 } }) })

/-- A Routine slot: runs of the Routine end with ABORTED, and it runs no more until it is loaded anew. -/
def spoilRoutine (m : Mach) (slot : Nat) : Mach :=
  match (residents m)[slot]? with
  | none => m
  | some r =>
    let m := updRoutine m r.handle r.sid (fun y => { y with spoiled := true })
    ((m.rtn.runs.filter (fun x => x.routine == r.handle && x.sid == r.sid)).map (fun x => x.index)).foldl stopRun m

/-- A frame that a merge has not read yet turns out CORRUPT: one CORRUPT record stands for its records, and the next record of each of
its sources carries GAP (R280, R281). -/
def corruptUnread (g : Merge) (key die seq stamp : Nat) (source : W32) : Merge :=
  if !g.unread.contains key then g
  else
    let srcs := ((g.waiting.filter (fun r => r.key == key)).map (fun r => r.source)).dedup
    let rest := g.waiting.filter (fun r => r.key != key)
    let (before, after) := rest.partition (fun r => decide (r.stamp < stamp))
    let marked := srcs.foldl (fun (l : List MergeRec) u => match l.findIdx? (fun r => r.source == u) with
      | some i => l.modify i (fun r => { r with gap := true })
      | none => l) after
    let c : List MergeRec := if g.low ≤ stamp ∧ stamp < g.high then
      [{ key := key, die := die, stamp := stamp, source := source, ty := 11, a := seq, window := decide (stamp ≤ g.low + 4) }] else []
    { g with waiting := before ++ c ++ marked }

/-- A trace frame is CORRUPT (R269): an open one takes no more, and a merge that has not read it yet gives a CORRUPT record for it. -/
def corruptFrame (m : Mach) (d f : Nat) : Mach :=
  match trFrame m d f with
  | none => m
  | some y =>
    let s := y.slot
    let m := setFrame m d f (some { y with state := 3, data := padTo 4096 y.data })
    let m := updTr m d s (fun x => { x with frame := if x.frame = some f then none else x.frame })
    let m := updStream m s (fun x => { x with
      merge := x.merge.map (fun g => corruptUnread g (d * 2 ^ 16 + f) d y.seq y.stamp (stnPath m d)) })
    let m := incSf (trcRegs m d s) d R.STN_TRC_LOST_CORRUPT
    streamEvent m d s EvCode.traceCorrupt (w1 15) true

/-- A Cut Buffer: the record that holds the word and every later one is discarded, the buffer is INCOMPLETE and its link is
listed. -/
def corruptCut (m : Mach) (d p k : Nat) : Mach :=
  let b := cutBuf m d p
  let st := cutState m d p
  if st = 0 ∨ b.recs.length ≤ k then m
  else
    let m := setCut m d p (if st ≤ 3 then 3 else st) { b with recs := b.recs.take k, inc := true, closedAt := if st = 1 then repNow m d else b.closedAt }
    let m := updQuire m b.slot d (fun q => { q with status := setBit q.status 2 })
    incHf (listAdd m b.slot d 2 0 (repNow m d) (portPath m d p)) R.STH_CNT_CUT_INCOMPLETE

/-- A Die Notebook word: `sub` 0 a copy of a training record (twice its place, one more for the second copy), 1 a ledger entry
(R400, R409). -/
def corruptNote (m : Mach) (d sub place : Nat) : Mach :=
  updNote m d (fun x => match sub with
    | 0 =>
      match x.training[place / 2]? with
      | some (a, b) =>
        let pair := if place % 2 = 0 then ({ a with good := false }, b) else (a, { b with good := false })
        { x with training := x.training.set (place / 2) pair }
      | none => x
    | 1 =>
      match x.ledger[place]? with
      | some e => { x with ledger := x.ledger.set place { e with good := false } }
      | none => x
    | _ => x)

/-- The outcome of a double-bit or parity error (Table 15.3), before it is reported. -/
def eccOutcome (m : Mach) (x : Ecc) : Mach :=
  match x.array with
  | .policyProcessor => { m with peer := { m.peer with mute := true } }
  | .mergeBuffer => corruptMerged m x.place x.sub
  | .sessionSlot =>
    match m.host.sessions.find? (fun s => s.slot == some x.place && !s.closed) with
    | some s => endSession m s.sid 3 0
    | none => m
  | .routineSlot => spoilRoutine m x.place
  | .traceFrame => corruptFrame m x.die x.place
  | .cutBuffer => corruptCut m x.die x.place x.sub
  | .bindingShadow => updStn m x.die (fun y => { y with badShadow := x.place % 160 :: y.badShadow })
  | .stationRegister => silentStation (incSf m x.die R.STN_ECC_PARITY) x.die
  | .tapRegister => faultTap (incSf m x.die R.STN_ECC_PARITY) x.die x.place
  | .notebook => corruptNote m x.die x.sub x.place

/-- An error that cannot be corrected: counted, handled and reported with code 0x07; a Station or Tap that falls silent is
reported as such when the hub learns of it. A trace frame is reported by TRACE_CORRUPT. -/
def eccUncorrected (m : Mach) (x : Ecc) : Mach :=
  let d := eccDie m x
  let m := if hubArray x.array then m else incSf m x.die R.STN_ECC_UNCORRECTED
  let m := updDie m d (fun y => { y with uncorrected := satN 32 (y.uncorrected + 1) })
  let m := eccOutcome m x
  match x.array with
  | .stationRegister => m
  | .tapRegister => m
  | .traceFrame => latchFault m 15 (stnPath m d) d
  | _ => reportFault m EvCode.healthFault 7 (if hubArray x.array then hubPath m else stnPath m d) d

/-- The meaning of SECDED_ERROR. -/
def execSecdedError (x : Ecc) (s : State) : Host.Outcome State Fault Refusal :=
  let bad := match x.array with
    | .tapRegister => !tapOk x.die x.place
    | .cutBuffer => !portOk x.die x.place
    | a => !hubArray a && decide (100 ≤ x.die)
  if bad then .fault .noSuchUnit
  else if !hubArray x.array && !stnUp s.m x.die then .next s
  else .next { s with m := if x.uncorrectable then fenceAll (eccUncorrected s.m x) else eccCorrected s.m (if hubArray x.array then none else some x.die) 1 }

/-- The meaning of SCRUB: the scrubber of the hub, or of a Station, has rewritten `fixes` words that it corrected (R492). -/
def execScrub (die : Option Nat) (fixes : Nat) (s : State) : Host.Outcome State Fault Refusal :=
  match die with
  | none =>
    .next { s with m := eccCorrected (incHf s.m R.HTH_FAULT_CNT_SCRUB_FIXES fixes) none fixes }
  | some d =>
    if 100 ≤ d then .fault .noSuchUnit
    else if !stnUp s.m d then .next s
    else .next { s with m := eccCorrected (incSf s.m d R.STN_ECC_SCRUB_FIXES fixes) (some d) fixes }

/-! ### Datapaths (R486, Table 15.1) -/

/-- A replica pair disagrees: ALIGNED falls and the fault is reported; twice within 1 ms the Station faults (R487). -/
def replicaFault (m : Mach) (d : Nat) : Mach :=
  let now := repNow m d
  let again := match (stn m d).pairErr with
    | some t => decide (now ≤ t + 1000000)
    | none => false
  let m := updStn (setSf m d R.STN_GTC_STAT_ALIGNED 0) d (fun x => { x with pairErr := some now, goodSyncs := 0 })
  let m := reportFault m EvCode.healthFault 11 (stnPath m d) d
  if again then silentStation m d else m

/-- A residue check of a Tally fails: the part that the die reads is lost as by a read error (R232). -/
def tallyFault (m : Mach) (d : Nat) : Mach :=
  let m := reportFault m EvCode.healthFault 13 (stnPath m d) d
  let reads (p : TallyPart) : Bool := p.die == d && p.active && !p.ended
  match m.tly.find? (fun r => r.parts.any reads) with
  | none => m
  | some r =>
    let k := r.parts.findIdx reads
    match r.parts[k]? with
    | some p => tallyCheck (endPart m r k p true) r.cmd
    | none => m

/-- The meaning of HEALTH_FAULT: a check of a GTC replica (0x0B), the hub GTC (0x0C), a Tally (0x0D) or a Codec (0x0E) fails. The
other codes of Table 15.1 have rows of their own. -/
def execHealthFault (code : Nat) (unit : W32) (s : State) : Host.Outcome State Fault Refusal :=
  let m := s.m
  let d := upDie unit
  if 100 ≤ d then .fault .noSuchUnit
  else
    match code with
    | 11 => if stnUp m d then .next { s with m := replicaFault m d } else .next s
    | 12 => .next { s with m := reportFault m EvCode.healthFault 12 (hubPath m) (hubDie m) }
    | 13 => if stnUp m d then .next { s with m := fenceAll (tallyFault m d) } else .next s
    | 14 => .next { s with m := reportFault m EvCode.healthFault 14 unit d }
    | _ => .next s

/-! ### Wear (R490, R493, R494) -/

/-- A signed value of w bits that a register or operand holds. -/
def signedOf (w v : Nat) : Int := if v % 2 ^ w < 2 ^ (w - 1) then ((v % 2 ^ w : Nat) : Int) else ((v % 2 ^ w : Nat) : Int) - 2 ^ w

/-- The oscillators of a die: one for each cluster of a compute die, else one. -/
def oscillators (d : Nat) : List Nat := if d < 64 then List.range 8 else [0]

/-- The drift of an oscillator in 1/16 ppm. -/
def driftOf (m : Mach) (d c : Nat) : Int := signedOf 32 (sf m d R.STN_WEAR_RO_DRIFT c)

/-- The drift lies beyond DRIFT_PPM (log entry 63). -/
def driftBeyond (m : Mach) (d c : Nat) : Bool :=
  let x := hf m R.HTH_THR_DRIFT_PPM
  x != 0 && decide (16 * x < (driftOf m d c).natAbs)

/-- An endpoint is trained, and its eye is narrower than EYE_H_MIN. -/
def portEyeLow (m : Mach) (d p : Nat) : Bool :=
  sf m d R.STN_BUP_PORT_UP p == 1 && decide (sf m d R.STN_BUP_PORT_EYE_H p < hf m R.HTH_THR_EYE_H_MIN)

/-- A channel is trained, and its eye is narrower than EYE_H_MIN. -/
def chanEyeLow (m : Mach) (d c : Nat) : Bool :=
  sf m d R.STN_BUP_CHAN_UP c == 1 && decide (sf m d R.STN_BUP_CHAN_EYE_H c < hf m R.HTH_THR_EYE_H_MIN)

/-- The channels of a die. -/
def chansOf (d : Nat) : List Nat := if dieKind d = 1 then List.range 16 else []

/-- Raise WEAR_THRESHOLD for a unit and signal, once between starts. -/
def wearEvent (m : Mach) (d sig unit : Nat) (source : W32) (value : List W32) : Mach :=
  if (dieHealth m d).raised.contains (sig * 256 + unit) then m
  else
    let m := updDie m d (fun x => { x with raised := x.raised ++ [sig * 256 + unit] })
    raiseOn m d { code := EvCode.wearThreshold, source := source, stamp := gtcNow m, detail := [diePath m d] ++ w1 sig ++ value }

/-- The signals of a die that lie beyond their thresholds now. -/
def wearThresholds (m : Mach) (d : Nat) : Mach :=
  let m := ((oscillators d).filter (driftBeyond m d)).foldl (fun m c =>
    wearEvent m d 1 c (if d < 64 then mkPath (pkgNum m) d c 0 0 2 else diePath m d) (w1 (sf m d R.STN_WEAR_RO_DRIFT c))) m
  let ce := hf m R.HTH_THR_CE_PER_HOUR
  let m := ((chansOf d).filter (fun c => ce != 0 && decide (ce < sf m d R.STN_HBM_CE_HOUR c))).foldl (fun m c =>
    wearEvent m d 2 c (diePath m d) (w1 (sf m d R.STN_HBM_CE_HOUR c))) m
  let m := ((List.range (portsOf d)).filter (portEyeLow m d)).foldl (fun m p =>
    wearEvent m d 3 p (portPath m d p) (w1 (sf m d R.STN_BUP_PORT_EYE_H p))) m
  ((chansOf d).filter (chanEyeLow m d)).foldl (fun m c =>
    wearEvent m d 3 (128 + c) (diePath m d) (w1 (sf m d R.STN_BUP_CHAN_EYE_H c))) m

/-- The hourly copy of a die's wear signals to the training partition of its Die Notebook, which counts as one write there
(R493, Table 15.4; log entry 62). -/
def copyWear (m : Mach) (d : Nat) : Mach :=
  if (dieHealth m d).copyAt + 3600000000000 ≤ repNow m d then updDie (countMram m d 1) d (fun y => { y with copyAt := repNow m d })
  else m

/-- RATED: VDBG in mV and the temperature in 1/4 °C lie within Table 16.4 (R500). -/
def ratedAt (vdbg temp : Nat) : Bool :=
  decide (7275 ≤ 10 * vdbg) && decide (10 * vdbg ≤ 7725) && decide (-40 ≤ signedOf 16 temp) && decide (signedOf 16 temp ≤ 420)

/-- What a Wear Collector shows after a sample. -/
def takeSample (m : Mach) (d : Nat) (x : WearReading) : Mach :=
  let m := (oscillators d).foldl (fun m c =>
    setSf (setSf m d R.STN_WEAR_RO_COUNT (x.counts.getD c 0) c) d R.STN_WEAR_RO_DRIFT (x.drifts.getD c 0) c) m
  let m := setSf (setSf (setSf m d R.STN_SENSE_TEMP x.temp) d R.STN_SENSE_VDBG x.vdbg) d R.STN_SENSE_RATED (b2n (ratedAt x.vdbg x.temp))
  copyWear ((chansOf d).foldl (fun m c =>
    incSf (setSf m d R.STN_HBM_CE_HOUR (x.ceHour.getD c 0) c) d R.STN_HBM_CE_TOTAL (x.ceNew.getD c 0) c) m) d

/-- The meaning of WEAR_SAMPLE. -/
def execWearSample (die : Nat) (x : WearReading) (s : State) : Host.Outcome State Fault Refusal :=
  if 100 ≤ die then .fault .noSuchUnit
  else if stnUp s.m die then .next { s with m := promiseSync (wearThresholds (takeSample s.m die x) die) }
  else .next s

/-- Append a FIELD entry for a unit that its die's ledger does not list yet (R490). -/
def retireUnit (m : Mach) (d : Nat) (unit : W32) : Mach :=
  if (note m d).ledger.any (fun e => e.good && !e.revoked && e.unit == ledgerUnit unit) then m
  else ledgerAppend m d (newEntry m unit 8 0)

/-- With RETIRE, the cores of clusters that have drifted and the endpoints whose eye is narrow are listed. -/
def retireWorn (m : Mach) (d : Nat) : Mach :=
  if hf m R.HTH_THR_RETIRE = 0 then m
  else
    let m := if 64 ≤ d then m else ((oscillators d).filter (driftBeyond m d)).foldl (fun m c =>
      (List.range 16).foldl (fun m i => retireUnit m d (corePath m d (16 * c + i))) m) m
    ((List.range (portsOf d)).filter (portEyeLow m d)).foldl (fun m p => retireUnit m d (portPath m d p)) m

/-- Firmware keeps the dates of a fit; without TOD_VALID there is no estimate. -/
def takeFit (m : Mach) (d : Nat) (x : WearDates) : Mach :=
  let valid := hf m R.GTC_STATUS_TOD_VALID == 1
  let p50 := if valid then x.p50 % 2 ^ 64 else 0
  let p90 := if p50 = 0 then 0 else Nat.max p50 (x.p90 % 2 ^ 64)
  let m := updDie m d (fun y => { y with p50 := p50, p90 := p90, limit := if p50 = 0 then 0 else x.limit % 256, fitAt := some (gtcNow m) })
  let days := hf m R.HTH_THR_HORIZON_DAYS
  if days != 0 && p50 != 0 && decide (p50 ≤ todSeconds m + 86400 * days) then
    wearEvent m d (x.limit % 256) 255 (diePath m d) (w2 p50)
  else m

/-- The meaning of WEAR_FIT. -/
def execWearFit (die : Nat) (x : WearDates) (s : State) : Host.Outcome State Fault Refusal :=
  if 100 ≤ die then .fault .noSuchUnit
  else .next { s with m := retireWorn (wearThresholds (takeFit s.m die x) die) die }

/-! ### HEALTH_READ and EOL_READ (R495, R496) -/

/-- STATE of a die: 0 PRESENT, 1 HIDDEN, 2 FAULTED, 3 ABSENT. -/
def healthState (m : Mach) (d : Nat) : Nat :=
  if nbit m.hth.faulted d then 2 else if dieHidden m d then 1 else if posPresent m (ringOf d) (posOf d) then 0 else 3

/-- The drift of greatest size among a die's oscillators. -/
def worstDrift (m : Mach) (d : Nat) : Nat :=
  unsignedOf 32 ((oscillators d).foldl (fun acc c => if acc.natAbs < (driftOf m d c).natAbs then driftOf m d c else acc) 0)

/-- The least value of a list, 0 for none. -/
def leastOf (l : List Nat) : Nat := match l with
  | [] => 0
  | x :: r => r.foldl Nat.min x

/-- A value of every trained endpoint and channel of a die. -/
def trainedEyes (m : Mach) (d : Nat) (port chan : Fld) : List Nat :=
  (((List.range (portsOf d)).filter (fun p => sf m d R.STN_BUP_PORT_UP p == 1)).map (fun p => sf m d port p)) ++
  (((chansOf d).filter (fun c => sf m d R.STN_BUP_CHAN_UP c == 1)).map (fun c => sf m d chan c))

/-- The health record of a die (Table 15.5). -/
def healthRecord (m : Mach) (d : Nat) : List Byte :=
  let h := dieHealth m d
  let st := healthState m d
  let rated := st < 2 ∧ sf m d R.STN_SENSE_RATED = 1
  withCrc true (
    leBytes 4 (diePath m d).toNat ++ leBytes 1 st ++
    leBytes 1 (sf m d R.STN_GTC_STAT_ALIGNED + 2 * b2n (decide rated) + 4 * b2n (decide (0 < h.faults))) ++
    leBytes 2 (sf m d R.STN_SENSE_TEMP) ++ leBytes 2 (sf m d R.STN_SENSE_VDBG) ++ zeros 2 ++
    leBytes 4 h.corrected ++ leBytes 4 h.uncorrected ++ leBytes 4 (worstDrift m d) ++
    leBytes 4 ((chansOf d).foldl (fun a c => Nat.max a (sf m d R.STN_HBM_CE_HOUR c)) 0) ++
    leBytes 2 (leastOf (trainedEyes m d R.STN_BUP_PORT_EYE_H R.STN_BUP_CHAN_EYE_H)) ++
    leBytes 2 (leastOf (trainedEyes m d R.STN_BUP_PORT_EYE_V R.STN_BUP_CHAN_EYE_V)) ++
    leBytes 4 (sumBy (fun k => sf m d R.STN_MRAM_WRITES k) (List.range 3)) ++ leBytes 4 h.tapsDark ++
    leBytes 8 h.lastT ++ leBytes 2 h.lastCode ++ zeros 10)

/-- The EOL record of a die (Table 15.6). -/
def eolRecord (m : Mach) (d : Nat) : List Byte :=
  let h := dieHealth m d
  let age := match h.fitAt with
    | some t => (gtcNow m - t) / 3600000000000
    | none => 0
  leBytes 4 (diePath m d).toNat ++ leBytes 1 h.limit ++ leBytes 1 (b2n (h.p50 == 0) + 2 * b2n (!h.raised.isEmpty)) ++ zeros 2 ++
  leBytes 8 h.p50 ++ leBytes 8 h.p90 ++ leBytes 4 (worstDrift m d) ++ leBytes 4 age

/-- The issuer holds OBSERVE over some partition. -/
def observesAny (m : Mach) (i : Issuer) : Bool := (List.range 256).any (fun q => decide (1 ≤ issLevel m i q))

/-- The body that both commands share: the records of `size` bytes of the dies from FIRST on. -/
def doHealthList (m : Mach) (i : Issuer) (op : Nat) (p : Pkt) (size : Nat) (record : Nat → List Byte) (head : List W32) : Mach :=
  let b := p.body
  let h := wAt b 0
  let off := w64At b 1
  let len := (wAt b 3).toNat
  let first := (wAt b 4).toNat
  let bad := listBuf m i h off len (b.length != 5 || decide (99 < first))
  let st := if bad != St.malformed && !observesAny m i then St.notAuthorised else bad
  if st != 0 then answer m i op p.cookie st []
  else
    listReply m i op p h off len size (((List.range 100).drop first).map record) St.ok (fun n => head ++ w1 n ++ w1 (first + n))

/-- HEALTH_READ. -/
def doHealthRead (m : Mach) (i : Issuer) (p : Pkt) : Mach :=
  doHealthList m i 0x0B01 p 64 (healthRecord m)
    (w1 (hf m R.HTH_STATUS_PROMISE) ++ w1 m.hth.faults ++ w1 (hf m R.HTH_STATUS_FAULTED))

/-- The meaning of HEALTH_READ. -/
def execHealthRead (p : Pkt) (s : State) : Host.Outcome State Fault Refusal := hostRow 0x0B01 p s (fun m i => doHealthRead m i p)

/-- EOL_READ. -/
def doEolRead (m : Mach) (i : Issuer) (p : Pkt) : Mach :=
  let x := earliestEol m
  let head := if x.1 = 0 then w2 0 ++ w2 0 ++ w1 0 else w2 x.1 ++ w2 (dieHealth m x.2).p90 ++ [diePath m x.2]
  doHealthList m i 0x0B02 p 32 (eolRecord m) head

/-- The meaning of EOL_READ. -/
def execEolRead (p : Pkt) (s : State) : Host.Outcome State Fault Refusal := hostRow 0x0B02 p s (fun m i => doEolRead m i p)

/-! ### The standby rail and DMA (R502, R508) -/

/-- The meaning of VDBG_LOSS: hubs and Stations are in reset until power returns. -/
def execVdbgLoss (s : State) : Host.Outcome State Fault Refusal :=
  .next { s with m := setHf (resetMach s.m false) R.HUB_STATUS_SERVING 0 }

/-- The commands that go on after their dispatch and then write a Buffer. -/
def dmaLater : List Nat := [0x0401, 0x0402, 0x0501, 0x0502, 0x0504, 0x0604]

/-- The reply detail of a command that ends with ABORTED, as far as it has come (R341; log entry 73). -/
def abortDetail (m : Mach) (c : Cmd) : List W32 :=
  match c.op with
  | 0x0401 => encodeDetail c
  | 0x0402 => decodeDetail c
  | 0x0504 =>
    let all := (chunks 32 (c.data.length / 32) c.data).map faultOf
    w1 0 ++ w1 c.retired ++ w2 c.done ++ w2 (((sortBy faultBefore all).head?.map (fun x => x.stamp)).getD 0)
  | 0x0604 => w2 c.t ++ w1 0 ++ w1 0 ++ w1 0 ++ w2 0
  | 0x0805 => w1 (Store.get 0 m.bup.modeEpoch (wfld (wAt c.body 0) 0 2)) ++ w1 0 ++ w1 0 ++ w1 0 ++ w1 0
  | 0x0901 =>
    match m.rcv.escs.find? (fun e => (e.2.map (fun x => x.cmds.contains c.id)).getD false) with
    | some (_, some x) =>
      w1 x.rung ++ w1 x.reset ++ w1 x.dark ++ w1 (if c.scope.kind = 5 then 0 else ctxOf m c.scope.part) ++ w2 x.dropped
    | _ => []
  | _ => []

/-- An executing command ends with ABORTED: what it had armed is withdrawn. -/
def abortCmd (m : Mach) (c : Cmd) : Mach :=
  let m := ((m.run.arms.filter (fun a => a.cmd == c.id)).map (fun a => a.armId)).foldl cancelArm m
  match tallyRun m c.id with
  | some r => endTally m c r St.aborted
  | none => finish m c.id St.aborted (abortDetail m c)

/-- The meaning of DMA_FAILURE, for a Session of the host. -/
def execDmaFailure (failure : DmaFailure) (session : W32) (s : State) : Host.Outcome State Fault Refusal :=
  let m := s.m
  let sid := sidOf .host session
  match failure with
  | .commandAccess =>
    match m.cmds.find? (fun c => c.sid == sid && dmaLater.contains c.op) with
    | some c => .next { s with m := fenceAll (abortCmd m c) }
    | none => .next s
  | .fetch => .next { s with m := incIfErr m R.IF_ERR_BAD_DESC }
  | .record =>
    if (sessOf m sid).isSome then
      .next { s with m := updSess (incIfErr m R.IF_ERR_BAD_DESC) sid (fun x => { x with ending := 6, held := [], lost := 0, ready := [] }) }
    else .next s

end Sys2Proof.Machine
end

