-- ==== Sys2Proof/Machine/Ports.lean ====
section
/-! DEFINITION. The scan port and the sideband: instructions, frames, attach and detach, I3C commands and MCTP messages
(R349-R379). -/

namespace Sys2Proof.Machine

/-! ### The test access port (R349-R356) -/

/-- The instance serves (HUB_STATUS.SERVING) and is not isolated (R447). -/
def serving (m : Mach) : Bool := hf m R.HUB_STATUS_SERVING == 1 && !m.peer.isolated

/-- The life-cycle state admits EXTEST: VENDOR_TEST is open to RAW, TEST and TEST_UNLOCK, and ANALYSIS admits it too (R354,
Tables 14.1, 14.7). -/
def extestHonoured (m : Mach) : Bool :=
  let s := hf m R.LCY_STATE_STATE
  s == 0 || s == 1 || s == 5 || hf m R.LCY_STATE_UNLOCKED == 1

/-- The data registers that an instruction can select (Table 11.1). -/
inductive DataReg where
  | boundary
  | idcode
  | hubpkt
  | hubstat
  | bypass
  deriving DecidableEq, Repr

/-- The data register that the instruction in the register selects (R351, R352, R354, R388). -/
def scanSelect (m : Mach) : DataReg :=
  if !serving m then
    if m.peer.present then .bypass
    else match m.scan.ir with
      | 0x01 => .idcode
      | 0x21 => .hubstat
      | _ => .bypass
  else
    match m.scan.ir with
    | 0x00 => if extestHonoured m then .boundary else .bypass
    | 0x01 => .idcode
    | 0x02 => .boundary
    | 0x20 => .hubpkt
    | 0x21 => .hubstat
    | _ => .bypass

/-- What Capture-IR loads (R352). -/
def captureIr (m : Mach) : Nat :=
  1 + 4 * b2n (serving m) + 8 * b2n (serving m && decide (0 < m.scan.queue.length))

/-- The device identification register (R353). -/
def idcode : W32 := 0x1A1B1ABB

/-- The bytes that wait in the inbound queue of a port. -/
def queuedBytes (m : Mach) (port : Port) : Nat :=
  ((sessOf m (sidOf port 0)).map (fun l => l.ready.foldl (fun a r => a + 16 + 4 * r.2.body.length) 0)).getD 0

/-- The port status register HUBSTAT. -/
def hubstat (m : Mach) : Nat :=
  b2n (serving m) + 2 * b2n m.scan.attached + 4 * hf m R.HUB_STATUS_FW_IN_SERVICE + 8 * hf m R.HUB_STATUS_BRINGUP +
  64 * hf m R.HUB_STATUS_FW_IMAGE + 128 * b2n (portSess m .scan).isSome +
  2 ^ 8 * satN 16 ((queueBytes (m.scan.queue.map Prod.snd) + 1023) / 1024) +
  2 ^ 24 * ((65536 - queuedBytes m .scan) / 1024) + 2 ^ 40 * m.scan.rxErr

/-- Load an instruction: any but HUBPKT ends the streams, and HUBPKT lets queued records leave (R356). -/
def loadIr (m : Mach) (ir : Nat) : Mach := scanPump { m with scan := { m.scan with ir := ir } }

/-- The meaning of INSTRUCTION_LOAD. -/
def execInstructionLoad (ir : Nat) (s : State) : Host.Outcome State Fault Refusal :=
  .next { s with m := loadIr s.m (ir % 256) }

/-- The meaning of TEST_LOGIC_RESET: the register holds IDCODE (R352, R356). -/
def execTestLogicReset (s : State) : Host.Outcome State Fault Refusal := .next { s with m := loadIr s.m 1 }

/-! ### Frames (R357-R360) -/

/-- Send an ACK. -/
def scanAck (m : Mach) (fseq : Nat) : Mach := emit m (.scanFrame (scanFrameBytes 0x82 fseq []))

/-- Send a NAK with a reason of Table 11.4. -/
def scanNak (m : Mach) (reason fseq : Nat) : Mach :=
  emit m (.scanFrame (scanFrameBytes 0x83 fseq [BitVec.ofNat 8 reason, 0, 0, 0]))

/-- The inbound FSEQ that the hub expects next. -/
def expectedFseq (m : Mach) : Nat := (m.scan.lastFseq + 1) % 2 ^ 16

/-- Count a frame answered with NAK CRC or BAD_HEADER. -/
def countRxErr (m : Mach) : Mach := { m with scan := { m.scan with rxErr := satN 16 (m.scan.rxErr + 1) } }

/-- The hub sees the inbound stream: it serves and HUBPKT is loaded (R351, R356). -/
def streamOpen (m : Mach) : Bool := serving m && m.scan.ir == 0x20

/-- The cases of R358 before the frame's own: a bad header, a bad CRC, or no probe attached; else the frame goes on. -/
def scanRow (hello : Bool) (payload : List Byte) (fin : ScanEnd) (s : State) (f : Mach → Mach) :
    Host.Outcome State Fault Refusal :=
  let m := s.m
  let m :=
    if !streamOpen m then m
    else if 16376 < payload.length then scanNak (countRxErr m) 4 (expectedFseq m)
    else if fin = .crcBad then scanNak (countRxErr m) 1 (expectedFseq m)
    else if !hello && !m.scan.attached then scanNak m 7 (expectedFseq m)
    else f m
  .next { s with m := m }

/-- The lane of a port, made when its first packet arrives. -/
def withLane (m : Mach) (port : Port) : Mach :=
  let sid := sidOf port 0
  if (sessOf m sid).isSome then m
  else { m with host := { m.host with sessions := m.host.sessions ++ [{ sid := sid, handle := 0, port := port }] } }

/-- Word 1 is the handle that a packet on this port must carry: 0 for OPEN_SESSION and while no Session is open, else the
port Session's (R363). -/
def portHandleOk (m : Mach) (port : Port) (op : Nat) (h : W32) : Bool :=
  if op = 0x0101 then h == 0
  else match portSess m port with
    | some s => h == s.handle
    | none => h == 0

/-- Hand a packet that a port carried to the packet checks of Table 10.6, with a status found before them or 0. -/
def offerPacket (m : Mach) (port : Port) (bytes : List Byte) (early : Nat) : Mach :=
  let ws := bytesWords bytes
  let op := wfld (wAt ws 0) 16 16
  let st := if early != 0 then early else
    packetCheck ws (fun l => bytes.length == 4 * l) (fun h => portHandleOk m port op h)
  let cur := ((portSess m port).map (fun s => s.handle)).getD 0
  let h : W32 := if st = 0 then wAt ws 1 else cur
  let p : Pkt := { port := port, session := h, cookie := BitVec.ofNat 64 (w64At ws 2), body := ws.drop 4 }
  let m := incHf (withLane m port) R.IF_CNT_PACKETS
  let m := updSess m (sidOf port 0) (fun l => { l with ready := l.ready ++ [(op + st * 2 ^ 16, p)] })
  readNext m (sidOf port 0)

/-- The meaning of CMD (R358). -/
def execScanCmd (fseq : Nat) (payload : List Byte) (fin : ScanEnd) (s : State) : Host.Outcome State Fault Refusal :=
  scanRow false payload fin s fun m =>
    if fseq = m.scan.lastFseq then scanAck m fseq
    else if fseq ≠ expectedFseq m then scanNak m 2 (expectedFseq m)
    else if hf m R.HUB_STATUS_FW_IN_SERVICE = 0 then scanNak m 5 (expectedFseq m)
    else if 65536 < queuedBytes m .scan + payload.length then scanNak m 3 (expectedFseq m)
    else
      let m := scanAck { m with scan := { m.scan with lastFseq := fseq, lastIn := gtcNow m } } fseq
      offerPacket m .scan payload 0

/-- A probe attaches or resynchronises: the outbound numbering starts anew and what lies after LAST_SEQ is sent again
(R369, R370). -/
def helloSync (m : Mach) (payload : List Byte) : Mach :=
  let ms := bytesAt payload 0 4
  let first := bytesAt payload 4 2
  let last := bytesAt payload 8 4
  let all := m.scan.kept.map (fun k => (k.2.1, k.2.2)) ++ m.scan.queue
  let again := if m.scan.attached then all.filter (fun x => seqLater x.1 last) else all
  let rx := if m.scan.attached then m.scan.rxErr else 0
  let sc : ScanSt := { m.scan with
    attached := true, lastFseq := (first + 0xFFFF) % 2 ^ 16, outFseq := 0, queue := again, kept := [],
    keepaliveMs := if ms = 0 then 0 else Nat.max 10 ms, lastIn := gtcNow m, rxErr := rx, helloDue := none }
  setHf { m with scan := sc } R.HUB_STATUS_SCAN_ATTACHED 1

/-- The meaning of HELLO (R370, R372): the first HELLO after an attach takes no notice of LAST_SEQ. -/
def execScanHello (fseq : Nat) (payload : List Byte) (fin : ScanEnd) (s : State) : Host.Outcome State Fault Refusal :=
  scanRow true payload fin s fun m => scanPump (scanAck (helloSync m payload) fseq)

/-- The meaning of RESEND (R360). -/
def execScanResend (fseq : Nat) (payload : List Byte) (fin : ScanEnd) (s : State) : Host.Outcome State Fault Refusal :=
  scanRow false payload fin s fun m =>
    match m.scan.kept.find? (fun k => k.1 == fseq) with
    | some k =>
      emit (scanAck { m with scan := { m.scan with lastIn := gtcNow m } } fseq)
        (.scanFrame (scanFrameBytes 0x81 fseq (wordsBytes k.2.2)))
    | none => scanNak m 6 fseq

/-- The probe detaches: the scan Session ends as by timeout, without a record, and nothing queued remains (R371). -/
def detach (m : Mach) : Mach :=
  if !m.scan.attached then m
  else
    let m := setHf { m with scan := { m.scan with attached := false, queue := [], kept := [], helloDue := none } }
      R.HUB_STATUS_SCAN_ATTACHED 0
    match portSess m .scan with
    | some x => endSession m x.sid 4 0
    | none => m

/-- The meaning of BYE (R369, R371). -/
def execScanBye (fseq : Nat) (payload : List Byte) (fin : ScanEnd) (s : State) : Host.Outcome State Fault Refusal :=
  scanRow false payload fin s fun m => detach (scanAck m fseq)

/-- The meaning of BAD_HEADER_FRAME: a header with a reserved TYPE or a LEN above 16,376 (R358). -/
def execBadHeaderFrame (bytes : List Byte) (s : State) : Host.Outcome State Fault Refusal :=
  let m := s.m
  let known := [1, 4, 5, 6].contains (bytesAt bytes 2 1) && decide (bytesAt bytes 6 2 ≤ 16376)
  if !streamOpen m || known then .next s
  else .next { s with m := scanNak (countRxErr m) 4 (expectedFseq m) }

/-- The meaning of TRST_N going low: Test-Logic-Reset, and the probe is detached (R352, R369). -/
def execTrstN (s : State) : Host.Outcome State Fault Refusal := .next { s with m := detach (loadIr s.m 1) }

/-- The meaning of KEEPALIVE_EXPIRY, which acts once the time has passed (R369). -/
def execKeepaliveExpiry (s : State) : Host.Outcome State Fault Refusal :=
  let m := s.m
  if m.scan.attached ∧ m.scan.keepaliveMs ≠ 0 ∧ m.scan.lastIn + m.scan.keepaliveMs * 1000000 ≤ gtcNow m then
    .next { s with m := detach m }
  else .next s

/-- The meaning of FAILOVER_HELLO_TIMEOUT, which acts once the time has passed (R372). -/
def execFailoverHelloTimeout (s : State) : Host.Outcome State Fault Refusal :=
  match s.m.scan.helloDue with
  | some t => if t ≤ gtcNow s.m then .next { s with m := detach s.m } else .next s
  | none => .next s

/-! ### I3C (R373, R374) -/

/-- The tray now reads: what waited for it goes out. -/
def trayOpens (m : Mach) : Mach := sideFlush (trayFlush m)

/-- The meaning of ENTDAA: the serving instance takes a dynamic address (R14, R373). -/
def execEntdaa (address : Nat) (s : State) : Host.Outcome State Fault Refusal :=
  if serving s.m then .next { s with m := trayOpens { s.m with side := { s.m.side with addr := some (address % 128) } } }
  else .next s

/-- The meaning of RSTDAA: the dynamic address is given up. -/
def execRstdaa (s : State) : Host.Outcome State Fault Refusal :=
  .next { s with m := { s.m with side := { s.m.side with addr := none } } }

/-- The meaning of ENEC: the events of the mask are enabled; an in-band interrupt is raised for what waits. -/
def execEnec (events : Nat) (s : State) : Host.Outcome State Fault Refusal :=
  .next { s with m := { s.m with side := { s.m.side with events := (s.m.side.events ||| events) % 256 } } }

/-- The meaning of DISEC: the events of the mask are disabled. -/
def execDisec (events : Nat) (s : State) : Host.Outcome State Fault Refusal :=
  .next { s with m := { s.m with side := { s.m.side with events := s.m.side.events - (s.m.side.events &&& events) } } }

/-- A directed read CCC: the target answers when it has a dynamic address. -/
def i3cRead (s : State) (bytes : Mach → List Byte) : Host.Outcome State Fault Refusal :=
  if s.m.side.addr.isSome && !s.m.peer.isolated then .next { s with m := emit s.m (.i3c (bytes s.m)) } else .next s

/-- The Provisioned ID (R374), most significant byte first. -/
def provisionedId (m : Mach) : List Byte :=
  (leBytes 6 (Config.mipiId % 2 ^ 15 * 2 ^ 33 + 0xABE1 * 2 ^ 16 + (if m.peer.onA2 then 2 else 0) * 2 ^ 12)).reverse

/-- The meaning of GETPID. -/
def execGetpid (s : State) : Host.Outcome State Fault Refusal := i3cRead s provisionedId

/-- The meaning of GETBCR. -/
def execGetbcr (s : State) : Host.Outcome State Fault Refusal := i3cRead s (fun _ => [0x0E])

/-- The meaning of GETDCR. -/
def execGetdcr (s : State) : Host.Outcome State Fault Refusal := i3cRead s (fun _ => [0x00])

/-- The meaning of GETSTATUS: the two status bytes are the surroundings' standard's, and the spec gives no value of them
(log entry 21). -/
def execGetstatus (s : State) : Host.Outcome State Fault Refusal :=
  if s.m.side.addr.isSome && !s.m.peer.isolated then
    let (w, m) := draw s.m
    .next { s with m := emit m (.i3c (leBytes 2 w.toNat)) }
  else .next s

/-- The meaning of GETMWL. -/
def execGetmwl (s : State) : Host.Outcome State Fault Refusal := i3cRead s (fun m => (leBytes 2 m.side.mwl).reverse)

/-- The meaning of SETMWL: a length below 69 is not applied (R374). -/
def execSetmwl (length : Nat) (s : State) : Host.Outcome State Fault Refusal :=
  if length < 69 then .next s
  else .next { s with m := { s.m with side := { s.m.side with mwl := length % 2 ^ 16 } } }

/-- The meaning of GETMRL. -/
def execGetmrl (s : State) : Host.Outcome State Fault Refusal := i3cRead s (fun m => (leBytes 2 m.side.mrl).reverse)

/-- The meaning of SETMRL: a length below 69 is not applied (R374). -/
def execSetmrl (length : Nat) (s : State) : Host.Outcome State Fault Refusal :=
  if length < 69 then .next s
  else .next { s with m := { s.m with side := { s.m.side with mrl := length % 2 ^ 16 } } }

/-! ### MCTP (R375, R376; the codes of DSP0236 are log entry 22) -/

/-- The endpoint takes this packet: it has an address, and the packet names the null endpoint or its own. -/
def mctpTakes (m : Mach) (h : MctpHeader) : Bool :=
  m.side.addr.isSome && !m.peer.isolated && (h.dstEid == 0 || h.dstEid == m.side.eid)

/-- A control response in the tag of its request. -/
def mctpRespond (m : Mach) (h : MctpHeader) (code : Nat) (data : List Byte) : Mach :=
  raiseIbi (emit m (.mctp h.tag false ([0, BitVec.ofNat 8 (h.mctpInstance % 32), BitVec.ofNat 8 code] ++ data)))

/-- A control command that the endpoint takes. -/
def mctpRow (h : MctpHeader) (s : State) (f : Mach → Mach) : Host.Outcome State Fault Refusal :=
  if mctpTakes s.m h then .next { s with m := f s.m } else .next s

/-- The meaning of Set Endpoint ID: an ID other than 0 and 0xFF is taken, and what waited for the tray goes out (R378). -/
def execSetEndpointId (hdr : MctpHeader) (data : List Byte) (s : State) : Host.Outcome State Fault Refusal :=
  mctpRow hdr s fun m =>
    let op := nfld (bytesAt data 0 1) 0 2
    let eid := bytesAt data 1 1
    if data.length != 2 then mctpRespond m hdr 1 [3]
    else if decide (1 < op) || eid == 0 || eid == 0xFF then mctpRespond m hdr 1 [2]
    else trayOpens (mctpRespond { m with side := { m.side with eid := eid } } hdr 1 [0, 0, BitVec.ofNat 8 eid, 0])

/-- The meaning of Get Endpoint ID. -/
def execGetEndpointId (hdr : MctpHeader) (s : State) : Host.Outcome State Fault Refusal :=
  mctpRow hdr s fun m => mctpRespond m hdr 2 [0, BitVec.ofNat 8 m.side.eid, 0, 0]

/-- The meaning of Get MCTP Version Support: version 1.3 of the base and of type 0; other types are not supported. -/
def execGetMctpVersionSupport (hdr : MctpHeader) (mtype : Nat) (s : State) : Host.Outcome State Fault Refusal :=
  mctpRow hdr s fun m =>
    if mtype = 0xFF ∨ mtype = 0 then mctpRespond m hdr 4 [0, 1, 0xF1, 0xF3, 0xF0, 0]
    else mctpRespond m hdr 4 [0x80]

/-- The meaning of Get Message Type Support: types 0x00 and 0x7F (R375). -/
def execGetMessageTypeSupport (hdr : MctpHeader) (s : State) : Host.Outcome State Fault Refusal :=
  mctpRow hdr s fun m => mctpRespond m hdr 5 [0, 2, 0x00, 0x7F]

/-- The meaning of Get Vendor Defined Message Support: one set, named by the enterprise number (R376). -/
def execGetVendorDefinedMessageSupport (hdr : MctpHeader) (selector : Nat) (s : State) :
    Host.Outcome State Fault Refusal :=
  mctpRow hdr s fun m =>
    if selector = 0 then mctpRespond m hdr 6 [0, 0xFF, 1, 0x00, 0x3F, 0xE5, 0xA1, 0, 0]
    else mctpRespond m hdr 6 [2]

/-- The meaning of any other control command: ERROR_UNSUPPORTED_CMD (R375). -/
def execErrorUnsupportedCmd (hdr : MctpHeader) (code : Nat) (s : State) : Host.Outcome State Fault Refusal :=
  mctpRow hdr s fun m => mctpRespond m hdr code [5]

/-- The meaning of an Abyel message: a COMMAND is offered to the packet checks; one above 1,022 words is answered with
DOES_NOT_FIT; any other message is discarded (R376). -/
def execMctpCommand (hdr : MctpHeader) (data : List Byte) (s : State) : Host.Outcome State Fault Refusal :=
  mctpRow hdr s fun m =>
    let body := data.drop 8
    if data.take 5 != [0x7F, 0x00, 0x3F, 0xE5, 0xA1] || bytesAt data 5 1 != 1 || hf m R.HUB_STATUS_FW_IN_SERVICE == 0 then m
    else
      let m := { m with side := { m.side with lastCommand := gtcNow m, replyTags := m.side.replyTags ++ [hdr.tag] } }
      offerPacket m .sideband body (if 4 * 1022 < body.length then St.doesNotFit else 0)

end Sys2Proof.Machine
end

