-- ==== Sys2Proof/Machine/Failover.lean ====
section
/-! DEFINITION. The two hub instances: heartbeats between them, the loss of the standby, the failure and isolation of the serving
instance, and the takeover (R13, R72, R73, R163, R233, R245, R305, R344, R345, R372, R379, R418, R446-R450); and the job commands of
other packages (R165, R166, R439-R443). -/

namespace Sys2Proof.Machine

/-! ### The standby (R446, R450) -/

/-- The die of the other instance. -/
def otherDie (m : Mach) : Nat := if hubDie m = 96 then 98 else 96

/-- The path of the hub instance on an anchor (level 7). -/
def instPath (m : Mach) (d : Nat) : W32 := mkPath (pkgNum m) d 0 0 0 7

/-- The identities of the open Sessions. -/
def openSids (m : Mach) : List Nat := (m.host.sessions.filter (fun x => x.open_)).map (fun x => x.sid)

/-- Raise an event of the hub instances to every open Session and to the tray, with the fault code in its detail. -/
def hubEvent (m : Mach) (ev fault : Nat) (source : W32) : Mach :=
  raiseEv m { code := ev, source := source, stamp := gtcNow m, detail := w1 fault, named := openSids m, wide := false,
              tray := true }

/-- A standby is present, beats and could take over. -/
def standbyReady (m : Mach) : Bool := m.peer.present && hf m R.HUB_STATUS_PEER_OK == 1

/-- A heartbeat and journal update of the other instance, which carries its GTC: the first one sets PEER_OK, and one whose GTC has
come to differ by more than 8 ns is a fault of the hub GTC (Table 15.1, code 0x0C). -/
def peerBeat (m : Mach) (gtc : W64) : Mach :=
  if m.peer.gone || m.peer.isolated then m
  else
    let before := m.time.standby
    let diff : Int := (gtc.toNat : Int) - (gtcNow m : Int)
    let m := { m with time := { m.time with standby := diff }, peer := { m.peer with present := true } }
    let m := promiseSync (setHf m R.HUB_STATUS_PEER_OK 1)
    if 8 < diff.natAbs ∧ before.natAbs ≤ 8 then reportFault m EvCode.healthFault 0x0C (hubPath m) (hubDie m) else m

/-- The meaning of PEER_HEARTBEAT. -/
def execPeerHeartbeat (gtc : W64) (s : State) : Host.Outcome State Fault Refusal := .next { s with m := peerBeat s.m gtc }

/-- The meaning of PEER_LOST (R450): PEER_OK falls, and no failover is possible until a reset. -/
def execPeerLost (s : State) : Host.Outcome State Fault Refusal :=
  let m := s.m
  if standbyReady m then
    let d := otherDie m
    let m := setHf { m with peer := { m.peer with present := false, gone := true } } R.HUB_STATUS_PEER_OK 0
    let m := latchFault m 2 (instPath m d) d
    .next { s with m := promiseSync (hubEvent m EvCode.peerLost 2 (instPath m d)) }
  else .next s

/-! ### The serving instance fails (R446, R447) -/

/-- The meaning of INTERNAL_WATCHDOG: the serving instance stops its heartbeat. -/
def execInternalWatchdog (s : State) : Host.Outcome State Fault Refusal :=
  .next { s with m := { s.m with peer := { s.m.peer with mute := true } } }

/-- The meaning of LOCKSTEP_MISMATCH: the serving instance stops its heartbeat. -/
def execLockstepMismatch (s : State) : Host.Outcome State Fault Refusal :=
  let p := { s.m.peer with mute := true }
  .next { s with m := { s.m with peer := p } }

/-- The serving instance quiesces: it releases its ports, TRIG_OUT and PWR_CYCLE_REQ_N. The journal keeps the request for a power cycle,
which RCV_STATUS.PWR_REQ shows (R383, R447). -/
def quiesce (m : Mach) : Mach :=
  if m.peer.isolated then m
  else emit { m with peer := { m.peer with isolated := true }, pins := { m.pins with trigOut := 0, trigEnd := [], pwrReq := false } } .released

/-- The meaning of ISOLATE, which the other instance asserts. -/
def execIsolate (s : State) : Host.Outcome State Fault Refusal :=
  if standbyReady s.m then .next { s with m := quiesce s.m } else .next s

/-! ### Commands that were executing (R345, Table 10.8) -/

/-- The commands that run again from the start. -/
def rerunOps : List Nat :=
  [0x0204, 0x0205, 0x0206, 0x0207, 0x0208, 0x0209, 0x0501, 0x0502, 0x0503, 0x0504, 0x0903]

/-- The packet of a command that runs again; a Tally or FIRST_FAULT takes the earliest legal Waypoint (R233, R245). -/
def rerunPkt (m : Mach) (c : Cmd) : Pkt :=
  let body :=
    if c.op = 0x0501 then withT c.body 14 0
    else if c.op = 0x0502 then withT c.body 7 0
    else if c.op = 0x0504 then withT c.body 4 0
    else c.body
  { port := c.port, session := handleOf m c.sid, cookie := c.cookie, body := body }

/-- The command comes from a step of a run. -/
def fromRun (c : Cmd) : Bool := match c.origin with
  | .run _ => true
  | _ => false

/-- Run the step at which a run stands again: it stands at the boundary before the step, with LAST_T as the last completed step left it in the
status block (R305). -/
def stepAgain (m : Mach) (index : Nat) : Mach :=
  match runOf m index with
  | none => m
  | some r =>
    let t := ((routineOf m r.routine r.sid).map (fun y => bytesAt (scratchRead y 8 8) 0 8)).getD r.lastT
    updRun m index (fun z => { z with steps := z.steps - 1, busyStep := false, result := none, waiting := none, frames := [], lastT := t })

/-- Run a command again. -/
def runAgain (m : Mach) (c : Cmd) : Mach :=
  let arms := (m.run.arms.filter (fun a => a.cmd == c.id)).map (fun a => a.armId)
  let m := arms.foldl cancelArm { m with tly := m.tly.filter (fun r => r.cmd != c.id) }
  let m := dropCmd m c.id
  let i := issuerOf c
  let p := rerunPkt m c
  let r := fromRun c
  if c.op = 0x0204 then doPeekPoke m i p false r
  else if c.op = 0x0205 then doPeekPoke m i p true r
  else if c.op = 0x0206 then doSetBreak m i p
  else if c.op = 0x0207 then doClearBreak m i p
  else if c.op = 0x0208 then doSetFreeze m i p
  else if c.op = 0x0209 then doHeadcount m i p r
  else if c.op = 0x0501 then doTally m i p
  else if c.op = 0x0502 then doCompare m i p
  else if c.op = 0x0503 then doSentinelConfig m i p
  else if c.op = 0x0504 then doFirstFault m i p
  else if c.op = 0x0201 then doHalt m i p
  else if c.op = 0x0202 then doResume m i p
  else if c.op = 0x0203 then doStep m i p
  else if c.op = 0x0602 then doTraceStart m i p
  else if c.op = 0x0603 then doTraceStop m i p
  else doSetWatchdog m i p

/-- The command ends with ABORTED: PEEK with FORCE and FIRST_FAULT with CLEAR, and RESET_SCOPE, whose rungs go on. -/
def abortedAtTakeover (c : Cmd) : Bool :=
  (c.op == 0x0204 && peekForce c.body) || (c.op == 0x0504 && nbit c.flags 0) || c.op == 0x0901

/-- A COMMIT_MODE ends with ABORTED; when T has passed the hub still gathers and rolls back (R418). -/
def commitAtTakeover (m : Mach) (c : Cmd) : Mach :=
  if c.t ≤ gtcNow m then
    reply (updCmd m c.id (fun x => { x with origin := .firmware, sid := 0, port := .firmware })) c.origin c.op c.cookie St.aborted (abortDetail m c)
  else abortCmd m c

/-- Drop a command with its arms. -/
def dropArmed (m : Mach) (c : Cmd) : Mach :=
  let arms := (m.run.arms.filter (fun a => a.cmd == c.id)).map (fun a => a.armId)
  dropCmd (arms.foldl cancelArm m) c.id

/-- The opcodes that run again while their Waypoint has not passed (R305, STATIONS of Table 10.8). -/
def rearmOps : List Nat := [0x0201, 0x0202, 0x0203, 0x0602, 0x0603]

/-- A TRACE_DRAIN runs again: the Merge Buffer is built anew from the undrained frames, and the same records are written (R286). -/
def drainAgain (m : Mach) (c : Cmd) : Mach :=
  updStream m (c.aux.headD 0) (fun x => { x with merge := x.merge.map (fun g =>
    { g with unread := g.frames, written := 0, present := true, since := gtcNow m }) })

/-- An ENCODE or DECODE runs again from its first block (R213). -/
def codecAgain (m : Mach) (c : Cmd) : Mach := updCmd m c.id (fun x => { x with phase := 0, vals := List.replicate 6 0 })

/-- LC_TRANSITION ends with ABORTED. When I_s has been programmed the transition is completed as LC_TORN recovery does, before the new hub
takes any command (R464). -/
def transitionAtTakeover (m : Mach) (c : Cmd) : Mach :=
  let m := { m with lcy := { m.lcy with move := none } }
  let m := setHf (setHf m R.LCY_STATE_IN_TRANSITION 0) R.LCY_TRANS_PHASE 0
  let m := lcShow (recoverTorn m)
  abortCmd (lapseAll m (fun g => !keyUsable m g.root)) c

/-- The course that a command takes which was executing. A job-scope command whose token the peers hold keeps its Waypoint (DESIGN CHOICE, log
entry 98). The others continue: from the Station records, from the run, or from the
undrained frames (R163, R286, R305, R345). -/
def cmdAtTakeover (m : Mach) (id : Nat) : Mach :=
  match findCmd m id with
  | none => m
  | some c =>
    let m :=
      if abortedAtTakeover c then abortCmd m c
      else if rerunOps.contains c.op then runAgain m c
      else if c.op = 0x0805 then commitAtTakeover m c
      else if c.op = 0x0604 then drainAgain m c
      else if c.op = 0x0401 ∨ c.op = 0x0402 then codecAgain m c
      else if c.op = 0x0A03 then transitionAtTakeover m c
      else match c.origin with
        | .run r => if rearmOps.contains c.op && decide (gtcNow m < c.t) then stepAgain (dropArmed m c) r else m
        | .session _ => if rearmOps.contains c.op && decide (gtcNow m < c.t) && c.scope.kind != 6 then runAgain m c else m
        | _ => m
    match c.origin with
    | .session sid => readNext (endCheck m sid) sid
    | _ => m

/-! ### The takeover (R447-R449) -/

/-- Frames of the failed instance that wait: its requests and gathers are gone with it, the others go on. -/
def keptFrame (f : Frame) : Bool := !(f.ftype == 1 || f.ftype == 2 || f.ftype == 6)

/-- What waits on the Spine: nothing is outstanding, configuration writes that no command awaits are sent again, and the frames
that R62 held go. -/
def spineAtTakeover (m : Mach) : Mach :=
  let owed := (m.spine.reqs.filter (fun r => r.cmd == 0)).map (fun r => r.req)
  let frames := m.spine.onHold.filter (fun x => keptFrame x.2)
  let m := { m with
    spine := { m.spine with reqs := [], gathers := [], hold := 0, onHold := [],
                            heldFrames := m.spine.heldFrames.filter (fun x => keptFrame x.2.2) } }
  let m := frames.foldl (fun m x => launch m x.1 x.2) m
  owed.foldl (fun m q => sendReq m 0 q) m

/-- The pending Waypoints are armed again, each with its identifier (R163, Table 13.6). -/
def rearm (m : Mach) : Mach :=
  (m.run.arms.filter (fun a => decide (gtcNow m < a.t))).foldl
    (fun m a => castTo m { cutFrame a.t (armPayload a.arm) with routine := cmdRoutine m a.cmd } (bitsOf a.dies 100)) m

/-- The Stitches whose Waypoint has passed and that have not completed get FAILOVER in their Colophon (R163). -/
def markDumps (m : Mach) : Mach :=
  (List.range 8).foldl (fun m k => updDump m k (fun x =>
    if 2 ≤ x.state ∧ x.state ≤ 4 ∧ x.t ≤ gtcNow m then { x with failover := true } else x)) m

/-- The scan port and the I3C target of the new instance: its TAP holds IDCODE, a probe that was attached is to send HELLO, and the
target has no address and requests Hot-Join; the endpoint ID is kept (R372, R379). -/
def portsAtTakeover (m : Mach) : Mach :=
  let wait := if m.scan.keepaliveMs = 0 then 10000000000 else m.scan.keepaliveMs * 1000000
  let m := { m with scan := { m.scan with ir := 1, helloDue := if m.scan.attached then some (gtcNow m + wait) else none } }
  emit { m with side := { m.side with addr := none, events := 1, mwl := 69, mrl := 69 } } .hotJoin

/-- The standby becomes the serving hub with its own GTC and the journal (R72, R73, R448). -/
def becomeServing (m : Mach) : Mach :=
  let d := otherDie m
  let m := { m with
    time := { m.time with gtc := BitVec.ofInt 64 ((gtcNow m : Int) + m.time.standby), slew := 0, standby := 0 },
    pins := { m.pins with pwrReq := hf m R.RCV_STATUS_PWR_REQ == 1 },
    peer := { present := false, mute := false, isolated := false, gone := true, onA2 := !m.peer.onA2 } }
  let m := setHf (setHf (setHf m R.HUB_ID_INST_DIE d) R.HUB_STATUS_PEER_OK 0) R.HUB_STATUS_TAKEN_OVER 1
  let m := setHf m R.RCV_STATUS_PEER_ISOLATED 1
  let copy := (m.bup.env.bind (fun e => bootCopy e m.peer.onA2 (ownFlash m))).getD false
  let m := setHf (setHf m R.HUB_STATUS_FW_IMAGE (b2n copy)) R.HUB_SCRATCH_SCRATCH 0
  setHf (incHf m R.RCV_FAILOVER_COUNT) R.RCV_FAILOVER_AT (gtcNow m / 256)

/-- Challenges do not survive a failover (R473). -/
def dropChallenges (m : Mach) : Mach :=
  { m with host := { m.host with sessions := m.host.sessions.map (fun x : Session => { x with challenge := none }) } }

/-- The takeover: ISOLATE, the GTC and the journal, the ports, what waited on the Spine, the pending Waypoints, the commands that were
executing, and HUB_FAILOVER to every open Session. -/
def takeOver (m : Mach) : Mach :=
  let failed := hubDie m
  let m := dropChallenges (becomeServing (quiesce (emit m .isolate)))
  let m := (List.range 4).foldl syncRoutes m
  let m := (List.range 4).foldl rewriteRing (spineAtTakeover (portsAtTakeover m))
  let m := markDumps (rearm m)
  let m := (m.cmds.map (fun c => c.id)).foldl cmdAtTakeover m
  let m := ((m.rtn.runs.filter (fun r => r.waiting.isSome)).map (fun r => r.index)).foldl stepAgain m
  let m := latchFault m 1 (instPath m failed) failed
  fenceAll (promiseSync (hubEvent m EvCode.hubFailover 1 (instPath m failed)))

/-- The meaning of HUB_HEARTBEAT_LOSS: three heartbeats of the serving instance are missing (R446). -/
def execHubHeartbeatLoss (s : State) : Host.Outcome State Fault Refusal :=
  if standbyReady s.m then .next { s with m := takeOver s.m } else .next s

/-! ### Job commands of other packages (R166, R437-R443) -/

/-- The packet that a JOB_CMD token carries: opcode, cookie and body; none when its version or length is not that of a packet. -/
def jobPacket (payload : List Byte) : Option (Nat × Pkt) :=
  let ws := bytesWords payload
  let w := wAt ws 0
  if wfld w 12 4 = 1 ∧ wfld w 0 12 = ws.length ∧ 4 ≤ ws.length ∧ payload.length = 4 * ws.length then
    some (wfld w 16 16, { port := .firmware, session := wAt ws 1, cookie := BitVec.ofNat 64 (w64At ws 2), body := ws.drop 4 })
  else none

/-- Execute a job-scope command of another package at the token's Waypoint. -/
def doJobCmd (m : Mach) (i : Issuer) (op t : Nat) (p : Pkt) : Mach :=
  let q := { p with body := withT p.body 4 t }
  if op = 0x0201 then doHalt m i q
  else if op = 0x0202 then doResume m i q
  else if op = 0x0203 then doStep m i q
  else if op = 0x0504 then doFirstFault m i q
  else if op = 0x0301 then doStitch m i { p with body := withT p.body 5 t }
  else m

/-- The meaning of JOB_CMD_TOKEN: forwarded, and executed for a job that the hub holds; one that comes after its T acts as a late arm
does (R94, R441). The command must name the token's job. -/
def execJobCmdToken (die port : Nat) (token : List Byte) (s : State) : Host.Outcome State Fault Refusal :=
  tokenRow die port token 2 s fun m t =>
    let m := forwardToken m die port token
    match jobPacket t.payload with
    | none => m
    | some (op, p) =>
      let entry := (t.job, t.t, p.cookie, die, port)
      let m := { m with rcv := { m.rcv with arrived := m.rcv.arrived ++ [entry] } }
      let sc := scopeAt m p.body 0
      if (jobParts m t.job).isNone || sc.kind != 6 || sc.unit != t.job then m
      else
        let m := if t.t ≤ gtcNow m then incHf m R.RCV_JOB_LATE else m
        doJobCmd m { origin := .fabric t.job t.t die port, sess := 0, port := .firmware } op t.t p

end Sys2Proof.Machine
end

