-- ==== Sys2Proof/Machine/RegAccess.lean ====
section
/-! DEFINITION. Reads and writes of the hub register window (R9-R11, R34-R37, R462, R517). -/

namespace Sys2Proof.Machine

/-- The access keeps R35: 8 bytes at a multiple of 8, or 4 bytes at a multiple of 4, inside the window. -/
def accessWidthOk (off size : Nat) : Bool :=
  decide (off < 65536) && ((size == 8 && off % 8 == 0) || (size == 4 && off % 4 == 0))

/-- The bits of its register that an access reaches. -/
def accessMask (off size : Nat) : Nat :=
  if size = 8 then 2 ^ 64 - 1 else if off % 8 = 0 then 2 ^ 32 - 1 else 2 ^ 64 - 2 ^ 32

/-- The registers with a read-to-clear field in both halves (R517): TLY_BYTES, TRC_LOST and RTN_STEPS. -/
def spansHalves (base : Nat) : Bool := base == 0x0B10 || base == 0x0C28 || base == 0x0D38

/-- The register reads in the present life-cycle state (R462). -/
def readsNow (m : Mach) (base : Nat) : Bool :=
  !identityOnly m || base == 0 || base == 0x28 || (decide (0x1000 ≤ base) && decide (base < 0x1100))

/-- What the first half of a split read keeps. -/
def setCaptured (m : Mach) (base : Nat) (v : Option Nat) : Mach :=
  { m with host := { m.host with captured := Store.put none m.host.captured base v } }

/-- The value that an access of a register returns, in the bits of its mask. -/
def windowValue (m : Mach) (off size : Nat) : Nat :=
  let base := off - off % 8
  let w := if readsNow m base then (hubView m base).toNat else 0
  if size = 8 then w
  else if off % 8 = 0 then w % 2 ^ 32
  else
    match (if spansHalves base then Store.get none m.host.captured base else none) with
    | some v => if readsNow m base then v else 0
    | none => w / 2 ^ 32

/-- What an access of a register changes by reading. An access that R35 does not admit never comes here: the half that an earlier access
captured stays (R517; log entry 96, DESIGN CHOICE). -/
def windowRead (m : Mach) (off size : Nat) : Mach :=
  let base := off - off % 8
  if !readsNow m base then m
  else if spansHalves base && size == 4 && off % 8 == 0 then setCaptured m base (some ((hubView m base).toNat / 2 ^ 32))
  else hubRead (setCaptured m base none) base (if spansHalves base then 2 ^ 64 - 1 else accessMask off size)

/-- The meaning of RC_READ: a read of the hub window (R9, R35, R517). An isolated instance has released the window (R447, R507).
While no instance serves, the window answers from the hub's registers, SERVING 0 among them (R14; log entry 96, DESIGN CHOICE). -/
def execRcRead (off size : Nat) (s : State) : Host.Outcome State Fault Refusal :=
  if s.m.peer.isolated then .next s
  else if accessWidthOk off size then
    .next { s with m := emit (windowRead s.m off size) (.regData (BitVec.ofNat 64 (windowValue s.m off size))) }
  else .next { s with m := emit (setHf s.m R.HUB_STATUS_BAD_ACCESS 1) (.regData 0) }

/-- The meaning of REGISTER_WRITE: a write of the hub window; IF_CTL, the doorbell and RTN_DOORBELL act (R9-R11, R35-R37). -/
def execRegisterWrite (off size : Nat) (v : W64) (s : State) : Host.Outcome State Fault Refusal :=
  if s.m.peer.isolated then .next s
  else if !accessWidthOk off size then .next { s with m := setHf s.m R.HUB_STATUS_BAD_ACCESS 1 }
  else
    let base := off - off % 8
    let x := (if off % 8 = 0 then v.toNat else v.toNat * 2 ^ 32) &&& accessMask off size
    let s := { s with m := setCaptured s.m base none }
    if base = 0x0418 ∧ off % 8 = 0 then execIfCtlEnable (BitVec.ofNat 64 x) s
    else if base = 0x0458 then execDoorbell size v s
    else if base = 0x0D18 then execRtnDoorbell (BitVec.ofNat 64 x) s
    else .next { s with m := hubStore s.m base x (accessMask off size) }

end Sys2Proof.Machine
end

