-- ==== Sys2Proof/Machine/Dispatch.lean ====
section
/-! DEFINITION. The meaning of each command: one arm per constructor. -/

namespace Sys2Proof.Machine

/-- The effect of a command on the machine. -/
def exec (i : Instr) (s : State) : Host.Outcome State Fault Refusal :=
  match i with
  | .openSession p => Sys2Proof.Machine.execOpenSession p s
  | .closeSession p => Sys2Proof.Machine.execCloseSession p s
  | .fence p => Sys2Proof.Machine.execFence p s
  | .nopCmd p => Sys2Proof.Machine.execNopCmd p s
  | .query p => Sys2Proof.Machine.execQuery p s
  | .haltCmd p => Sys2Proof.Machine.execHaltCmd p s
  | .resumeCmd p => Sys2Proof.Machine.execResumeCmd p s
  | .stepCmd p => Sys2Proof.Machine.execStepCmd p s
  | .peek p => Sys2Proof.Machine.execPeek p s
  | .poke p => Sys2Proof.Machine.execPoke p s
  | .setBreak p => Sys2Proof.Machine.execSetBreak p s
  | .clearBreak p => Sys2Proof.Machine.execClearBreak p s
  | .setFreeze p => Sys2Proof.Machine.execSetFreeze p s
  | .headcount p => Sys2Proof.Machine.execHeadcount p s
  | .stitch p => Sys2Proof.Machine.execStitch p s
  | .dumpPlan p => Sys2Proof.Machine.execDumpPlan p s
  | .press p => Sys2Proof.Machine.execPress p s
  | .exportDump p => Sys2Proof.Machine.execExportDump p s
  | .releaseHamper p => Sys2Proof.Machine.execReleaseHamper p s
  | .migrateCore p => Sys2Proof.Machine.execMigrateCore p s
  | .encodeCmd p => Sys2Proof.Machine.execEncodeCmd p s
  | .decodeCmd p => Sys2Proof.Machine.execDecodeCmd p s
  | .tally p => Sys2Proof.Machine.execTally p s
  | .compare p => Sys2Proof.Machine.execCompare p s
  | .sentinelConfig p => Sys2Proof.Machine.execSentinelConfig p s
  | .firstFault p => Sys2Proof.Machine.execFirstFault p s
  | .traceConfig p => Sys2Proof.Machine.execTraceConfig p s
  | .traceStart p => Sys2Proof.Machine.execTraceStart p s
  | .traceStop p => Sys2Proof.Machine.execTraceStop p s
  | .traceDrain p => Sys2Proof.Machine.execTraceDrain p s
  | .loadRoutine p => Sys2Proof.Machine.execLoadRoutine p s
  | .unloadRoutine p => Sys2Proof.Machine.execUnloadRoutine p s
  | .armTrigger p => Sys2Proof.Machine.execArmTrigger p s
  | .disarmTrigger p => Sys2Proof.Machine.execDisarmTrigger p s
  | .runRoutine p => Sys2Proof.Machine.execRunRoutine p s
  | .rollCall p => Sys2Proof.Machine.execRollCall p s
  | .installLicence p => Sys2Proof.Machine.execInstallLicence p s
  | .readLedger p => Sys2Proof.Machine.execReadLedger p s
  | .stageMode p => Sys2Proof.Machine.execStageMode p s
  | .commitMode p => Sys2Proof.Machine.execCommitMode p s
  | .saveTraining p => Sys2Proof.Machine.execSaveTraining p s
  | .resetScope p => Sys2Proof.Machine.execResetScope p s
  | .abortJob p => Sys2Proof.Machine.execAbortJob p s
  | .setWatchdog p => Sys2Proof.Machine.execSetWatchdog p s
  | .requestPowerCycle p => Sys2Proof.Machine.execRequestPowerCycle p s
  | .authChallenge p => Sys2Proof.Machine.execAuthChallenge p s
  | .authResponse p => Sys2Proof.Machine.execAuthResponse p s
  | .lcTransition p => Sys2Proof.Machine.execLcTransition p s
  | .lcRead p => Sys2Proof.Machine.execLcRead p s
  | .ledgerRevoke p => Sys2Proof.Machine.execLedgerRevoke p s
  | .healthRead p => Sys2Proof.Machine.execHealthRead p s
  | .eolRead p => Sys2Proof.Machine.execEolRead p s
  | .doorbell size v => Sys2Proof.Machine.execDoorbell size v s
  | .ifCtlEnable v => Sys2Proof.Machine.execIfCtlEnable v s
  | .todArm v => Sys2Proof.Machine.execTodArm v s
  | .rtnDoorbell v => Sys2Proof.Machine.execRtnDoorbell v s
  | .tapSntFirstClear die tap j v => Sys2Proof.Machine.execTapSntFirstClear die tap j v s
  | .tapTrcMark die tap v => Sys2Proof.Machine.execTapTrcMark die tap v s
  | .rcRead off size => Sys2Proof.Machine.execRcRead off size s
  | .registerWrite off size v => Sys2Proof.Machine.execRegisterWrite off size v s
  | .ppsEdge => Sys2Proof.Machine.execPpsEdge s
  | .refLoss => Sys2Proof.Machine.execRefLoss s
  | .ppsLoss => Sys2Proof.Machine.execPpsLoss s
  | .refReturn => Sys2Proof.Machine.execRefReturn s
  | .gtcVoid => Sys2Proof.Machine.execGtcVoid s
  | .syncSend => Sys2Proof.Machine.execSyncSend s
  | .syncFrame die f fin sample => Sys2Proof.Machine.execSyncFrame die f fin sample s
  | .echoReq die f turnaround => Sys2Proof.Machine.execEchoReq die f turnaround s
  | .echoRsp die f t4 => Sys2Proof.Machine.execEchoRsp die f t4 s
  | .calibration ring => Sys2Proof.Machine.execCalibration ring s
  | .rdReq die f fin => Sys2Proof.Machine.execRdReq die f fin s
  | .wrReq die f fin => Sys2Proof.Machine.execWrReq die f fin s
  | .rdRsp die f fin => Sys2Proof.Machine.execRdRsp die f fin s
  | .wrRsp die f fin => Sys2Proof.Machine.execWrRsp die f fin s
  | .responseTimeout ring tag => Sys2Proof.Machine.execResponseTimeout ring tag s
  | .bcastWr die f fin => Sys2Proof.Machine.execBcastWr die f fin s
  | .gather die f fin => Sys2Proof.Machine.execGather die f fin s
  | .gatherReturn ring f => Sys2Proof.Machine.execGatherReturn ring f s
  | .heartbeat ring alive => Sys2Proof.Machine.execHeartbeat ring alive s
  | .bulkFrame die f fin => Sys2Proof.Machine.execBulkFrame die f fin s
  | .eventFrame die => Sys2Proof.Machine.execEventFrame die s
  | .segmentDown ring pos lanesLo lanesHi => Sys2Proof.Machine.execSegmentDown ring pos lanesLo lanesHi s
  | .trunkDown trunk => Sys2Proof.Machine.execTrunkDown trunk s
  | .retrain ring pos passed => Sys2Proof.Machine.execRetrain ring pos passed s
  | .shareRelease ring dir => Sys2Proof.Machine.execShareRelease ring dir s
  | .cancel die f fin => Sys2Proof.Machine.execCancel die f fin s
  | .armStitch die f fin => Sys2Proof.Machine.execArmStitch die f fin s
  | .armFrame die f fin => Sys2Proof.Machine.execArmFrame die f fin s
  | .haltStrobe die armId => Sys2Proof.Machine.execHaltStrobe die armId s
  | .tapCountdown die tap armId => Sys2Proof.Machine.execTapCountdown die tap armId s
  | .waypointFire die => Sys2Proof.Machine.execWaypointFire die s
  | .engineBoundary die tap e b => Sys2Proof.Machine.execEngineBoundary die tap e b s
  | .atomicBound die tap e => Sys2Proof.Machine.execAtomicBound die tap e s
  | .coreSleep die tap => Sys2Proof.Machine.execCoreSleep die tap s
  | .coreWake die tap => Sys2Proof.Machine.execCoreWake die tap s
  | .entryBreakpoint die tap e clid entry => Sys2Proof.Machine.execEntryBreakpoint die tap e clid entry s
  | .watchpoint die tap e addr ttype privileged => Sys2Proof.Machine.execWatchpoint die tap e addr ttype privileged s
  | .haltCompletion cmd => Sys2Proof.Machine.execHaltCompletion cmd s
  | .stepLimit die tap e => Sys2Proof.Machine.execStepLimit die tap e s
  | .stepStuck cmd => Sys2Proof.Machine.execStepStuck cmd s
  | .orphanPolicy index => Sys2Proof.Machine.execOrphanPolicy index s
  | .bindMsg b => Sys2Proof.Machine.execBindMsg b s
  | .ownerMsg part digest port => Sys2Proof.Machine.execOwnerMsg part digest port s
  | .jobMsg job parts => Sys2Proof.Machine.execJobMsg job parts s
  | .fabricMsg pkg joined => Sys2Proof.Machine.execFabricMsg pkg joined s
  | .cutPoint die => Sys2Proof.Machine.execCutPoint die s
  | .cutBufferRecord die port bytes vc err => Sys2Proof.Machine.execCutBufferRecord die port bytes vc err s
  | .cutMarker die port => Sys2Proof.Machine.execCutMarker die port s
  | .cutDeadline die => Sys2Proof.Machine.execCutDeadline die s
  | .captureDone die => Sys2Proof.Machine.execCaptureDone die s
  | .stitchProgress slot => Sys2Proof.Machine.execStitchProgress slot s
  | .stitchDeadline slot => Sys2Proof.Machine.execStitchDeadline slot s
  | .hamperClaim stack folio => Sys2Proof.Machine.execHamperClaim stack folio s
  | .tallyPartEnd cmd part readErr => Sys2Proof.Machine.execTallyPartEnd cmd part readErr s
  | .sentinelMatch die tap e w => Sys2Proof.Machine.execSentinelMatch die tap e w s
  | .firstFaultCollect die => Sys2Proof.Machine.execFirstFaultCollect die s
  | .tapTraceRecord die tap x => Sys2Proof.Machine.execTapTraceRecord die tap x s
  | .linkTraceRecord die port x => Sys2Proof.Machine.execLinkTraceRecord die port x s
  | .horizonClose die slot => Sys2Proof.Machine.execHorizonClose die slot s
  | .spillBurst die slot => Sys2Proof.Machine.execSpillBurst die slot s
  | .mergeDiscard slot => Sys2Proof.Machine.execMergeDiscard slot s
  | .routineRunStart => Sys2Proof.Machine.execRoutineRunStart s
  | .routineCommandStep run => Sys2Proof.Machine.execRoutineCommandStep run s
  | .rtnEnd run => Sys2Proof.Machine.execRtnEnd run s
  | .waitTick run => Sys2Proof.Machine.execWaitTick run s
  | .waitTickDone run => Sys2Proof.Machine.execWaitTickDone run s
  | .bcastWrite run => Sys2Proof.Machine.execBcastWrite run s
  | .peekToScratch run => Sys2Proof.Machine.execPeekToScratch run s
  | .setCounter run => Sys2Proof.Machine.execSetCounter run s
  | .decSkip run => Sys2Proof.Machine.execDecSkip run s
  | .skipIf run => Sys2Proof.Machine.execSkipIf run s
  | .jump run => Sys2Proof.Machine.execJump run s
  | .routineEvent run => Sys2Proof.Machine.execRoutineEvent run s
  | .traceCtl run => Sys2Proof.Machine.execTraceCtl run s
  | .routineStepDone run => Sys2Proof.Machine.execRoutineStepDone run s
  | .periodicFiring trigger => Sys2Proof.Machine.execPeriodicFiring trigger s
  | .trigIn pin level => Sys2Proof.Machine.execTrigIn pin level s
  | .pendingFiring trigger => Sys2Proof.Machine.execPendingFiring trigger s
  | .trigOutEnd pin => Sys2Proof.Machine.execTrigOutEnd pin s
  | .sessionTimeout port session => Sys2Proof.Machine.execSessionTimeout port session s
  | .eqRetry session => Sys2Proof.Machine.execEqRetry session s
  | .coalesceEnd session => Sys2Proof.Machine.execCoalesceEnd session s
  | .dmaFailure failure session => Sys2Proof.Machine.execDmaFailure failure session s
  | .instructionLoad ir => Sys2Proof.Machine.execInstructionLoad ir s
  | .testLogicReset => Sys2Proof.Machine.execTestLogicReset s
  | .scanCmd fseq payload fin => Sys2Proof.Machine.execScanCmd fseq payload fin s
  | .scanHello fseq payload fin => Sys2Proof.Machine.execScanHello fseq payload fin s
  | .scanResend fseq payload fin => Sys2Proof.Machine.execScanResend fseq payload fin s
  | .scanBye fseq payload fin => Sys2Proof.Machine.execScanBye fseq payload fin s
  | .trstN => Sys2Proof.Machine.execTrstN s
  | .keepaliveExpiry => Sys2Proof.Machine.execKeepaliveExpiry s
  | .failoverHelloTimeout => Sys2Proof.Machine.execFailoverHelloTimeout s
  | .entdaa address => Sys2Proof.Machine.execEntdaa address s
  | .rstdaa => Sys2Proof.Machine.execRstdaa s
  | .enec events => Sys2Proof.Machine.execEnec events s
  | .disec events => Sys2Proof.Machine.execDisec events s
  | .getpid => Sys2Proof.Machine.execGetpid s
  | .getbcr => Sys2Proof.Machine.execGetbcr s
  | .getdcr => Sys2Proof.Machine.execGetdcr s
  | .getstatus => Sys2Proof.Machine.execGetstatus s
  | .getmwl => Sys2Proof.Machine.execGetmwl s
  | .setmwl length => Sys2Proof.Machine.execSetmwl length s
  | .getmrl => Sys2Proof.Machine.execGetmrl s
  | .setmrl length => Sys2Proof.Machine.execSetmrl length s
  | .setEndpointId hdr data => Sys2Proof.Machine.execSetEndpointId hdr data s
  | .getEndpointId hdr => Sys2Proof.Machine.execGetEndpointId hdr s
  | .getMctpVersionSupport hdr mtype => Sys2Proof.Machine.execGetMctpVersionSupport hdr mtype s
  | .getMessageTypeSupport hdr => Sys2Proof.Machine.execGetMessageTypeSupport hdr s
  | .getVendorDefinedMessageSupport hdr selector => Sys2Proof.Machine.execGetVendorDefinedMessageSupport hdr selector s
  | .errorUnsupportedCmd hdr code => Sys2Proof.Machine.execErrorUnsupportedCmd hdr code s
  | .mctpCommand hdr data => Sys2Proof.Machine.execMctpCommand hdr data s
  | .holdupDrop => Sys2Proof.Machine.execHoldupDrop s
  | .powerOnReset env => Sys2Proof.Machine.execPowerOnReset env s
  | .dbgReset env => Sys2Proof.Machine.execDbgReset env s
  | .warmStart env => Sys2Proof.Machine.execWarmStart env s
  | .modeGather cmd => Sys2Proof.Machine.execModeGather cmd s
  | .watchdogExpired die entry => Sys2Proof.Machine.execWatchdogExpired die entry s
  | .drainEnd part => Sys2Proof.Machine.execDrainEnd part s
  | .rungEnd part => Sys2Proof.Machine.execRungEnd part s
  | .rungBound part => Sys2Proof.Machine.execRungBound part s
  | .warmDone env => Sys2Proof.Machine.execWarmDone env s
  | .epochArrivalDrop die recv part epoch => Sys2Proof.Machine.execEpochArrivalDrop die recv part epoch s
  | .abortToken die port token => Sys2Proof.Machine.execAbortToken die port token s
  | .jobCmdToken die port token => Sys2Proof.Machine.execJobCmdToken die port token s
  | .resultToken die port token => Sys2Proof.Machine.execResultToken die port token s
  | .pwrCycleAssert => Sys2Proof.Machine.execPwrCycleAssert s
  | .hubHeartbeatLoss => Sys2Proof.Machine.execHubHeartbeatLoss s
  | .isolate => Sys2Proof.Machine.execIsolate s
  | .peerLost => Sys2Proof.Machine.execPeerLost s
  | .internalWatchdog => Sys2Proof.Machine.execInternalWatchdog s
  | .lockstepMismatch => Sys2Proof.Machine.execLockstepMismatch s
  | .stationFault die => Sys2Proof.Machine.execStationFault die s
  | .tapFault die tap => Sys2Proof.Machine.execTapFault die tap s
  | .tapAlivePoll die dead => Sys2Proof.Machine.execTapAlivePoll die dead s
  | .secdedError array => Sys2Proof.Machine.execSecdedError array s
  | .scrub die fixes => Sys2Proof.Machine.execScrub die fixes s
  | .wearSample die x => Sys2Proof.Machine.execWearSample die x s
  | .wearFit die x => Sys2Proof.Machine.execWearFit die x s
  | .credentialExpiry => Sys2Proof.Machine.execCredentialExpiry s
  | .linkLayerError die port => Sys2Proof.Machine.execLinkLayerError die port s
  | .peerHeartbeat gtc => Sys2Proof.Machine.execPeerHeartbeat gtc s
  | .trunkRestored trunk => Sys2Proof.Machine.execTrunkRestored trunk s
  | .vdbgLoss => Sys2Proof.Machine.execVdbgLoss s
  | .entryCompleted die tap e more => Sys2Proof.Machine.execEntryCompleted die tap e more s
  | .badTypeFrame die f => Sys2Proof.Machine.execBadTypeFrame die f s
  | .badHeaderFrame bytes => Sys2Proof.Machine.execBadHeaderFrame bytes s
  | .healthFault code unit => Sys2Proof.Machine.execHealthFault code unit s
  | .trigOutStart pin => Sys2Proof.Machine.execTrigOutStart pin s

end Sys2Proof.Machine
end

