-- ==== Sys2Proof/Machine/Idle.lean ====
section
/-! DEFINITION. One clock of 250 MHz: the GTC and the replicas advance, slewing when a slew is due (R71, R85); the outputs
of the Spine, the Stations' trace and the engines of the hub do what is due. -/

namespace Sys2Proof.Machine

/-- The increment of a counter for one clock and what is left of its slew: 4, or 3 or 5 when a slew is owed and the last
one lies at least 1,000 clocks back (R71). Gives increment, slew and clocks since the last slew step. -/
def slewStep (slew : Int) (clk : Nat) : Nat × Int × Nat :=
  if slew = 0 ∨ clk + 1 < 1000 then (4, slew, clk + 1)
  else if 0 < slew then (5, slew - 1, 0)
  else (3, slew + 1, 0)

/-- One clock of a Station's replica: held while it is ahead, else advanced with slew (R85). -/
def replicaClock (x : Station) : Station :=
  if 4 ≤ x.holdFor then { x with holdFor := x.holdFor - 4 }
  else if 0 < x.holdFor then { x with holdFor := 0, replica := x.replica + BitVec.ofNat 64 (4 - x.holdFor) }
  else
    let r := slewStep x.slew x.slewClk
    { x with replica := x.replica + BitVec.ofNat 64 r.1, slew := r.2.1, slewClk := r.2.2 }

/-- One clock of the serving hub's GTC; in holdover HOLD_MS counts (R71, R79). -/
def gtcClock (m : Mach) : Mach :=
  let r := slewStep m.time.slew m.time.slewClk
  let m := { m with time := { m.time with
    gtc := m.time.gtc + BitVec.ofNat 64 r.1, slew := r.2.1, slewClk := r.2.2 } }
  let m := setHf m R.GTC_STATUS_SLEWING (b2n (decide (r.2.1 ≠ 0)))
  if hf m R.GTC_STATUS_HOLDOVER = 1 then
    let n := m.time.holdTicks + r.1
    setHf { m with time := { m.time with holdTicks := n } } R.GTC_STATUS_HOLD_MS (satN 32 (n / 1000000))
  else m

/-- What the engines of the hub do in one clock, while the hub works: holdover (R79), one Codec block (R213), the times of TALLY
runs, the updates of shadow fields (R31, Table 15.3), a phase of LC_TRANSITION and the conditions of the promise (R485). -/
def hubTick (m : Mach) : Mach :=
  if hubStopped m then m else promiseSync (lcTick (bindTick (tallyTick (codecTurn (enterHoldover m)))))

/-- The counters of one clock: 4 ns pass, the GTC and every replica count. -/
def counterTick (m : Mach) : Mach :=
  (List.range 100).foldl (fun m d => updStn m d replicaClock) (gtcClock { m with time := { m.time with ns := m.time.ns + 4 } })

/-- One clock of the whole block: the counters, the outputs (R47), the markers of a cut that are owed (R143), trace, and the hub. -/
def clockTick (m : Mach) : Mach := hubTick (traceTick (sendMarkers (serveOutputs (counterTick m))))

/-- What a step does on an empty queue: one GTC clock passes (log entry 1). -/
def idle (s : State) : State := { s with m := clockTick s.m }

end Sys2Proof.Machine
end

