-- ==== Sys2Proof/WellFormed.lean ====
section
/-! DEFINITION. Which commands are well formed: operands that name units and fields which the package and the formats of
the spec have (Tables 1.1, 1.6, 2.2, 10.14, 16.7). -/

namespace Sys2Proof

/-- A die of the package (Table 1.5). -/
def dieWf (d : Nat) : Bool := decide (d < 100)

/-- A Tap: compute dies have 128 (Table 1.4). -/
def tapWf (d t : Nat) : Bool := decide (d < 64) && decide (t < 128)

/-- An engine of a core. -/
def engWf (d t e : Nat) : Bool := tapWf d t && decide (e < 4)

/-- A link port of a die (Table 1.6). -/
def portWf (d p : Nat) : Bool :=
  dieWf d && decide (p < if d < 64 then 5 else if d < 96 then 2 else 16)

/-- A port that leads out of the package: ports 8-15 of an anchor die (Table 1.6). -/
def outerWf (d p : Nat) : Bool := decide (96 ≤ d) && decide (d < 100) && decide (8 ≤ p) && decide (p < 16)

/-- An array of Table 15.3 that the package has; the hub's own arrays lie on no other die. -/
def eccWf (x : Ecc) : Bool :=
  match x.array with
  | .tapRegister => tapWf x.die x.place
  | .cutBuffer => portWf x.die x.place
  | _ => dieWf x.die

/-- A packet whose length field is one that R334 admits. -/
def pktWf (p : Pkt) : Bool := decide (p.body.length ≤ 4090)

/-- A frame whose fields fit header word 0 and whose payload fits R43. -/
def frameWf (f : Frame) : Bool :=
  decide (f.ftype < 16) && decide (f.dir < 2) && decide (f.dest < 128) && decide (f.src < 128) &&
  decide (f.part < 256) && decide (f.len ≤ 256) && decide (f.tag < 2 ^ 16) && decide (f.payload.length ≤ 256)

/-- A transaction of an engine, of one of the four types (R252, R256). -/
def transactionWf (x : Transaction) : Bool := decide (x.engine < 4) && decide (x.ttype < 4)

/-- A packet at an endpoint: virtual channel, size and header bytes fit a LINK record (Table 8.1). -/
def linkWf (x : LinkHeader) : Bool := decide (x.vc < 8) && decide (x.bytes < 2 ^ 16) && decide (x.header.length ≤ 8)

/-- A BIND message whose fields fit Table 16.7. -/
def bindWf (b : BindMsg) : Bool :=
  decide (b.ch < 16) && decide (b.part < 256) && decide (b.left < 256) && (b.digest.length == 48)

/-- A boundary whose next entry fits a halt record (TAP_RUN_HREC). -/
def boundaryWf (b : Boundary) : Bool := decide (b.clid < 2 ^ 16) && decide (b.entry < 2 ^ 32)

/-- An MCTP header whose fields fit (R375). -/
def hdrWf (h : MctpHeader) : Bool :=
  decide (h.srcEid < 256) && decide (h.dstEid < 256) && decide (h.tag < 8) && decide (h.mctpInstance < 32)

/-- The command is well formed. -/
def Instr.wf (i : Instr) : Bool :=
  match i with
  | .openSession p => pktWf p
  | .closeSession p => pktWf p
  | .fence p => pktWf p
  | .nopCmd p => pktWf p
  | .query p => pktWf p
  | .haltCmd p => pktWf p
  | .resumeCmd p => pktWf p
  | .stepCmd p => pktWf p
  | .peek p => pktWf p
  | .poke p => pktWf p
  | .setBreak p => pktWf p
  | .clearBreak p => pktWf p
  | .setFreeze p => pktWf p
  | .headcount p => pktWf p
  | .stitch p => pktWf p
  | .dumpPlan p => pktWf p
  | .press p => pktWf p
  | .exportDump p => pktWf p
  | .releaseHamper p => pktWf p
  | .migrateCore p => pktWf p
  | .encodeCmd p => pktWf p
  | .decodeCmd p => pktWf p
  | .tally p => pktWf p
  | .compare p => pktWf p
  | .sentinelConfig p => pktWf p
  | .firstFault p => pktWf p
  | .traceConfig p => pktWf p
  | .traceStart p => pktWf p
  | .traceStop p => pktWf p
  | .traceDrain p => pktWf p
  | .loadRoutine p => pktWf p
  | .unloadRoutine p => pktWf p
  | .armTrigger p => pktWf p
  | .disarmTrigger p => pktWf p
  | .runRoutine p => pktWf p
  | .rollCall p => pktWf p
  | .installLicence p => pktWf p
  | .readLedger p => pktWf p
  | .stageMode p => pktWf p
  | .commitMode p => pktWf p
  | .saveTraining p => pktWf p
  | .resetScope p => pktWf p
  | .abortJob p => pktWf p
  | .setWatchdog p => pktWf p
  | .requestPowerCycle p => pktWf p
  | .authChallenge p => pktWf p
  | .authResponse p => pktWf p
  | .lcTransition p => pktWf p
  | .lcRead p => pktWf p
  | .ledgerRevoke p => pktWf p
  | .healthRead p => pktWf p
  | .eolRead p => pktWf p
  | .doorbell size _ => (size == 4 || size == 8)
  | .ifCtlEnable _ => true
  | .todArm _ => true
  | .rtnDoorbell _ => true
  | .tapSntFirstClear die tap j _ => tapWf die tap && decide (j < 2)
  | .tapTrcMark die tap _ => tapWf die tap
  | .rcRead off size => decide (off < 2 ^ 16) && (size == 4 || size == 8)
  | .registerWrite off size _ => decide (off < 2 ^ 16) && (size == 4 || size == 8)
  | .ppsEdge => true
  | .refLoss => true
  | .ppsLoss => true
  | .refReturn => true
  | .gtcVoid => true
  | .syncSend => true
  | .syncFrame die f _ _ => dieWf die && frameWf f
  | .echoReq die f _ => dieWf die && frameWf f
  | .echoRsp die f _ => dieWf die && frameWf f
  | .calibration ring => decide (ring < 4)
  | .rdReq die f _ => dieWf die && frameWf f
  | .wrReq die f _ => dieWf die && frameWf f
  | .rdRsp die f _ => dieWf die && frameWf f
  | .wrRsp die f _ => dieWf die && frameWf f
  | .responseTimeout ring _ => decide (ring < 4)
  | .bcastWr die f _ => dieWf die && frameWf f
  | .gather die f _ => dieWf die && frameWf f
  | .gatherReturn ring f => decide (ring < 4) && frameWf f.frame
  | .heartbeat ring alive => decide (ring < 4) && decide (alive < 2 ^ 25)
  | .bulkFrame die f _ => dieWf die && frameWf f
  | .eventFrame die => dieWf die
  | .segmentDown ring pos _ _ => decide (ring < 4) && decide (pos < 25)
  | .trunkDown trunk => decide (trunk < 4)
  | .retrain ring pos _ => decide (ring < 4) && decide (pos < 25)
  | .shareRelease ring dir => decide (ring < 4) && decide (dir < 2)
  | .cancel die f _ => dieWf die && frameWf f
  | .armStitch die f _ => dieWf die && frameWf f
  | .armFrame die f _ => dieWf die && frameWf f
  | .haltStrobe die _ => dieWf die
  | .tapCountdown die tap _ => tapWf die tap
  | .waypointFire die => dieWf die
  | .engineBoundary die tap e b => engWf die tap e && boundaryWf b
  | .atomicBound die tap e => engWf die tap e
  | .coreSleep die tap => tapWf die tap
  | .coreWake die tap => tapWf die tap
  | .entryBreakpoint die tap e _ _ => engWf die tap e
  | .watchpoint die tap e _ _ _ => engWf die tap e
  | .haltCompletion _ => true
  | .stepLimit die tap e => engWf die tap e
  | .stepStuck _ => true
  | .orphanPolicy _ => true
  | .bindMsg b => bindWf b
  | .ownerMsg part digest _ => decide (part < 256) && (digest.length == 48)
  | .jobMsg _ _ => true
  | .fabricMsg pkg _ => decide (pkg < 256)
  | .cutPoint die => dieWf die
  | .cutBufferRecord die port _ _ _ => portWf die port
  | .cutMarker die port => portWf die port
  | .cutDeadline die => dieWf die
  | .captureDone die => dieWf die
  | .stitchProgress slot => decide (slot < 8)
  | .stitchDeadline slot => decide (slot < 8)
  | .hamperClaim stack folio => decide (stack < 32) && decide (folio < 172032)
  | .tallyPartEnd _ _ _ => true
  | .sentinelMatch die tap e w => tapWf die tap && (e == 1 || e == 2) && decide (w.format < 16)
  | .firstFaultCollect die => dieWf die
  | .tapTraceRecord die tap x => tapWf die tap && transactionWf x
  | .linkTraceRecord die port x => portWf die port && linkWf x
  | .horizonClose die slot => dieWf die && decide (slot < 8)
  | .spillBurst die slot => dieWf die && decide (slot < 8)
  | .mergeDiscard slot => decide (slot < 8)
  | .routineRunStart => true
  | .routineCommandStep _ => true
  | .rtnEnd _ => true
  | .waitTick _ => true
  | .waitTickDone _ => true
  | .bcastWrite _ => true
  | .peekToScratch _ => true
  | .setCounter _ => true
  | .decSkip _ => true
  | .skipIf _ => true
  | .jump _ => true
  | .routineEvent _ => true
  | .traceCtl _ => true
  | .routineStepDone _ => true
  | .periodicFiring trigger => decide (trigger < 64)
  | .trigIn pin _ => decide (pin < 4)
  | .pendingFiring trigger => decide (trigger < 64)
  | .trigOutEnd pin => decide (pin < 4)
  | .sessionTimeout _ _ => true
  | .eqRetry _ => true
  | .coalesceEnd _ => true
  | .dmaFailure _ _ => true
  | .instructionLoad _ => true
  | .testLogicReset => true
  | .scanCmd fseq _ _ => decide (fseq < 2 ^ 16)
  | .scanHello fseq _ _ => decide (fseq < 2 ^ 16)
  | .scanResend fseq _ _ => decide (fseq < 2 ^ 16)
  | .scanBye fseq _ _ => decide (fseq < 2 ^ 16)
  | .trstN => true
  | .keepaliveExpiry => true
  | .failoverHelloTimeout => true
  | .entdaa _ => true
  | .rstdaa => true
  | .enec _ => true
  | .disec _ => true
  | .getpid => true
  | .getbcr => true
  | .getdcr => true
  | .getstatus => true
  | .getmwl => true
  | .setmwl _ => true
  | .getmrl => true
  | .setmrl _ => true
  | .setEndpointId hdr _ => hdrWf hdr
  | .getEndpointId hdr => hdrWf hdr
  | .getMctpVersionSupport hdr _ => hdrWf hdr
  | .getMessageTypeSupport hdr => hdrWf hdr
  | .getVendorDefinedMessageSupport hdr _ => hdrWf hdr
  | .errorUnsupportedCmd hdr _ => hdrWf hdr
  | .mctpCommand hdr _ => hdrWf hdr
  | .holdupDrop => true
  | .powerOnReset _ => true
  | .dbgReset _ => true
  | .warmStart _ => true
  | .modeGather _ => true
  | .watchdogExpired die entry => decide (die < 64) && decide (entry < 512)
  | .drainEnd part => decide (part < 256)
  | .rungEnd part => decide (part < 257)
  | .rungBound part => decide (part < 257)
  | .warmDone _ => true
  | .epochArrivalDrop die recv part _ => dieWf die && decide (recv < 160) && decide (part < 256)
  | .abortToken die port _ => outerWf die port
  | .jobCmdToken die port _ => outerWf die port
  | .resultToken die port _ => outerWf die port
  | .pwrCycleAssert => true
  | .hubHeartbeatLoss => true
  | .isolate => true
  | .peerLost => true
  | .internalWatchdog => true
  | .lockstepMismatch => true
  | .stationFault die => dieWf die
  | .tapFault die tap => tapWf die tap
  | .tapAlivePoll die _ => decide (die < 64)
  | .secdedError array => eccWf array
  | .scrub die _ => (match die with | some d => dieWf d | none => true)
  | .wearSample die _ => dieWf die
  | .wearFit die _ => dieWf die
  | .credentialExpiry => true
  | .linkLayerError die port => portWf die port
  | .peerHeartbeat _ => true
  | .trunkRestored trunk => decide (trunk < 4)
  | .vdbgLoss => true
  | .entryCompleted die tap e _ => engWf die tap e
  | .badTypeFrame die f => dieWf die && frameWf f
  | .badHeaderFrame _ => true
  | .healthFault _ unit => dieWf ((unit.toNat >>> 17) % 128)
  | .trigOutStart pin => decide (pin < 4)

end Sys2Proof
end

