-- ==== Sys2Proof/Safety.lean ====
section
/-! DEFINITION. The words in which statements are made: a command completes with a machine, a host command is the next of its lane,
a step is safe, a queue is well formed. -/

namespace Sys2Proof.Machine

/-- The command completes: it answers a next state whose machine is `m` and whose queue is the rest of the queue. -/
def Done (i : Instr) (s : State) (m : Mach) : Prop := exec i s = .next { s with m := m }

/-- The command completes, and q holds of the machine after it. -/
def Runs (i : Instr) (s : State) (q : Mach → Prop) : Prop := ∃ m, Done i s m ∧ q m

/-- The command leaves the machine as it is. -/
def Inert (i : Instr) (s : State) : Prop := exec i s = .next s

/-- A step is safe: it answers a next state. -/
def SafeStep (s : State) : Prop := ∃ t, step s = .next t

/-- Every command that waits is well formed. -/
def QueueWf (s : State) : Prop := ∀ c ∈ s.pending, c.wf = true

/-- A BIND message names a unit that can be bound (R29); every other command names none. -/
def bindNamed (i : Instr) : Bool := match i with
  | .bindMsg b => (bindUnit b).isSome
  | _ => true

/-! ### Host commands -/

/-- The Session of a packet. -/
def pktSid (p : Pkt) : Nat := sidOf p.port p.session

/-- The opcodes that a Session may use before it is open (Table 10.6, row 6). -/
def opensFirst (op : Nat) : Bool := op == 0x0101 || op == 0x0104 || op == 0x0105

/-- Nothing keeps the first packet of a lane from being dispatched but the Session being open and the port carrying the opcode. -/
def laneReady (op : Nat) (p : Pkt) (m : Mach) (l x : Session) : Prop :=
  hubStopped m = false ∧ p.port ≠ .firmware ∧ sessOf m (laneSid (pktSid p)) = some l ∧ sessOf m (pktSid p) = some x ∧
  l.ready.head? = some (op, p) ∧ laneExecuting m (laneSid (pktSid p)) = false ∧ (x.ending = 0 ∨ x.ending = 4) ∧ x.held.length < 16

/-- The hub dispatches this packet now: it works, and the packet is firmware's own (R90); or the packet is the first of its lane, no
command of the lane executes, fewer than 16 records are held for its Session, that is open, and the port carries the opcode (R337,
R338, R340, R366). -/
def hostFront (op : Nat) (p : Pkt) (m : Mach) : Bool :=
  !hubStopped m && (p.port == .firmware ||
    match sessOf m (laneSid (pktSid p)), sessOf m (pktSid p) with
    | some l, some x =>
      l.ready.head? == some (op, p) && !laneExecuting m (laneSid (pktSid p)) && (x.ending == 0 || x.ending == 4) &&
      decide (x.held.length < 16) && (x.open_ || opensFirst op) && portCarries p op
    | _, _ => false)

/-- Who issues a packet. -/
def hostIssuer (p : Pkt) : Issuer :=
  if p.port = .firmware then { origin := .firmware, sess := 0, port := .firmware }
  else { origin := .session (pktSid p), sess := pktSid p, port := p.port }

/-- The machine once the packet has been taken from its lane. -/
def hostTaken (m : Mach) (p : Pkt) : Mach :=
  if p.port = .firmware then m else updSess m (laneSid (pktSid p)) (fun y => { y with ready := y.ready.drop 1 })

/-- The command that an opcode of Table 10.8 names, with its packet. -/
def hostInstr (op : Nat) (p : Pkt) : Option Instr := match op with
  | 0x0101 => some (.openSession p)
  | 0x0102 => some (.closeSession p)
  | 0x0103 => some (.fence p)
  | 0x0104 => some (.nopCmd p)
  | 0x0105 => some (.query p)
  | 0x0201 => some (.haltCmd p)
  | 0x0202 => some (.resumeCmd p)
  | 0x0203 => some (.stepCmd p)
  | 0x0204 => some (.peek p)
  | 0x0205 => some (.poke p)
  | 0x0206 => some (.setBreak p)
  | 0x0207 => some (.clearBreak p)
  | 0x0208 => some (.setFreeze p)
  | 0x0209 => some (.headcount p)
  | 0x0301 => some (.stitch p)
  | 0x0302 => some (.press p)
  | 0x0303 => some (.exportDump p)
  | 0x0304 => some (.releaseHamper p)
  | 0x0305 => some (.migrateCore p)
  | 0x0306 => some (.dumpPlan p)
  | 0x0401 => some (.encodeCmd p)
  | 0x0402 => some (.decodeCmd p)
  | 0x0501 => some (.tally p)
  | 0x0502 => some (.compare p)
  | 0x0503 => some (.sentinelConfig p)
  | 0x0504 => some (.firstFault p)
  | 0x0601 => some (.traceConfig p)
  | 0x0602 => some (.traceStart p)
  | 0x0603 => some (.traceStop p)
  | 0x0604 => some (.traceDrain p)
  | 0x0701 => some (.loadRoutine p)
  | 0x0702 => some (.unloadRoutine p)
  | 0x0703 => some (.armTrigger p)
  | 0x0704 => some (.disarmTrigger p)
  | 0x0705 => some (.runRoutine p)
  | 0x0801 => some (.rollCall p)
  | 0x0802 => some (.installLicence p)
  | 0x0803 => some (.readLedger p)
  | 0x0804 => some (.stageMode p)
  | 0x0805 => some (.commitMode p)
  | 0x0806 => some (.saveTraining p)
  | 0x0901 => some (.resetScope p)
  | 0x0902 => some (.abortJob p)
  | 0x0903 => some (.setWatchdog p)
  | 0x0904 => some (.requestPowerCycle p)
  | 0x0A01 => some (.authChallenge p)
  | 0x0A02 => some (.authResponse p)
  | 0x0A03 => some (.lcTransition p)
  | 0x0A04 => some (.lcRead p)
  | 0x0A05 => some (.ledgerRevoke p)
  | 0x0B01 => some (.healthRead p)
  | 0x0B02 => some (.eolRead p)
  | _ => none

/-- What follows a dispatch: an ending Session goes on to end, and the lane's next packet is read (R331, R338). -/
def hostAfter (m : Mach) (p : Pkt) : Mach :=
  if p.port = .firmware then m else readNext (endCheck m (pktSid p)) (pktSid p)

/-- The host command completes as `f` says of the machine from which its packet was taken, and its issuer. -/
def HostDone (i : Instr) (p : Pkt) (s : State) (f : Mach → Issuer → Mach) : Prop :=
  Done i s (hostAfter (f (hostTaken s.m p) (hostIssuer p)) p)

/-- The command is answered at once: `f` gives the machine and the detail of a reply with status OK. -/
def HostAnswers (i : Instr) (op : Nat) (p : Pkt) (s : State) (f : Mach → Issuer → Mach × List W32) : Prop :=
  HostDone i p s fun m u => answer (f m u).1 u op p.cookie St.ok (f m u).2

/-! ### Frames and steps of Routines -/

/-- A frame of the type reaches a Station of the package that takes frames and that the frame addresses: its DEST is not reserved, and
it is no turned frame that ends at position 0 (R46, R48, R62). -/
def rxGood (m : Mach) (die : Nat) (f : Frame) (ty : Nat) : Bool :=
  decide (die < 100) && stnLive m die && f.ftype == ty && !destReserved f && !(posOf die == 0 && f.wrapped && !isGather f) &&
  addressed (noteEnd m die f .good) die f

/-- The machine as a good frame that a Station takes leaves it before it acts: the run of bad ends is over, and the Station has passed
the frame on as it may (R45, R48, R60). A gather is passed on by its own row. -/
def rxTaken (m : Mach) (die : Nat) (f : Frame) : Mach :=
  let n := noteEnd m die f .good
  if isGather f then n else passOn n die f .good

/-- The run executes, at a boundary of its steps, a step with the opcode, with its Routine and fields (R301). -/
def stepReady (m : Mach) (run op : Nat) (r : Run) (y : Routine) (x : StepF) : Prop :=
  runOf m run = some r ∧ routineOf m r.routine r.sid = some y ∧ r.executing = true ∧ atBoundary r = true ∧ r.result = none ∧
  ∃ v, y.steps[r.pc]? = some v ∧ stepOf v = x ∧ x.op = op

/-- The machine once a step has been taken: it is counted, and the run is within it (R301). -/
def stepTaken (m : Mach) (run : Nat) (x : StepF) : Mach :=
  incHf (updRun m run (fun z => { z with steps := z.steps + 1, busyStep := true, scratchTo := x.toScratch })) R.RTN_STEPS_STEPS

/-- The run as the step sees it. -/
def runTaken (r : Run) (x : StepF) : Run := { r with steps := r.steps + 1, busyStep := true, scratchTo := x.toScratch }

/-- A step completes as g says, while its run has made fewer than 65,536. -/
def StepDone (i : Instr) (s : State) (run : Nat) (r : Run) (y : Routine) (x : StepF) (g : Mach → Run → Routine → StepF → Mach) : Prop :=
  r.steps < 65536 → Done i s (g (stepTaken s.m run x) (runTaken r x) y x)

/-- A token that arrives whole on a fabric port of the package, of the type, not seen before (R436 to R438). -/
def tokenArrives (m : Mach) (die port : Nat) (b : List Byte) (ty : Nat) (t : Token) : Prop :=
  die < 100 ∧ port < portsOf die ∧ farEnd die port = none ∧ hubStopped m = false ∧ tokenOf b = some t ∧ t.ttype = ty ∧
  m.rcv.seen.contains (t.origin, t.seq) = false

/-- The machine once a token has been counted and its origin and sequence noted. -/
def tokenTaken (m : Mach) (t : Token) : Mach :=
  incHf { m with rcv := { m.rcv with seen := m.rcv.seen ++ [(t.origin, t.seq)] } } R.RCV_JOB_RECEIVED

/-- A frame of the scan stream that the hub takes (R350 to R355). -/
def scanGood (m : Mach) (hello : Bool) (payload : List Byte) (fin : ScanEnd) : Bool :=
  streamOpen m && decide (payload.length ≤ 16376) && (fin != .crcBad) && (hello || m.scan.attached)

end Sys2Proof.Machine
end

