-- ==== Sys2Proof/Certificates/Slice0/Obligations.lean ====
section
/-! DEFINITION. The statements for the provers. -/

open Sys2Proof Sys2Proof.Machine

/-! ### The queue -/

/-- A step takes the command at the front of the queue and runs it on the machine with the rest of the queue; on an empty queue one
clock of 250 MHz passes instead (the model's choice, log entry 1). -/
def Obligations.StepRunsFront : Prop :=
  (∀ (c : Instr) (s : State), step { s with pending := c :: s.pending } = exec c s) ∧
  (∀ s : State, s.pending = [] → step s = .next (idle s))

/-- On an empty queue one clock passes: first the counters, then what is due by their new time at the outputs of the Spine, in the
trace units and in the hub. The GTC advances by 4 ns; while a slew is owed and 1,000 clocks have passed since the last step of it, by 3
or 5 instead, which works off 1 ns (R71); every replica counts the clock by its own slew, or is held (R85); and counting leaves every
memory, register window of the Stations and Taps, command, engine, core, Session and output as it was. Log entry 1: that this clock
passes on an empty queue is the model's choice. -/
def Obligations.IdleAdvancesTime : Prop :=
  ∀ s : State, s.pending = [] →
    let n := counterTick s.m
    step s = .next { s with m := hubTick (traceTick (sendMarkers (serveOutputs n))) } ∧ n.time.ns = s.m.time.ns + 4 ∧
    (if s.m.time.slew = 0 ∨ s.m.time.slewClk + 1 < 1000 then
       n.time.gtc = s.m.time.gtc + 4 ∧ n.time.slew = s.m.time.slew ∧ n.time.slewClk = s.m.time.slewClk + 1
     else if 0 < s.m.time.slew then
       n.time.gtc = s.m.time.gtc + 5 ∧ n.time.slew = s.m.time.slew - 1 ∧ n.time.slewClk = 0
     else n.time.gtc = s.m.time.gtc + 3 ∧ n.time.slew = s.m.time.slew + 1 ∧ n.time.slewClk = 0) ∧
    (∀ d < 100, stn n d = replicaClock (stn s.m d)) ∧
    n.hostMem = s.m.hostMem ∧ n.hbm = s.m.hbm ∧ n.coreMem = s.m.coreMem ∧ n.sregs = s.m.sregs ∧ n.cmds = s.m.cmds ∧
    n.engs = s.m.engs ∧ n.cores = s.m.cores ∧ n.host = s.m.host ∧ n.out = s.m.out

/-- PROGRESS. Every well-formed command, a BIND naming a unit that can be bound, answers a next state from every state whatever, and
leaves the rest of the queue as it was: ordinary data never stops the block. -/
def Obligations.WellFormedCommandsRun : Prop :=
  ∀ (i : Instr) (s : State), i.wf = true → bindNamed i = true → ∃ m, exec i s = .next { s with m := m }

/-- No command is refused, and the only fault is that of a command that names a unit the package does not have. -/
def Obligations.OnlyAbsentUnitsStop : Prop :=
  ∀ (i : Instr) (s : State),
    (∃ m, exec i s = .next { s with m := m }) ∨ exec i s = .fault .noSuchUnit ∧ (i.wf = false ∨ bindNamed i = false)

/-- A queue of n well-formed commands drains in n steps, from every state whatever. -/
def Obligations.QueueDrains : Prop :=
  ∀ s : State, QueueWf s → (∀ c ∈ s.pending, bindNamed c = true) →
    ∃ t, Host.Core.run Sys2Proof.core s.pending.length s = .next t ∧ t.pending = []

/-- No step brings an ill-formed command into the queue. -/
def Obligations.StepKeepsQueueWf : Prop :=
  ∀ s t : State, QueueWf s → step s = .next t → QueueWf t ∧ t.pending = s.pending.tail

/-- What reset leaves: an empty, well-formed queue, every memory and register window in canonical form with nothing listed, the GTC at 0,
nothing executing and no Session, and the reset values that the spec gives of HUB_STATUS, SPN_CTL and RCV_BOUNDS. -/
def Obligations.ResetHolds : Prop :=
  QueueWf State.reset ∧ State.reset.pending = [] ∧
  Store.wf (fun _ => memDefault) State.reset.m.hostMem = true ∧ Store.wf (fun _ => memDefault) State.reset.m.hbm = true ∧
  Store.wf (fun k => hubReset k) State.reset.m.hregs = true ∧ gtcNow State.reset.m = 0 ∧ State.reset.m.cmds = [] ∧
  State.reset.m.host.sessions = []

/-! ### Host commands: Sessions (Table 10.9) -/

/-- OPEN_SESSION opens the Session of its ring, or on the scan port and sideband a new one under the next handle, with OBSERVE over the
partitions asked for that count as owned; CLOSE_SESSION begins the end of its Session; FENCE waits for what was armed before it; NOP and
QUERY answer. -/
def Obligations.SessionCommandsComplete : Prop :=
  (∀ (p : Pkt) (s : State), hostFront 0x0101 p s.m = true → p.port = .host → p.body.length = 9 →
    (sessOf s.m (pktSid p)).any (fun x => !x.open_) = true →
    HostDone (.openSession p) p s fun m u =>
      answer (openRing m u.sess (wAt p.body 8).toNat (openGrants m .host (partMapAt p.body 0))) u 0x0101 p.cookie St.ok
        (leWords 8 (grantMap (openGrants m .host (partMapAt p.body 0))).toNat)) ∧
  (∀ (p : Pkt) (s : State), hostFront 0x0101 p s.m = true → p.port = .scan ∨ p.port = .sideband → p.body.length = 9 →
    portSess (hostTaken s.m p) p.port = none → (sessOf (hostTaken s.m p) (pktSid p)).any (fun x => x.open_) = false →
    HostDone (.openSession p) p s fun m u =>
      let h := nextHandle m u.port
      postRecord (openPort m u.port (wAt p.body 8).toNat (openGrants m u.port (partMapAt p.body 0))) (sidOf u.port h)
        (completion (openPort m u.port (wAt p.body 8).toNat (openGrants m u.port (partMapAt p.body 0))) h 0x0101 p.cookie St.ok
          (leWords 8 (grantMap (openGrants m u.port (partMapAt p.body 0))).toNat)) false) ∧
  (∀ (p : Pkt) (s : State), hostFront 0x0102 p s.m = true → p.body = [] →
    HostDone (.closeSession p) p s fun m u => endSession m u.sess 1 p.cookie) ∧
  (∀ (p : Pkt) (s : State), hostFront 0x0103 p s.m = true → p.body = [] →
    HostDone (.fence p) p s fun m u =>
      let (c, m') := newCmd m u 0x0103 p.cookie [] noScope
      fenceAll (updCmd m' c.id (fun x => { x with need := ((sessOf m u.sess).map (fun z => z.held.length)).getD 0 }))) ∧
  (∀ (p : Pkt) (s : State), hostFront 0x0104 p s.m = true → p.body = [] →
    HostAnswers (.nopCmd p) 0x0104 p s fun m _ => (m, [])) ∧
  (∀ (p : Pkt) (s : State), hostFront 0x0105 p s.m = true → p.body = [0, 0] →
    HostAnswers (.query p) 0x0105 p s fun m _ => (m, w2 (hget m 0x0498).toNat ++ w2 (hget m 0x0010).toNat ++ w2 (gtcNow m))) ∧
  (∀ (p : Pkt) (s : State), hostFront 0x0105 p s.m = true → p.body = [1, 0] →
    HostAnswers (.query p) 0x0105 p s fun m u =>
      (m, bytesWords ((List.range 256).map (fun q => BitVec.ofNat 8 (levelOf m u.sess q))))) ∧
  (∀ (p : Pkt) (s : State) (kind st slot : Nat) (h : W32), hostFront 0x0105 p s.m = true → kind ≤ 4 →
    p.body = [BitVec.ofNat 32 (2 + kind * 2 ^ 16), h] → queryObject (hostTaken s.m p) (hostIssuer p) kind h = some (st, slot) →
    queryDenied (hostTaken s.m p) (hostIssuer p) kind h = false →
    HostAnswers (.query p) 0x0105 p s fun m _ => (m, w1 kind ++ w1 st ++ w1 slot))

/-! ### Host commands: run control (Table 4.12) -/

/-- HALT, RESUME and STEP that pass the checks of R92, R105, R106 and R116 arm their Waypoint on the Stations of their scope: a halt at T,
or at once with IMMEDIATE; a release; a step. HEADCOUNT starts its gathers. -/
def Obligations.RunControlCommandsComplete : Prop :=
  (∀ (p : Pkt) (s : State), hostFront 0x0201 p s.m = true →
    let m := hostTaken s.m p
    let sc := scopeAt m p.body 0
    let flags := (wAt p.body 6).toNat
    let imm := nbit flags 0
    p.body.length = 7 → scopeOk m p.body 0 = true → flags < 8 → (imm = true → sc.kind ≠ 6) →
    waypointStatus m (hostIssuer p) sc 2 (leadOf sc.kind) (if imm then 0 else w64At p.body 4) (if imm then 0 else 1) false false = 0 →
    HostDone (.haltCmd p) p s fun m u =>
      (startHalt m u p.cookie p.body sc (if imm then 0 else resolveT m (leadOf sc.kind) (w64At p.body 4)) flags
        (if imm then 6 else 5)).2) ∧
  (∀ (p : Pkt) (s : State), hostFront 0x0202 p s.m = true →
    let m := hostTaken s.m p
    let sc := scopeAt m p.body 0
    let flags := (wAt p.body 6).toNat
    let imm := nbit flags 0
    let at_ := if imm then 0 else resolveT m (leadOf sc.kind) (w64At p.body 4)
    p.body.length = 7 → scopeOk m p.body 0 = true → flags < 2 → (imm = true → sc.kind ≠ 6) →
    stitchOverlaps m sc = false → (imm = false → haltOverlaps m sc at_ = false) →
    waypointStatus m (hostIssuer p) sc 2 (leadOf sc.kind) (if imm then 0 else w64At p.body 4) (if imm then 0 else 1) false false = 0 →
    HostDone (.resumeCmd p) p s fun m u => startResume m u p.cookie p.body sc at_ false) ∧
  (∀ (p : Pkt) (s : State), hostFront 0x0203 p s.m = true →
    let m := hostTaken s.m p
    let sc := scopeAt m p.body 0
    let w := wAt p.body 6
    let mode := wfld w 0 2
    let limit := wfld w 16 16
    let at_ := resolveT m (leadOf sc.kind) (w64At p.body 4)
    p.body.length = 8 → scopeOk m p.body 0 = true → wfld w 2 14 = 0 →
    (mode = 0 ∧ sc.kind = 0 ∧ limit ≠ 0 ∨ mode = 1 ∧ sc.kind = 1 ∧ limit ≠ 0 ∨ mode = 2 ∧ (wAt p.body 7).toNat ≠ 0) →
    stitchOverlaps m sc = false → haltOverlaps m sc at_ = false →
    waypointStatus m (hostIssuer p) sc 2 (leadOf sc.kind) (w64At p.body 4) (if mode = 2 then 2 else 1) false false = 0 →
    HostDone (.stepCmd p) p s fun m u => startStep m u p sc at_) ∧
  (∀ (p : Pkt) (s : State), hostFront 0x0209 p s.m = true →
    let m := hostTaken s.m p
    let sc := scopeAt m p.body 0
    let q := (wAt p.body 4).toNat
    p.body.length = 5 → scopeOk m p.body 0 = true → headcountQuery q = true → scopeDark m sc = false →
    (if 0x32 ≤ q then ∃ k < 256, 1 ≤ issLevel m (hostIssuer p) k else scopeLevel m (hostIssuer p) sc 1 = true) →
    scopeMoved m sc = false →
    HostDone (.headcount p) p s fun m u => startHeadcount m u p sc q false)

/-! ### Host commands: inspection (Tables 4.9, 4.10, 4.12) -/

/-- PEEK and POKE that pass Table 4.10 send their requests, or with length 0 answer at once; SET_BREAK and CLEAR_BREAK write the images of
their slots; SET_FREEZE changes the hub's copy of the partition's settings in the bits of its mask and sends it to every Station. -/
def Obligations.InspectCommandsComplete : Prop :=
  (∀ (p : Pkt) (s : State), hostFront 0x0204 p s.m = true →
    peekStatus (hostTaken s.m p) (hostIssuer p) p.body false 8 = 0 →
    HostDone (.peek p) p s fun m u =>
      if peekLength p.body = 0 then answer m u 0x0204 p.cookie St.ok [] else startPeek m u p false false) ∧
  (∀ (p : Pkt) (s : State), hostFront 0x0205 p s.m = true →
    peekStatus (hostTaken s.m p) (hostIssuer p) p.body true (8 + peekLength p.body / 4) = 0 →
    HostDone (.poke p) p s fun m u =>
      if peekLength p.body = 0 then answer m u 0x0205 p.cookie St.ok (w1 0) else startPeek m u p true false) ∧
  (∀ (p : Pkt) (s : State) (slot : Nat), hostFront 0x0206 p s.m = true → slot < 12 → wAt p.body 3 = BitVec.ofNat 32 slot →
    p.body.length = 10 → imagesOk slot p.body = true → breakStatus (hostTaken s.m p) (hostIssuer p) p.body false = 0 →
    HostDone (.setBreak p) p s fun m u =>
      startWrites m u 0x0206 p (tapWrites (upDie (wAt p.body 0)) (upTap (wAt p.body 0)) (wAt p.body 1).toNat (wAt p.body 2).toNat
        (slotImages slot p.body))) ∧
  (∀ (p : Pkt) (s : State), hostFront 0x0207 p s.m = true → p.body.length = 4 → (wAt p.body 3).toNat < 2 ^ 12 →
    breakStatus (hostTaken s.m p) (hostIssuer p) p.body false = 0 →
    HostDone (.clearBreak p) p s fun m u =>
      startWrites m u 0x0207 p (tapWrites (upDie (wAt p.body 0)) (upTap (wAt p.body 0)) (wAt p.body 1).toNat (wAt p.body 2).toNat
        ((bitsOf (wAt p.body 3).toNat 12).flatMap zeroImages))) ∧
  (∀ (p : Pkt) (s : State) (part mask value : Nat), hostFront 0x0208 p s.m = true → part < 256 → mask < 32 → value < 32 →
    p.body = [BitVec.ofNat 32 part, BitVec.ofNat 32 (epochOf (hostTaken s.m p) part), BitVec.ofNat 32 (mask + value * 2 ^ 8)] →
    epochOf (hostTaken s.m p) part < 2 ^ 32 → 2 ≤ issLevel (hostTaken s.m p) (hostIssuer p) part →
    HostDone (.setFreeze p) p s fun m u =>
      startConfig (setHubCfg m part { hubCfg m part with
        freeze := ((hubCfg m part).freeze - ((hubCfg m part).freeze &&& mask)) ||| (value &&& mask) }) u 0x0208 p 1 part mask value)

/-! ### Host commands: dumps (Tables 5.1, 5.12, R174-R181) -/

/-- DUMP_PLAN answers with its plan, and with RESERVE takes a slot and its reservation; STITCH that passes Table 5.1 begins in its slot;
PRESS, EXPORT, RELEASE_HAMPER and MIGRATE_CORE that pass their checks act on their dump and answer with their counts. -/
def Obligations.DumpCommandsComplete : Prop :=
  (∀ (p : Pkt) (s : State) (k : Nat), hostFront 0x0306 p s.m = true → nbit (wAt p.body 5).toNat 0 = true →
    dumpPlanPlan (hostTaken s.m p) (hostIssuer p) p.body = (0, [], some k) →
    HostAnswers (.dumpPlan p) 0x0306 p s fun m u =>
      let sc := scopeAt m p.body 0
      let pl := stitchPlan m sc (secureMap m u) (nbit (wAt p.body 5).toNat 1)
      (setDump m k (some { state := 1, kind := sc.kind, part := sc.part, parts := sc.parts, sid := u.sess, handle := wAt p.body 4,
                           reserved := planReserve m k true pl, epochs := scopeEpochs m sc,
                           job := if sc.kind = 6 then sc.unit else 0 }),
       w1 k ++ planDetail m (dumpUse m u (wAt p.body 4)) pl)) ∧
  (∀ (p : Pkt) (s : State) (k : Option Nat), hostFront 0x0306 p s.m = true → nbit (wAt p.body 5).toNat 0 = false →
    dumpPlanPlan (hostTaken s.m p) (hostIssuer p) p.body = (0, [], k) →
    HostAnswers (.dumpPlan p) 0x0306 p s fun m u =>
      (m, w1 0xFFFFFFFF ++ planDetail m (dumpUse m u (wAt p.body 4))
        (stitchPlan m (scopeAt m p.body 0) (secureMap m u) (nbit (wAt p.body 5).toNat 1)))) ∧
  (∀ (p : Pkt) (s : State) (k : Nat) (l : List W32), hostFront 0x0301 p s.m = true →
    stitchCheck (hostTaken s.m p) (hostIssuer p) p.body = (0, l, some k) →
    HostDone (.stitch p) p s fun m u => startStitch m u p k) ∧
  (∀ (p : Pkt) (s : State) (k : Nat) (x : Dump) (l : List W32), hostFront 0x0302 p s.m = true →
    pressCheck (hostTaken s.m p) (hostIssuer p) p.body = (0, l) →
    (dumpName (hostTaken s.m p) (hostIssuer p) (wAt p.body 0)).slot = some k → dump (hostTaken s.m p) k = some x →
    HostAnswers (.press p) 0x0302 p s fun m _ =>
      let r := pressDump m k (wAt p.body 1).toNat x
      (r.1, w1 r.2.folios ++ w1 r.2.pressed ++ w1 r.2.overflowed ++ w1 r.2.inPlace ++ w1 r.2.selfcheck)) ∧
  (∀ (p : Pkt) (s : State) (l : List W32), hostFront 0x0303 p s.m = true → p.port = .host →
    exportCheck (hostTaken s.m p) (hostIssuer p) p.body = (0, l) →
    HostAnswers (.exportDump p) 0x0303 p s fun m u =>
      let recs := exportOf m u p.body
      let fit := recsFitting (exportRoom m u p.body) ((recsFrom (w64At p.body 2) recs).getD [])
      let bytes := fit.flatMap (fun r => r.bytes)
      (bufWrite (countCoded m ((dumpName m u (wAt p.body 0)).slot.getD 0) fit) u (wAt p.body 1) 0 bytes,
       w2 (w64At p.body 2 + bytes.length) ++ w1 bytes.length ++
         w1 (b2n (w64At p.body 2 + bytes.length == sumBy (fun r => r.bytes.length) recs)))) ∧
  (∀ (p : Pkt) (s : State) (l : List W32), hostFront 0x0303 p s.m = true → p.port = .scan →
    exportCheck (hostTaken s.m p) (hostIssuer p) p.body = (0, l) →
    HostAnswers (.exportDump p) 0x0303 p s fun m u =>
      let recs := exportOf m u p.body
      let bytes := ((recs.flatMap (fun r => r.bytes)).drop (w64At p.body 2)).take (exportRoom m u p.body)
      (countCoded m ((dumpName m u (wAt p.body 0)).slot.getD 0) recs,
       w2 (w64At p.body 2 + bytes.length) ++ w1 bytes.length ++
         w1 (b2n (w64At p.body 2 + bytes.length == sumBy (fun r => r.bytes.length) recs)) ++
         replyData u (wAt p.body 1) bytes)) ∧
  (∀ (p : Pkt) (s : State) (u : DumpName), hostFront 0x0304 p s.m = true → p.body.length = 1 →
    dumpName (hostTaken s.m p) (hostIssuer p) (wAt p.body 0) = u → u.bad = false → u.stale = false → u.denied = false →
    (∀ x, u.slot.bind (dump s.m) = some x → dumpLevel (hostTaken s.m p) (hostIssuer p) x 2 = true ∧ dumpBusy x = false) →
    HostAnswers (.releaseHamper p) 0x0304 p s fun m _ =>
      (match u.slot with
       | some k => setDump m k none
       | none => m, [])) ∧
  (∀ (p : Pkt) (s : State) (x : Dump) (q : Quire) (r : Mach × Nat × Nat), hostFront 0x0305 p s.m = true →
    migrateStatus (hostTaken s.m p) (hostIssuer p) p.body = 0 →
    (dumpName (hostTaken s.m p) (hostIssuer p) (wAt p.body 0)).slot.bind (dump (hostTaken s.m p)) = some x →
    quireOf x (wAt p.body 1) = some q → upLevel (wAt p.body 1) = 1 →
    migrateCore (hostTaken s.m p) q (wAt p.body 1) (wAt p.body 2) ((wAt p.body 5).toNat == 1) = some r →
    HostAnswers (.migrateCore p) 0x0305 p s fun _ _ =>
      let shared := (wAt p.body 5).toNat == 1
      (r.1, w1 r.2.1 ++ w1 (q.entries.filter (fun e => (nbit e.flags 1 || nbit e.flags 2) && (e.unit == wAt p.body 1 ||
          (shared && e.cls == 3 && upLevel e.unit == 1 && upCluster e.unit == upCluster (wAt p.body 1))))).length ++
        w2 r.2.2 ++ w1 0)) ∧
  (∀ (p : Pkt) (s : State) (x : Dump) (q : Quire) (r : Mach × Nat × Nat), hostFront 0x0305 p s.m = true →
    migrateStatus (hostTaken s.m p) (hostIssuer p) p.body = 0 →
    (dumpName (hostTaken s.m p) (hostIssuer p) (wAt p.body 0)).slot.bind (dump (hostTaken s.m p)) = some x →
    quireOf x (wAt p.body 1) = some q → upLevel (wAt p.body 1) ≠ 1 →
    migratePort (hostTaken s.m p) q (wAt p.body 1) (wAt p.body 2) = some r →
    HostAnswers (.migrateCore p) 0x0305 p s fun _ _ => (r.1, w1 0 ++ w1 0 ++ w2 r.2.2 ++ w1 r.2.1))

/-! ### Host commands: codec and Tally (Tables 6.8, 7.6, 7.10) -/

/-- ENCODE and DECODE that pass Table 6.8 start: with no block they answer at once, and else the command takes turns of one block with the
others in progress (R213). A turn codes the command's next block and moves on; after the last block, or when a handle went stale in
between, it ends with the counts and the first status that applies (R198, R206). -/
def Obligations.CodecCommandsComplete : Prop :=
  (∀ (p : Pkt) (s : State) (l : List W32), hostFront 0x0401 p s.m = true → p.body.length = 10 → wfld (wAt p.body 8) 0 4 ≠ 15 →
    wfld (wAt p.body 8) 8 2 ≠ 3 → wfld (wAt p.body 8) 10 2 ≠ 3 → wfld (wAt p.body 8) 12 20 = 0 →
    codecStatus (hostTaken s.m p) (hostIssuer p) (encodeArgs p.body) false = (0, l) →
    ((encodeArgs p.body).blocks = 0 → HostAnswers (.encodeCmd p) 0x0401 p s fun m _ => (m, w1 0 ++ w1 0 ++ w1 0 ++ w1 0 ++ w2 0)) ∧
    ((encodeArgs p.body).blocks ≠ 0 → HostDone (.encodeCmd p) p s fun m u => startCodec m u 0x0401 p)) ∧
  (∀ (p : Pkt) (s : State) (l : List W32), hostFront 0x0402 p s.m = true → p.body.length = 10 → wfld (wAt p.body 8) 0 4 = 0 →
    wfld (wAt p.body 8) 8 8 = 0 → wfld (wAt p.body 8) 17 15 = 0 →
    codecStatus (hostTaken s.m p) (hostIssuer p) (decodeArgs p.body) false = (0, l) →
    ((decodeArgs p.body).blocks = 0 →
      HostAnswers (.decodeCmd p) 0x0402 p s fun m _ => (m, w1 0 ++ w1 0 ++ w1 0 ++ w1 0 ++ w1 0 ++ w1 0)) ∧
    ((decodeArgs p.body).blocks ≠ 0 → HostDone (.decodeCmd p) p s fun m u => startCodec m u 0x0402 p)) ∧
  (∀ (m : Mach) (c : Cmd), codecNext m = some c → c.op = 0x0401 ∨ c.op = 0x0402 →
    let a := if c.op = 0x0401 then encodeArgs c.body else decodeArgs c.body
    let r := if c.op = 0x0401 then encodeStep m c c.phase else decodeStep m c c.phase
    let c' := { r.2 with phase := r.2.phase + 1, retired := r.2.retired + 1 }
    let m' := updCmd r.1 c'.id (fun _ => c')
    let st := if c.op = 0x0401 then encodeStatus c' else decodeStatus c'
    let detail (x : Cmd) : List W32 := if c.op = 0x0401 then encodeDetail x else decodeDetail x
    (bufStale m (issuerOf c) a.src = true ∨ bufStale m (issuerOf c) a.dst = true →
      codecTurn m = finish m c.id St.staleHandle (detail c)) ∧
    (bufStale m (issuerOf c) a.src = false → bufStale m (issuerOf c) a.dst = false →
      codecTurn m = if c'.phase < a.blocks then m' else finish m' c'.id st (detail c')))

/-- TALLY and COMPARE that pass Table 7.6 start a run over their parts at T; SENTINEL_CONFIG changes the hub's copy of the partition's
images and sends them to every Station; FIRST_FAULT arms a collection on the Stations of its scope. -/
def Obligations.TallyCommandsComplete : Prop :=
  (∀ (p : Pkt) (s : State) (l : List W32) (parts : List TallyPart), hostFront 0x0501 p s.m = true →
    tallyPlan (hostTaken s.m p) (hostIssuer p) p.body = (0, l, parts) →
    HostDone (.tally p) p s fun m u =>
      startTally m u 0x0501 p (wfld (wAt p.body 0) 4 4) (wfld (wAt p.body 0) 8 1 == 1) parts
        (resolveT m (if wfld (wAt p.body 0) 0 2 = 0 then 2000 else 10000) (w64At p.body 14)) (partBit (wfld (wAt p.body 2) 0 8))) ∧
  (∀ (p : Pkt) (s : State) (l : List W32) (parts : List TallyPart), hostFront 0x0502 p s.m = true →
    comparePlan (hostTaken s.m p) (hostIssuer p) p.body = (0, l, parts) →
    HostDone (.compare p) p s fun m u =>
      startTally m u 0x0502 p (wfld (wAt p.body 0) 4 4) (wfld (wAt p.body 0) 8 1 == 1) parts (resolveT m 10000 (w64At p.body 7))
        ((compareEntries p.body).foldl (fun acc e => acc ||| partBit (wfld e.1 0 8)) 0)) ∧
  (∀ (p : Pkt) (s : State) (part mx vx flags : Nat), hostFront 0x0503 p s.m = true → part < 256 → mx < 2 ^ 21 → vx < 2 ^ 21 →
    flags < 2 → epochOf (hostTaken s.m p) part < 2 ^ 32 →
    p.body = [BitVec.ofNat 32 part, BitVec.ofNat 32 (epochOf (hostTaken s.m p) part), BitVec.ofNat 32 mx, BitVec.ofNat 32 vx,
              BitVec.ofNat 32 flags] →
    2 ≤ issLevel (hostTaken s.m p) (hostIssuer p) part →
    HostDone (.sentinelConfig p) p s fun m u =>
      startConfig (setHubCfg m part { hubCfg m part with mx := mx, vx := vx }) u 0x0503 p 2 part mx (vx + flags * 2 ^ 32)) ∧
  (∀ (p : Pkt) (s : State), hostFront 0x0504 p s.m = true →
    let m := hostTaken s.m p
    let u := hostIssuer p
    let sc := scopeAt m p.body 0
    let flags := (wAt p.body 9).toNat
    let h := wAt p.body 6
    p.body.length = 11 → scopeOk m p.body 0 = true → flags < 32 → (wAt p.body 10).toNat ≤ 64 → w64At p.body 7 % 8 = 0 →
    bufMalformed u h (w64At p.body 7) = false → bufStale m u h = false → bufDenied m u h false true = false →
    resultShort m u h (w64At p.body 7) (16 + 32 * (wAt p.body 10).toNat) = 0 →
    waypointStatus m u sc 1 (leadOf sc.kind) (w64At p.body 4) 1 false false = 0 →
    HostDone (.firstFault p) p s fun m u =>
      let (c, m') := newCmd m u 0x0504 p.cookie p.body sc
      let at_ := resolveT m (leadOf sc.kind) (w64At p.body 4)
      let m' := armScope (updCmd m' c.id (fun x => { x with t := at_, flags := flags })) c.id sc at_ 5 (nfld flags 0 1) (nfld flags 1 4) 0
      (findCmd m' c.id).elim m' (sendJobCmd m'))

/-! ### Host commands: trace streams and Routines (Tables 8.6, 9.9) -/

/-- TRACE_CONFIG takes a slot and configures every Station of its scope; TRACE_START and TRACE_STOP arm, and STOP of a stream that is still
armed withdraws its start; TRACE_DRAIN begins, or with length 0 answers. -/
def Obligations.TraceCommandsComplete : Prop :=
  (∀ (p : Pkt) (s : State) (l : List W32) (k : Nat), hostFront 0x0601 p s.m = true →
    traceConfigCheck (hostTaken s.m p) (hostIssuer p) p.body = (0, l, some k) →
    HostAnswers (.traceConfig p) 0x0601 p s fun m u =>
      let x := streamOf m u p.body
      let m' := configStream m k x
      (m', w1 k ++ w1 x.dies.length ++ w1 (sumBy (fun d => (streamCores m' d x.scope).length) x.dies) ++
        w1 (sumBy (fun d => (streamPorts m' d x.scope x.links).length) x.dies))) ∧
  (∀ (p : Pkt) (s : State) (k : Nat) (x : Stream), hostFront 0x0602 p s.m = true → p.body.length = 3 →
    streamNamed (hostTaken s.m p) (hostIssuer p) (wAt p.body 0) = some (k, x) →
    traceStatus (hostTaken s.m p) (hostIssuer p) (wAt p.body 0) false (fun y => !(y.state == 1 || y.state == 4)) (w64At p.body 1) = 0 →
    HostDone (.traceStart p) p s fun m u =>
      let at_ := resolveT m (leadOf x.scope.kind) (w64At p.body 1)
      let (c, m') := newCmd m u 0x0602 p.cookie p.body x.scope
      let r := armTrace (updCmd m' c.id (fun y => { y with op := 0x0602, t := at_, aux := [k] })) c.id 7 at_ k x
      traceCheck (updStream r.2 k (fun y => { y with state := 2, arm := r.1, cookie := p.cookie })) c.id) ∧
  (∀ (p : Pkt) (s : State) (k : Nat) (x : Stream), hostFront 0x0603 p s.m = true → p.body.length = 4 → (wAt p.body 3).toNat < 2 →
    streamNamed (hostTaken s.m p) (hostIssuer p) (wAt p.body 0) = some (k, x) →
    traceStatus (hostTaken s.m p) (hostIssuer p) (wAt p.body 0) false (fun y => !(y.state == 2 || y.state == 3)) (w64At p.body 1) = 0 →
    x.state = 3 →
    HostDone (.traceStop p) p s fun m u =>
      let at_ := resolveT m (leadOf x.scope.kind) (w64At p.body 1)
      let (c, m') := newCmd m u 0x0603 p.cookie p.body x.scope
      traceCheck (armTrace (updCmd m' c.id (fun y => { y with op := 0x0603, t := at_, aux := [k] })) c.id 8 at_ k x).2 c.id) ∧
  (∀ (p : Pkt) (s : State) (k : Nat) (x : Stream), hostFront 0x0603 p s.m = true → p.body.length = 4 → (wAt p.body 3).toNat < 2 →
    streamNamed (hostTaken s.m p) (hostIssuer p) (wAt p.body 0) = some (k, x) →
    traceStatus (hostTaken s.m p) (hostIssuer p) (wAt p.body 0) false (fun y => !(y.state == 2 || y.state == 3)) (w64At p.body 1) = 0 →
    x.state = 2 →
    HostAnswers (.traceStop p) 0x0603 p s fun m _ =>
      let cmds := m.cmds.map (fun c => if c.op == 0x0602 && c.aux == [k] then { c with aborted := true } else c)
      let m' := updStream (cancelArm { m with cmds := cmds } x.arm) k (fun y => { y with state := if y.horizon = 0 then 1 else 4 })
      (if nbit (wAt p.body 3).toNat 0 then freeSlot m' k else m',
       w2 (resolveT m (leadOf x.scope.kind) (w64At p.body 1)) ++ w2 0 ++ w2 0)) ∧
  (∀ (p : Pkt) (s : State) (l : List W32) (k : Nat) (x : Stream), hostFront 0x0604 p s.m = true →
    drainStatus (hostTaken s.m p) (hostIssuer p) p.body = (0, l) →
    streamNamed (hostTaken s.m p) (hostIssuer p) (wAt p.body 0) = some (k, x) →
    HostDone (.traceDrain p) p s fun m u => startDrain m u p k x) ∧
  (∀ (p : Pkt) (s : State) (l : List W32) (k : Nat) (x : Stream), hostFront 0x0604 p s.m = true →
    drainStatus (hostTaken s.m p) (hostIssuer p) p.body = (0xFFFF, l) →
    streamNamed (hostTaken s.m p) (hostIssuer p) (wAt p.body 0) = some (k, x) →
    HostAnswers (.traceDrain p) 0x0604 p s fun m _ =>
      (m, w2 x.horizon ++ w1 0 ++ w1 0 ++ w1 (b2n ((x.merge.map (fun g => !g.waiting.isEmpty)).getD false)) ++
        w2 ((x.merge.map (fun g => g.lost)).getD 0)))

/-- LOAD_ROUTINE that passes Table 9.6 makes its Routine resident; UNLOAD_ROUTINE removes one; ARM_TRIGGER takes a trigger;
DISARM_TRIGGER frees one and tells its counts; RUN_ROUTINE queues a run. -/
def Obligations.RoutineCommandsComplete : Prop :=
  (∀ (p : Pkt) (s : State) (l : List W32) (y : Routine) (hd : ImageHead), hostFront 0x0701 p s.m = true →
    loadCheck (hostTaken s.m p) (hostIssuer p) p.body = (0, l, some (y, hd)) →
    HostAnswers (.loadRoutine p) 0x0701 p s fun m _ =>
      (installRoutine m y, w1 hd.steps ++ w1 hd.scopes ++ w1 hd.params ++ w1 y.crc)) ∧
  (∀ (p : Pkt) (s : State) (h : W32) (y : Routine), hostFront 0x0702 p s.m = true → p.body = [h] →
    notOwner (hostTaken s.m p) (hostIssuer p) 2 h = false → routineStale (hostTaken s.m p) (hostIssuer p) h = false →
    routineOf (hostTaken s.m p) h (hostIssuer p).sess = some y → routinePinned (hostTaken s.m p) y = false →
    HostAnswers (.unloadRoutine p) 0x0702 p s fun m u =>
      ({ m with rtn := { m.rtn with routines := m.rtn.routines.filter (fun r => !(r.handle == h && r.sid == u.sess)) } }, [])) ∧
  (∀ (p : Pkt) (s : State), hostFront 0x0703 p s.m = true →
    armTriggerStatus (hostTaken s.m p) (hostIssuer p) p.body = 0 →
    HostAnswers (.armTrigger p) 0x0703 p s fun m u =>
      let w := wAt p.body 1
      let n := triggerSlot m p.body
      let m := (triggerRoom m u p.body).getD m
      let m := match routineOf m (wAt p.body 2) u.sess with
        | some r => if wfld w 4 2 = 0 then (pageRoutine m r).2 else m
        | none => m
      let t : Trigger :=
        { sid := u.sess, cookie := p.cookie, source := wfld w 0 4, action := wfld w 4 2, oneshot := wfld w 6 1 == 1,
          outEn := wfld w 7 1 == 1, outPin := wfld w 8 2, reanchor := wfld w 10 1 == 1, falling := wfld w 11 1 == 1,
          pin := wfld w 12 2, routine := wAt p.body 2, part := wfld (wAt p.body 3) 0 8, period := w64At p.body 5,
          phase := w64At p.body 7, advanceUs := (wAt p.body 9).toNat, scope := (p.body.drop 10).take 4,
          base := (gtcNow m / 1000000000 + 1) * 1000000000 }
      let first := if wfld w 0 4 = 5 then (nextPeriodic t (gtcNow m + 1000 * t.advanceUs - 1)).getD 0 else 0
      (setTrigger m n (some { t with nextT := first }), w1 n ++ w2 first)) ∧
  (∀ (p : Pkt) (s : State) (n flags : Nat) (x : Trigger), hostFront 0x0704 p s.m = true → n < 64 → flags < 2 →
    p.body = [BitVec.ofNat 32 n, BitVec.ofNat 32 flags] → trigger (hostTaken s.m p) n = some x → x.sid = (hostIssuer p).sess →
    HostAnswers (.disarmTrigger p) 0x0704 p s fun m _ =>
      let m := setTrigger m n none
      (match flags, x.inRun with
       | 1, some r => stopRun m r
       | _, _ => m, w2 x.fires ++ w1 x.dropped)) ∧
  (∀ (p : Pkt) (s : State) (h : W32), hostFront 0x0705 p s.m = true → p.body.length = 3 → wAt p.body 0 = h →
    notOwner (hostTaken s.m p) (hostIssuer p) 2 h = false → routineStale (hostTaken s.m p) (hostIssuer p) h = false →
    (hostTaken s.m p).rtn.runs.any (fun r => r.routine == h && r.sid == (hostIssuer p).sess) = false →
    queuedRuns (hostTaken s.m p) < 64 →
    HostDone (.runRoutine p) p s fun m u =>
      let (c, m') := newCmd m u 0x0705 p.cookie p.body noScope
      { m' with rtn := { m'.rtn with runs := m'.rtn.runs ++
        [{ index := nextRun m', routine := h, sid := u.sess, cmd := some c.id, t0 := w64At p.body 1 }] } })

/-! ### Host commands: bring-up and modes (Table 11.16) -/

/-- ROLL_CALL, READ_LEDGER, INSTALL_LICENCE and SAVE_TRAINING that pass their checks answer with the list, the licence number or the counts
of the table. -/
def Obligations.BringUpCommandsComplete : Prop :=
  (∀ (p : Pkt) (s : State), hostFront 0x0801 p s.m = true → p.body.length = 5 → (wAt p.body 4).toNat < 2 →
    listBuf (hostTaken s.m p) (hostIssuer p) (wAt p.body 0) (w64At p.body 1) (wAt p.body 3).toNat false = 0 →
    HostDone (.rollCall p) p s fun m0 u =>
      let wait := hf m0 R.BUP_STATUS_WAIT_LICENCE == 1
      let m := match nbit (wAt p.body 4).toNat 0 && !wait, m0.bup.env with
        | true, some e => rollCall2 m0 e
        | _, _ => m0
      let fatal := m.bup.diffFatal
      listReply m u 0x0801 p (wAt p.body 0) (w64At p.body 1) (wAt p.body 3).toNat 16 (m.bup.diffs.map diffBytes)
        (if wait then St.licenceInvalid else if fatal ≠ 0 then St.topologyMismatch
         else if hf m R.BUP_STATUS_STALE = 1 then St.trainingStale else St.ok)
        (fun n => w1 (if hf m R.HUB_STATUS_BRINGUP = 0 then 0 else if wait then 3 else diffResult m) ++
          w1 m.bup.diffCount ++ w1 n ++ w1 fatal ++ w1 m.bup.diffDegraded)) ∧
  (∀ (p : Pkt) (s : State), hostFront 0x0803 p s.m = true → p.body.length = 5 →
    listBuf (hostTaken s.m p) (hostIssuer p) (wAt p.body 0) (w64At p.body 1) (wAt p.body 3).toNat false = 0 →
    HostDone (.readLedger p) p s fun m u =>
      listReply m u 0x0803 p (wAt p.body 0) (w64At p.body 1) (wAt p.body 3).toNat 16
        (((wholeLedger m).drop (wAt p.body 4).toNat).map (ledgerOut m)) St.ok
        (fun n => w1 (wholeLedger m).length ++ w1 n ++ w1 ((wAt p.body 4).toNat + n))) ∧
  (∀ (p : Pkt) (s : State), hostFront 0x0802 p s.m = true →
    let m := hostTaken s.m p
    let u := hostIssuer p
    let l := bufRead m (wAt p.body 0) (w64At p.body 1) 224
    p.body.length = 3 → bufMalformed u (wAt p.body 0) (w64At p.body 1) = false → bufStale m u (wAt p.body 0) = false →
    bufDenied m u (wAt p.body 0) true false = false → w64At p.body 1 + 224 ≤ bufLen m u (wAt p.body 0) →
    l ≠ m.bup.lic → licValid m l = true → bytesAt (flashLicence m) 16 4 ≤ bytesAt l 16 4 → bytesAt m.bup.lic 16 4 ≤ bytesAt l 16 4 →
    HostAnswers (.installLicence p) 0x0802 p s fun m _ =>
      (putLicence m l, w1 (bytesAt l 16 4) ++ w1 (hf m R.BUP_STATUS_WAIT_LICENCE))) ∧
  (∀ (p : Pkt) (s : State), hostFront 0x0806 p s.m = true →
    let m := hostTaken s.m p
    let sc := scopeAt m p.body 0
    p.body.length = 5 → (wAt p.body 4).toNat < 2 → sc.kind = 3 ∨ sc.kind = 5 → scopeOk m p.body 0 = true → scopeDark m sc = false →
    pkgLevel m (hostIssuer p) 2 = true → (sc.kind = 3 → scopeMoved m sc = false) →
    HostAnswers (.saveTraining p) 0x0806 p s fun m _ =>
      let places := savePlaces m sc
      let trained := places.filter (placeUp m)
      (saveTraining m trained (nbit (wAt p.body 4).toNat 0), w1 trained.length ++ w1 (places.length - trained.length)))

/-- STAGE_MODE stages the mode words of a class in the hub and every Station with a unit of it, or with CANCEL drops what is staged;
COMMIT_MODE arms the change on every present die; two microseconds after T its answers are gathered. -/
def Obligations.ModeCommandsComplete : Prop :=
  (∀ (p : Pkt) (s : State) (cls : Nat) (w0 w1' : W32) (flag : Nat), hostFront 0x0804 p s.m = true → cls < 4 → flag < 2 →
    p.body = [BitVec.ofNat 32 cls, w0, w1', BitVec.ofNat 32 flag] → pkgLevel (hostTaken s.m p) (hostIssuer p) 2 = true →
    modeBusy (hostTaken s.m p) cls = false →
    HostAnswers (.stageMode p) 0x0804 p s fun m _ =>
      let staged := if flag = 1 then none else some (w64At p.body 1, nextModeEpoch m cls)
      let dies := (answeringDies m).filter (fun d => decide (0 < modeUnits m d cls))
      (dies.foldl (fun m d => updMode m d cls (fun x => { x with staged := staged })) (setModeStaged m cls staged),
       w1 (if flag = 1 then 0 else nextModeEpoch m cls) ++ w1 (sumBy (fun d => modeUnits m d cls) dies))) ∧
  (∀ (p : Pkt) (s : State), hostFront 0x0805 p s.m = true →
    let m := hostTaken s.m p
    let cls := (wAt p.body 0).toNat
    let t := w64At p.body 2
    p.body.length = 4 → cls < 4 → (modeStaged m cls).isSome = true → (wAt p.body 1).toNat = nextModeEpoch m cls → tooFar m t = false →
    pkgLevel m (hostIssuer p) 2 = true → modeBusy m cls = false → slotsFree m (presentDies m) 1 = true →
    tooEarly m (leadOf 5) t = false →
    HostDone (.commitMode p) p s fun m u =>
      let (c, m') := newCmd m u 0x0805 p.cookie p.body packageScope
      let at_ := resolveT m (leadOf 5) t
      armScope (updCmd m' c.id (fun x => { x with t := at_ })) c.id packageScope at_ 10 0 cls (wAt p.body 1).toNat) ∧
  (∀ (cmd : Nat) (s : State) (c : Cmd), findCmd s.m cmd = some c → c.op = 0x0805 → c.t + 2000 ≤ gtcNow s.m →
    (∀ a ∈ s.m.run.arms, a.cmd ≠ cmd) → Done (.modeGather cmd) s (fenceAll (gatherMode s.m c)))

/-! ### Host commands: recovery, life cycle and health (Tables 12.6, 13.12, 14.12) -/

/-- RESET_SCOPE starts its rung; ABORT_JOB puts the token on the fabric and arms its abort at T; SET_WATCHDOG changes the periods of a
partition and sends them to every Station; REQUEST_POWER_CYCLE records its reason, tells every open Session and asserts the pin. -/
def Obligations.RecoveryCommandsComplete : Prop :=
  (∀ (p : Pkt) (s : State), hostFront 0x0901 p s.m = true →
    let m := hostTaken s.m p
    let u := hostIssuer p
    let sc := scopeAt m p.body 0
    let w := (wAt p.body 4).toNat
    let rung := nfld w 0 3
    p.body.length = 5 → scopeOk m p.body 0 = true → w < 16 → rungKindOk rung sc.kind = true → scopeDark m sc = false →
    (scopeLevel m u sc 2 = true ∨ u.port = .sideband) → scopeMoved m sc = false → (rung = 4 → esc m 256 = none) →
    HostDone (.resetScope p) p s fun m u => startReset m u p sc rung (if nbit w 3 then rung else ceilingRung m)) ∧
  (∀ (p : Pkt) (s : State) (ps : PartMap), hostFront 0x0902 p s.m = true →
    let m := hostTaken s.m p
    let u := hostIssuer p
    let job := wAt p.body 0
    let t := w64At p.body 1
    p.body.length = 3 → hf m R.HUB_PKG_IN_JOB ≠ 0 → tooFar m t = false → jobParts m job = some ps →
    (u.port = .sideband ∨ ∀ q ∈ partsList ps, 2 ≤ issLevel m u q) → slotsFree m (presentDies m) 1 = true →
    tooEarly m (leadOf 6) t = false →
    HostDone (.abortJob p) p s fun m u =>
      let at_ := resolveT m (leadOf 6) t
      let (c, m') := newCmd (originate m 1 job at_ []).2 u 0x0902 p.cookie p.body
        { kind := 6, part := 0, unit := job, epoch := 0, parts := ps }
      armAbort (updCmd m' c.id (fun x => { x with t := at_ })) c.id job at_ (pkgNum m') false) ∧
  (∀ (p : Pkt) (s : State), hostFront 0x0902 p s.m = true →
    let m := hostTaken s.m p
    let t := w64At p.body 1
    p.body.length = 3 → hf m R.HUB_PKG_IN_JOB ≠ 0 → tooFar m t = false → jobParts m (wAt p.body 0) = none →
    p.port = .sideband → slotsFree m (presentDies m) 1 = true → tooEarly m (leadOf 6) t = false →
    HostAnswers (.abortJob p) 0x0902 p s fun m _ =>
      ((originate m 1 (wAt p.body 0) (resolveT m (leadOf 6) t) []).2, w2 (resolveT m (leadOf 6) t) ++ w1 0 ++ w1 0)) ∧
  (∀ (p : Pkt) (s : State) (part : Nat), hostFront 0x0903 p s.m = true → p.body.length = 6 → (wAt p.body 0).toNat = part →
    part < 256 → 2 ≤ issLevel (hostTaken s.m p) (hostIssuer p) part → (wAt p.body 1).toNat = epochOf (hostTaken s.m p) part →
    HostDone (.setWatchdog p) p s fun m u =>
      startConfig (setHubCfg m part { hubCfg m part with
        periods := [(wAt p.body 2).toNat, (wAt p.body 3).toNat, (wAt p.body 4).toNat, (wAt p.body 5).toNat] })
        u 0x0903 p 3 part (w64At p.body 2) (w64At p.body 4)) ∧
  (∀ (p : Pkt) (s : State), hostFront 0x0904 p s.m = true → p.body.length = 2 → wAt p.body 0 = 1 →
    (pkgLevel (hostTaken s.m p) (hostIssuer p) 2 = true ∨ p.port = .sideband) →
    HostAnswers (.requestPowerCycle p) 0x0904 p s fun m u =>
      (powerRequest m (if u.port = .sideband then 3 else if u.port = .firmware then 4 else 2) (hubPath m) (wAt p.body 1).toNat, []))

/-- AUTH_CHALLENGE gives a challenge that its Session holds; AUTH_RESPONSE whose credentials verify grants the level; LC_TRANSITION begins
the transition, whose phases follow as their times come: the intent fuse and the data, the dies, for analysis the wipe, and the done
fuse, while the unlock token ends it after its own fuse (R463); LC_READ answers the state, or attests; LEDGER_REVOKE strikes out entries. -/
def Obligations.LifeCycleCommandsComplete : Prop :=
  (∀ (p : Pkt) (s : State) (x : Session), hostFront 0x0A01 p s.m = true →
    let m := hostTaken s.m p
    let level := (wAt p.body 0).toNat
    let parts := partMapAt p.body 1
    p.body.length = 9 → 1 ≤ level → level ≤ 4 → parts ≠ 0 → (level = 4 → parts = BitVec.allOnes 256) → lcState m < 6 →
    (∃ r, 1 ≤ r ∧ r ≤ 3 ∧ level ≤ rootCeiling m r) → sessOf m (hostIssuer p).sess = some x →
    HostAnswers (.authChallenge p) 0x0A01 p s fun m _ =>
      (giveChallenge m x level parts, bytesWords (challengeBlock m x level parts))) ∧
  (∀ (p : Pkt) (s : State) (t : Nat) (blk : List Byte), hostFront 0x0A02 p s.m = true →
    (sessOf (hostTaken s.m p) (hostIssuer p).sess).bind (fun x => x.challenge) = some (t, blk) →
    respStatus (hostTaken s.m p) (some (t, blk)) p.body = 0 →
    HostAnswers (.authResponse p) 0x0A02 p s fun m u =>
      let n := wfld (wAt p.body 0) 0 2
      let c := wfld (wAt p.body 0) 8 6
      (incHf (respGrant (updSess m u.sess (fun x => { x with challenge := none })) u.sess (bytesAt blk 5 1) (mapAt blk 32)
         (respCreds p.body n) (respTokens p.body n c)) R.LCY_AUTH_GRANTS,
       leWords 8 (mapAt blk 32).toNat ++ w1 (bytesAt blk 5 1))) ∧
  (∀ (p : Pkt) (s : State), hostFront 0x0A03 p s.m = true → lcStatus (hostTaken s.m p) (hostIssuer p) p.body = 0 →
    HostDone (.lcTransition p) p s fun m u => startTransition m u p) ∧
  (∀ (m : Mach) (x : LcMove), m.lcy.move = some x → x.due ≤ m.time.ns →
    (x.phase = 4 → lcTick m = lcEnd (blowPkg m (doneFuse x.target)) x) ∧
    (x.phase = 3 → lcTick m = lcEnter (packageWipe m) x 4) ∧
    (x.phase = 2 → lcTick m = lcEnter (lcDies m x.target) x (if x.target = 6 then 3 else 4)) ∧
    (x.phase = 1 → x.target ≠ 8 → lcTick m = lcEnter (lcProgram (blowPkg m (firstFuse m x.target)) x.target x.data) x 2) ∧
    (x.phase = 1 → x.target = 8 → lcTick m = lcEnd (blowPkg m (firstFuse m x.target)) x)) ∧
  (∀ (p : Pkt) (s : State), hostFront 0x0A04 p s.m = true → p.body.length = 13 → wAt p.body 0 = 0 →
    HostAnswers (.lcRead p) 0x0A04 p s fun m _ =>
      (m, [BitVec.ofNat 32 ((hget m 0x1000).toNat ||| (b2n m.pins.holdupOk <<< 16))] ++ w2 (hubSerial m))) ∧
  (∀ (p : Pkt) (s : State) (d : Nat), hostFront 0x0A04 p s.m = true → p.body.length = 13 → d ≤ 99 →
    wAt p.body 0 = BitVec.ofNat 32 (128 + d) → keyUsable (hostTaken s.m p) 5 = true → dieHidden (hostTaken s.m p) d = false →
    dieTakes (hostTaken s.m p) d = true →
    HostAnswers (.lcRead p) 0x0A04 p s fun m _ =>
      ({ m with free := m.free + 1 },
       [BitVec.ofNat 32 ((hget m 0x1000).toNat ||| (b2n m.pins.holdupOk <<< 16))] ++ w2 (hubSerial m) ++
       bytesWords ((List.range 96).map (attestByte m d)) ++
       bytesWords ((List.range 96).map (Config.attestSigByte m.free (Sha.sha384 (attestMessage m d (wordsBytes (p.body.drop 1)))))))) ∧
  (∀ (p : Pkt) (s : State), hostFront 0x0A05 p s.m = true →
    let m := hostTaken s.m p
    let unit := wAt p.body 0
    let w := (wAt p.body 1).toNat
    let cause := nfld w 0 8
    let all := nbit w 8
    p.body.length = 2 → w < 512 → pathFields unit = true → [1, 3, 5, 6].contains (upLevel unit) = true → upPkg unit = 0 →
    upDie unit ≤ 99 → (all = false → 1 ≤ cause ∧ cause ≤ 9) → lcState m = 5 → rootAuthority m (hostIssuer p) 3 = true →
    HostAnswers (.ledgerRevoke p) 0x0A05 p s fun m _ =>
      let hits := revokeHits m unit all cause
      let n := (hits.filter (fun e => e.cause != 9)).length
      (revoke m unit all cause, w1 n ++ w1 (hits.length - n) ++ w1 (if stnAnswers m (upDie unit) then 0 else n)))

/-- HEALTH_READ and EOL_READ answer the records of the dies from FIRST on, as many as fit, with their heads. -/
def Obligations.HealthCommandsComplete : Prop :=
  (∀ (p : Pkt) (s : State), hostFront 0x0B01 p s.m = true → p.body.length = 5 → (wAt p.body 4).toNat ≤ 99 →
    listBuf (hostTaken s.m p) (hostIssuer p) (wAt p.body 0) (w64At p.body 1) (wAt p.body 3).toNat false = 0 →
    observesAny (hostTaken s.m p) (hostIssuer p) = true →
    HostDone (.healthRead p) p s fun m u =>
      listReply m u 0x0B01 p (wAt p.body 0) (w64At p.body 1) (wAt p.body 3).toNat 64
        (((List.range 100).drop (wAt p.body 4).toNat).map (healthRecord m)) St.ok
        (fun n => w1 (hf m R.HTH_STATUS_PROMISE) ++ w1 m.hth.faults ++ w1 (hf m R.HTH_STATUS_FAULTED) ++ w1 n ++
          w1 ((wAt p.body 4).toNat + n))) ∧
  (∀ (p : Pkt) (s : State), hostFront 0x0B02 p s.m = true → p.body.length = 5 → (wAt p.body 4).toNat ≤ 99 →
    listBuf (hostTaken s.m p) (hostIssuer p) (wAt p.body 0) (w64At p.body 1) (wAt p.body 3).toNat false = 0 →
    observesAny (hostTaken s.m p) (hostIssuer p) = true →
    HostDone (.eolRead p) p s fun m u =>
      let x := earliestEol m
      listReply m u 0x0B02 p (wAt p.body 0) (w64At p.body 1) (wAt p.body 3).toNat 32
        (((List.range 100).drop (wAt p.body 4).toNat).map (eolRecord m)) St.ok
        (fun n => (if x.1 = 0 then w2 0 ++ w2 0 ++ w1 0 else w2 x.1 ++ w2 (dieHealth m x.2).p90 ++ [diePath m x.2]) ++
          w1 n ++ w1 ((wAt p.body 4).toNat + n)))

/-! ### Register accesses -/

/-- An isolated instance answers no access: a read, a write, a doorbell, IF_CTL, TOD_ARM and RTN_DOORBELL change nothing. Else a read by 8
bytes, or by 4 of either half, answers the value of the window and leaves the machine as the window's read does; an access of another
width or alignment sets BAD_ACCESS, and a read of it answers 0; a write of 8 bytes, or of 4 of either half, stores what the written
bytes may change. A doorbell of another width is counted, one while the interface is disabled changes nothing, one with a handle that
is not current is counted, and any other is taken; enabling reads the root, and disabling clears ENABLED; RTN_DOORBELL fires the
software triggers of its bits; a one in FIRST.VALID clears a Tap's latch, and a zero does not; TRC_MARK makes a record. -/
def Obligations.RegisterAccessesComplete : Prop :=
  (∀ (off size : Nat) (v : W64) (s : State), s.m.peer.isolated = true →
    ∀ i ∈ [Instr.rcRead off size, .registerWrite off size v, .doorbell size v, .ifCtlEnable v, .todArm v, .rtnDoorbell v], Inert i s) ∧
  (∀ (off size : Nat) (s : State), s.m.peer.isolated = false → accessWidthOk off size = true →
    Done (.rcRead off size) s (emit (windowRead s.m off size) (.regData (BitVec.ofNat 64 (windowValue s.m off size))))) ∧
  (∀ (off size : Nat) (s : State), s.m.peer.isolated = false → accessWidthOk off size = false →
    Done (.rcRead off size) s (emit (setHf s.m R.HUB_STATUS_BAD_ACCESS 1) (.regData 0))) ∧
  (∀ (off size : Nat) (v : W64) (s : State), s.m.peer.isolated = false → accessWidthOk off size = false →
    Done (.registerWrite off size v) s (setHf s.m R.HUB_STATUS_BAD_ACCESS 1)) ∧
  (∀ (off : Nat) (v : W64) (s : State), s.m.peer.isolated = false → off < 65536 → off % 8 = 0 →
    off ≠ 0x0418 → off ≠ 0x0458 → off ≠ 0x0D18 →
    Done (.registerWrite off 8 v) s (hubStore (setCaptured s.m off none) off v.toNat (2 ^ 64 - 1)) ∧
    Done (.registerWrite off 4 v) s
      (hubStore (setCaptured s.m off none) off (v.toNat &&& (2 ^ 32 - 1)) (2 ^ 32 - 1)) ∧
    Done (.registerWrite (off + 4) 4 v) s
      (hubStore (setCaptured s.m off none) off (v.toNat * 2 ^ 32 &&& (2 ^ 64 - 2 ^ 32)) (2 ^ 64 - 2 ^ 32))) ∧
  (∀ (v : W64) (s : State), s.m.peer.isolated = false →
    exec (.registerWrite 0x0418 8 v) s = exec (.ifCtlEnable v) { s with m := setCaptured s.m 0x0418 none } ∧
    exec (.registerWrite 0x0458 8 v) s = exec (.doorbell 8 v) { s with m := setCaptured s.m 0x0458 none } ∧
    exec (.registerWrite 0x0D18 8 v) s = exec (.rtnDoorbell v) { s with m := setCaptured s.m 0x0D18 none }) ∧
  (∀ (v : W64) (s : State), s.m.peer.isolated = false → hf s.m R.IF_STATUS_ENABLED = 0 → Done (.doorbell 8 v) s (fenceAll s.m)) ∧
  (∀ (v : W64) (s : State), s.m.peer.isolated = false → hf s.m R.IF_STATUS_ENABLED ≠ 0 →
    handleCurrent s.m 0 (BitVec.ofNat 32 (fld v 0 32)) = false →
    Done (.doorbell 8 v) s (fenceAll (incIfErr s.m R.IF_ERR_BAD_DOORBELL))) ∧
  (∀ (size : Nat) (v : W64) (s : State), s.m.peer.isolated = false → size ≠ 8 →
    Done (.doorbell size v) s (fenceAll (incIfErr s.m R.IF_ERR_BAD_DOORBELL))) ∧
  (∀ (v : W64) (s : State) (x : Session), s.m.peer.isolated = false → hf s.m R.IF_STATUS_ENABLED ≠ 0 →
    let h : W32 := BitVec.ofNat 32 (fld v 0 32)
    handleCurrent s.m 0 h = true → s.m.host.sessions.find? (fun y => y.sid == sidOf .host h) = some x →
    Done (.doorbell 8 v) s (fenceAll (knownDoorbell s.m x (fld v 32 32)))) ∧
  (∀ (v : W64) (s : State), s.m.peer.isolated = false → hf s.m R.IF_STATUS_ENABLED ≠ 0 →
    let h : W32 := BitVec.ofNat 32 (fld v 0 32)
    handleCurrent s.m 0 h = true → s.m.host.sessions.find? (fun y => y.sid == sidOf .host h) = none →
    Done (.doorbell 8 v) s (fenceAll (firstDoorbell s.m h (fld v 32 32)))) ∧
  (∀ (v : W64) (s : State), s.m.peer.isolated = false → hf s.m R.IF_CTL_ENABLE = 0 → fld v 0 1 = 1 → v.toNat &&& 0xFFFFFFFFFFFF80FE = 0 →
    let m := setHf (setHf (setHf s.m R.IF_CTL_ENABLE 1) R.IF_CTL_VECTOR (fld v 8 6)) R.IF_CTL_VEC_EN (fld v 14 1)
    let a := hf m R.IF_ROOT_BASE * 4096
    let r : Root := { bases := (List.range 5).map (fun k => memNat m.hostMem (a + 16 + 16 * k) 8),
                      counts := (List.range 5).map (fun k => memNat m.hostMem (a + 24 + 16 * k) 4) }
    rootOk m.hostMem a = true →
    Done (.ifCtlEnable v) s
      (setHf (setHf { m with host := { m.host with root := some r } } R.IF_STATUS_ENABLED 1) R.IF_STATUS_ROOT_BAD 0)) ∧
  (∀ (v : W64) (s : State), s.m.peer.isolated = false → hf s.m R.IF_CTL_ENABLE = 1 → fld v 0 1 = 0 → v.toNat &&& 0xFFFFFFFFFFFF80FE = 0 →
    let m := setHf (setHf (setHf s.m R.IF_CTL_ENABLE 0) R.IF_CTL_VECTOR (fld v 8 6)) R.IF_CTL_VEC_EN (fld v 14 1)
    Done (.ifCtlEnable v) s (setHf m R.IF_STATUS_ENABLED 0)) ∧
  (∀ (v : W64) (s : State), s.m.peer.isolated = false →
    Done (.todArm v) s (hubStore s.m 0x0110 v.toNat (2 ^ 64 - 1))) ∧
  (∀ (v : W64) (s : State), s.m.peer.isolated = false →
    Done (.rtnDoorbell v) s ((bitsOf v.toNat 64).foldl (fun m n =>
      match trigger m n with
      | some t => if t.source = 6 then fire m n (gtcNow m) (hubPath m) else m
      | none => m) s.m)) ∧
  (∀ (die tap j : Nat) (v : W64) (s : State), tapOk die tap = true → j < 2 → fld v 0 1 = 1 →
    Done (.tapSntFirstClear die tap j v) s (clearLatch s.m die tap j)) ∧
  (∀ (die tap j : Nat) (v : W64) (s : State), tapOk die tap = true → j < 2 → fld v 0 1 = 0 →
    Inert (.tapSntFirstClear die tap j v) s) ∧
  (∀ (die tap : Nat) (v : W64) (s : State), tapOk die tap = true →
    Done (.tapTrcMark die tap v) s (tapRecord s.m die tap (repNow s.m die) (.mark v.toNat)))

/-! ### Time (Chapter 3) -/

/-- The time rows complete: the edge of a second is measured and begins a slew; the loss of the reference, or of the PPS for 1,000,100 us,
clears its flag and LOCKED and begins holdover where none runs; a returned reference sets both flags and ends holdover; the GTC becomes
void once holdover has lasted longer than 10 s; SYNC frames go out on every ring that is up each 100 us; a Station follows the SYNC
frames it takes, answers an echo request with its turnaround, and adds an echo response to its sum; the last response of a retraining
ends it; calibration of a ring that is up begins a second after the last. -/
def Obligations.TimeRowsComplete : Prop :=
  (∀ s : State, Done .ppsEdge s (doPpsEdge s.m)) ∧
  (∀ s : State, hf s.m R.GTC_STATUS_REF_OK = 1 →
    let m := setHf (setHf s.m R.GTC_STATUS_REF_OK 0) R.GTC_STATUS_LOCKED 0
    let m := enterHoldover { m with time := { m.time with ppsGood := 0 } }
    Done .refLoss s { m with pins := { m.pins with refSelLocal := true } }) ∧
  (∀ s : State, hf s.m R.GTC_STATUS_REF_OK = 0 → Done .refLoss s { s.m with pins := { s.m.pins with refSelLocal := true } }) ∧
  (∀ s : State, s.m.time.ns < s.m.time.lastPps + ppsWindow ∨ hf s.m R.GTC_STATUS_PPS_OK = 0 → Inert .ppsLoss s) ∧
  (∀ s : State, s.m.time.lastPps + ppsWindow ≤ s.m.time.ns → hf s.m R.GTC_STATUS_PPS_OK = 1 →
    let m := setHf (setHf s.m R.GTC_STATUS_PPS_OK 0) R.GTC_STATUS_LOCKED 0
    let m := { m with time := { m.time with ppsGood := 0 } }
    (hf m R.GTC_STATUS_HOLDOVER = 1 → Done .ppsLoss s m) ∧
    (hf m R.GTC_STATUS_HOLDOVER = 0 →
      let m := setHf (setHf m R.GTC_STATUS_HOLDOVER 1) R.GTC_STATUS_HOLD_MS 0
      Done .ppsLoss s (promiseSync (gtcEvent { m with time := { m.time with holdTicks := 0 } } EvCode.gtcHoldover)))) ∧
  (∀ s : State, let m := setHf (setHf s.m R.GTC_STATUS_REF_OK 1) R.GTC_STATUS_PPS_OK 1
    let m := { m with time := { m.time with lastPps := m.time.ns } }
    Done .refReturn s (endHoldover { m with pins := { m.pins with refSelLocal := false } })) ∧
  (∀ s : State, hf s.m R.GTC_STATUS_HOLDOVER = 1 → 10000 < hf s.m R.GTC_STATUS_HOLD_MS → hf s.m R.GTC_STATUS_VOID = 0 →
    let m := { s.m with tly := s.m.tly.map (fun r => { r with void := true }) }
    Done .gtcVoid s (promiseSync (gtcEvent (setHf m R.GTC_STATUS_VOID 1) EvCode.gtcVoid))) ∧
  (∀ s : State, (hf s.m R.GTC_STATUS_HOLDOVER = 0 ∨ hf s.m R.GTC_STATUS_HOLD_MS ≤ 10000 ∨ hf s.m R.GTC_STATUS_VOID = 1) → Inert .gtcVoid s) ∧
  (∀ s : State, s.m.time.nextSync ≤ gtcNow s.m →
    let m := { s.m with time := { s.m.time with nextSync := (gtcNow s.m / 100000 + 1) * 100000 } }
    Done .syncSend s ((upRings m).foldl (fun m k => castRing m (timeFrame 1 (gtcNow m) []) k) m)) ∧
  (∀ s : State, gtcNow s.m < s.m.time.nextSync → Inert .syncSend s) ∧
  (∀ (die : Nat) (f : Frame) (x : W64) (s : State), rxGood s.m die f 7 = true →
    Done (.syncFrame die f .good x) s (doSync (rxTaken s.m die f) die f x.toNat)) ∧
  (∀ (die : Nat) (f : Frame) (n : Nat) (s : State), die < 100 → stnUp s.m die = true → f.ftype = 7 → payByte f 8 = 2 →
    Done (.echoReq die f n) s (putOnWay s.m [echoOut die f.src (1 - f.dir)] true (ringOf die)
      { timeFrame 3 f.word1.toNat (leBytes 2 n) with src := die, dest := f.src, dir := 1 - f.dir } .good)) ∧
  (∀ (die : Nat) (f : Frame) (t4 : W64) (s : State), die < 100 → stnUp s.m die = true → f.ftype = 7 → payByte f 8 = 3 → f.dest = die →
    let m := doEchoRsp s.m die f t4.toNat
    (Store.get 0 s.m.time.calOpen (ringOf die) = 0 ∨ Store.get 0 m.time.calOpen (ringOf die) ≠ 0 → Done (.echoRsp die f t4) s m) ∧
    (Store.get 0 s.m.time.calOpen (ringOf die) ≠ 0 → Store.get 0 m.time.calOpen (ringOf die) = 0 →
      Done (.echoRsp die f t4) s (endRetrain m (ringOf die)))) ∧
  (∀ (ring : Nat) (s : State), ring < 4 → nbit (hf s.m R.SPN_STATUS_RING_UP) ring = true →
    let last := Nat.max (Store.get 0 s.m.time.calStart ring) (Store.get 0 s.m.time.calAt ring)
    (last = 0 ∨ last - 1 + second ≤ gtcNow s.m → Done (.calibration ring) s (startEchoes s.m ring)) ∧
    (last ≠ 0 → gtcNow s.m < last - 1 + second → Inert (.calibration ring) s))

/-! ### Frames at Stations (Chapter 2) -/

/-- Whatever a frame holds, it acts only where it arrives whole. With a bad CRC it counts STN_SPN_ERR.CRC_ERR of the Station that it
reaches and goes on with EOF_BAD; with EOF_BAD it goes on as it is; whole, but with a reserved DEST, it counts BAD_TYPE and goes no
further; whole, but for another Station, it goes on; and turned back and not a gather, it ends at position 0 (R45 to R48, R62). -/
def Obligations.DamagedFramesOnlyCount : Prop :=
  ∀ (die : Nat) (f : Frame) (x : W64) (s : State) (g : FrameEnd → Instr × Nat), die < 100 → stnLive s.m die = true →
    (g = (fun e => (.rdReq die f e, 1)) ∨ g = (fun e => (.wrReq die f e, 2)) ∨ g = (fun e => (.bcastWr die f e, 5)) ∨
     g = (fun e => (.gather die f e, 6)) ∨ g = (fun e => (.syncFrame die f e x, 7)) ∨ g = (fun e => (.armFrame die f e, 9)) ∨
     g = (fun e => (.armStitch die f e, 9)) ∨ g = (fun e => (.cancel die f e, 9)) ∨ g = (fun e => (.bulkFrame die f e, 11))) →
    f.ftype = (g .good).2 →
    Done (g .crcBad).1 s (passOn (incSf (noteEnd s.m die f .crcBad) die R.STN_SPN_ERR_CRC_ERR) die f .eofBad) ∧
    Done (g .eofBad).1 s (passOn (noteEnd s.m die f .eofBad) die f .eofBad) ∧
    (destReserved f = true → Done (g .good).1 s (incSf (noteEnd s.m die f .good) die R.STN_SPN_ERR_BAD_TYPE)) ∧
    (destReserved f = false → posOf die = 0 → f.wrapped = true → isGather f = false → Done (g .good).1 s (noteEnd s.m die f .good)) ∧
    (destReserved f = false → posOf die ≠ 0 ∨ f.wrapped = false ∨ isGather f = true →
      addressed (noteEnd s.m die f .good) die f = false → Done (g .good).1 s (passOn (noteEnd s.m die f .good) die f .good))

/-- A request that reaches its Station whole is answered. A repeat of one of the last 16 is answered with the same response and counted,
and is not made again. Any other is checked: one that fails is answered with its status and leaves no record; one that passes is made,
and its response sent and kept (R51, R53). -/
def Obligations.RequestsComplete : Prop :=
  (∀ (die : Nat) (f : Frame) (x : Dup) (s : State), rxGood s.m die f 1 = true →
    let m := rxTaken s.m die f
    lostSilent m die f = false → (stn m die).dups.find? (fun y => y.src == f.src && y.tag == f.tag) = some x →
    Done (.rdReq die f .good) s (stnSend (incSf m die R.STN_SPN_ERR_DUP_TAG) die true x.rsp .good)) ∧
  (∀ (die : Nat) (f : Frame) (x : Dup) (s : State), rxGood s.m die f 2 = true →
    let m := rxTaken s.m die f
    lostSilent m die f = false → (stn m die).dups.find? (fun y => y.src == f.src && y.tag == f.tag) = some x →
    Done (.wrReq die f .good) s (stnSend (incSf m die R.STN_SPN_ERR_DUP_TAG) die true x.rsp .good)) ∧
  (∀ (die : Nat) (f : Frame) (s : State), rxGood s.m die f 1 = true →
    let m := rxTaken s.m die f
    let st := requestStatus m die f (targetOf m die f) false
    let r := stationRead m die f (targetOf m die f)
    lostSilent m die f = false → (stn m die).dups.find? (fun y => y.src == f.src && y.tag == f.tag) = none →
    Done (.rdReq die f .good) s
      (if st = 0 then stnSend (keepResponse r.2 die f (responseFrame die f 3 0 r.1)) die true (responseFrame die f 3 0 r.1) .good
       else stnSend m die true (responseFrame die f 3 st []) .good)) ∧
  (∀ (die : Nat) (f : Frame) (s : State), rxGood s.m die f 2 = true →
    let m := rxTaken s.m die f
    let st := requestStatus m die f (targetOf m die f) true
    let r := stationWrite m die f (targetOf m die f)
    let rsp := responseFrame die f 4 (if r.2 then 5 else 0) []
    lostSilent m die f = false → (stn m die).dups.find? (fun y => y.src == f.src && y.tag == f.tag) = none →
    Done (.wrReq die f .good) s
      (if st = 0 then stnSend (keepResponse r.1 die f rsp) die true rsp .good
       else stnSend m die true (responseFrame die f 4 st []) .good))

/-- Broadcast writes, gathers, bulk frames and frames of a reserved type complete at a Station. The registers that a broadcast names are
written word by word, and a one in a reserved bit sets RSVD_WRITE at the hub. A gather that arrives whole takes the Station's value and its
VISITED bit and goes on; one that comes back goes on as it is; one whose kind or length is reserved counts BAD_TYPE. A bulk frame of the
Notebook's window is stored there; one of a boot chunk is held, and the sixteenth of a chunk makes the Station take the chunk. A frame
of a reserved type counts BAD_TYPE. -/
def Obligations.StationFramesComplete : Prop :=
  (∀ (die : Nat) (f : Frame) (s : State), rxGood s.m die f 5 = true →
    let m := rxTaken s.m die f
    let r := castWords die f (f.payload.length / 8) (fld f.word1 0 24) f.payload m
    nbit (fld f.word1 24 3) (dieKind die) = true → fld f.word1 0 24 % 8 = 0 → lostSilent m die f = false →
    Done (.bcastWr die f .good) s (if r.2 then setHf r.1 R.HUB_STATUS_RSVD_WRITE 1 else r.1)) ∧
  (∀ (die : Nat) (f : Frame) (s : State), rxGood s.m die f 5 = true →
    let m := rxTaken s.m die f
    (nbit (fld f.word1 24 3) (dieKind die) = false ∨ fld f.word1 0 24 % 8 ≠ 0 ∨ lostSilent m die f = true) →
    Done (.bcastWr die f .good) s m) ∧
  (∀ (die : Nat) (f : Frame) (s : State), rxGood s.m die f 6 = true → gatherBad (fld f.word1 32 4) f.len = false → f.wrapped = false →
    let m := rxTaken s.m die f
    let joined := gatherJoin (fld f.word1 32 4) f.len (posOf die) (padTo f.len f.payload) (localValue m die f)
    Done (.gather die f .good) s (stnSend m die false { f with word1 := setFld f.word1 (posOf die) 1 1, payload := joined } .good)) ∧
  (∀ (die : Nat) (f : Frame) (s : State), rxGood s.m die f 6 = true → gatherBad (fld f.word1 32 4) f.len = false → f.wrapped = true →
    Done (.gather die f .good) s (stnSend (rxTaken s.m die f) die false f .good)) ∧
  (∀ (die : Nat) (f : Frame) (s : State), rxGood s.m die f 6 = true → gatherBad (fld f.word1 32 4) f.len = true →
    Done (.gather die f .good) s (incSf (rxTaken s.m die f) die R.STN_SPN_ERR_BAD_TYPE)) ∧
  (∀ (die : Nat) (f : Frame) (s : State), rxGood s.m die f 11 = true → 0x800000 ≤ fld f.word1 0 24 → fld f.word1 0 24 < 0x810000 →
    let m := rxTaken s.m die f
    Done (.bulkFrame die f .good) s (setNote m die (putNote (note m die) (fld f.word1 0 24 - 0x800000) f.payload))) ∧
  (∀ (die : Nat) (f : Frame) (s : State), rxGood s.m die f 11 = true → fld f.word1 0 24 < 0x800000 ∨ 0x810000 ≤ fld f.word1 0 24 →
    let seq := fld f.word1 32 32
    let a := fld f.word1 0 24
    let m := updStn (rxTaken s.m die f) die (fun x => { x with bulk := Store.put [] x.bulk seq f.payload })
    let parts := (List.range 16).map (fun j => Store.get [] (stn m die).bulk (16 * (seq / 16) + j))
    let gone (l : Store (List Byte)) := (List.range 16).foldl (fun l j => Store.put [] l (16 * (seq / 16) + j) []) l
    die < 64 → seq / 16 < 512 → f.payload.length = 256 →
    Done (.bulkFrame die f .good) s
      (if parts.any (fun b => b.isEmpty) then m
       else takeChunk (updStn m die (fun x => { x with bulk := gone x.bulk })) die (seq / 16) parts.flatten
         (if 0x100000 ≤ a ∧ a < 0x200000 then some ((a - 0x100000) / 0x2000) else none))) ∧
  (∀ (die : Nat) (f : Frame) (s : State), die < 100 → stnLive s.m die = true → reservedFrame f = true →
    Done (.badTypeFrame die f) s (incSf s.m die R.STN_SPN_ERR_BAD_TYPE))

/-- A Waypoint frame that reaches its Station: an arm not held before that lies ahead is held while a slot is free; one without T acts at
once; one at or before the Station's time is not armed and counts as late; one held before changes nothing; a cancel before T withdraws
its arm and with it the Capture of a Stitch, and one that comes later or names no arm does nothing; an arm of a Stitch takes the Capture
of its slot, and a late one marks its Quire LATE. Before T the halt strobe goes out to the Taps of a halt, a Tap's countdown
halts its engines, and at T the arms that are due fire in the order of their times. -/
def Obligations.WaypointFramesComplete : Prop :=
  (∀ (die : Nat) (f : Frame) (s : State), rxGood s.m die f 9 = true → payByte f 0 = 3 → f.payload.length = 64 →
    let m := rxTaken s.m die f
    let a := armOfPayload f.word1.toNat f.payload
    1 ≤ a.action → a.action < 13 → armHeld m die a = false →
    Done (.armFrame die f .good) s
      (if a.t = 0 then settled (fireArm (noteArm m die a.armId) die a)
       else if a.t ≤ repNow m die then settled (noteArm (lateArm m die a) die a.armId)
       else if 16 ≤ (stn m die).wpts.length then m
       else holdArm m die a)) ∧
  (∀ (die : Nat) (f : Frame) (s : State), rxGood s.m die f 9 = true → payByte f 0 = 3 → f.payload.length = 64 →
    let m := rxTaken s.m die f
    let a := armOfPayload f.word1.toNat f.payload
    1 ≤ a.action → a.action < 13 → armHeld m die a = true → Done (.armFrame die f .good) s m) ∧
  (∀ (die : Nat) (f : Frame) (a : Arm) (s : State), rxGood s.m die f 9 = true → payByte f 0 = 1 →
    let m := rxTaken s.m die f
    (stn m die).wpts.find? (fun x => x.armId == bytesAt f.payload 8 8) = some a → repNow m die < a.t → a.stitch = false →
    Done (.cancel die f .good) s (settled (armGone
      (setWpts m die ((stn m die).wpts.filter (fun x => x.armId != a.armId))) a.armId die))) ∧
  (∀ (die : Nat) (f : Frame) (a : Arm) (s : State), rxGood s.m die f 9 = true → payByte f 0 = 1 →
    let m := rxTaken s.m die f
    (stn m die).wpts.find? (fun x => x.armId == bytesAt f.payload 8 8) = some a → repNow m die < a.t → a.stitch = true →
    Done (.cancel die f .good) s (settled (armGone
      (cancelStitch (setWpts m die ((stn m die).wpts.filter (fun x => x.armId != a.armId))) die a) a.armId die))) ∧
  (∀ (die : Nat) (f : Frame) (s : State), rxGood s.m die f 9 = true → payByte f 0 = 1 →
    let m := rxTaken s.m die f
    (∀ a, (stn m die).wpts.find? (fun x => x.armId == bytesAt f.payload 8 8) = some a → a.t ≤ repNow m die) →
    Done (.cancel die f .good) s m) ∧
  (∀ (die : Nat) (f : Frame) (s : State), rxGood s.m die f 9 = true → f.payload.length = 48 →
    let m := rxTaken s.m die f
    let a := armOfPayload f.word1.toNat f.payload
    a.stitch = true → a.action < 8 → armHeld m die a = false → repNow m die < a.t →
    let m' := setCap (capStat (holdArm m die a) die a.action 1) die a.action
      (some { cmd := armCmd (capStat (holdArm m die a) die a.action 1) a.armId, armId := a.armId, t := a.t, kind := a.kind,
              flags := a.flags, parts := a.parts })
    Done (.armStitch die f .good) s ((scopePorts m' die a.kind a.parts).foldl (fun m p => reopenCut m die a.action p) m')) ∧
  (∀ (die : Nat) (f : Frame) (s : State), rxGood s.m die f 9 = true → f.payload.length = 48 →
    let m := rxTaken s.m die f
    let a := armOfPayload f.word1.toNat f.payload
    a.stitch = true → a.action < 8 → armHeld m die a = false → a.t ≤ repNow m die →
    let m' := pinScope (updStn (lateArm m die a) die (fun x => { x with late := x.late ++ [a.armId] })) a.action
    Done (.armStitch die f .good) s
      (if (quireAt m' a.action die).isSome then
        listAdd (updQuire m' a.action die (fun q => { q with status := setBit q.status 7 })) a.action die 5 0 (repNow m' die)
          (stnPath m' die)
       else m')) ∧
  (∀ (die : Nat) (s : State) (a : Arm), die < 100 → stnUp s.m die = true →
    (stn s.m die).wpts.find? (fun x => x.armId == a.armId && armHalts x) = some a → repNow s.m die < a.t → a.t ≤ repNow s.m die + 8 →
    Done (.haltStrobe die a.armId) s
      (emits s.m ((armCores s.m die a).map (fun p => .strobe die p (2 * (a.t - repNow s.m die)))))) ∧
  (∀ (die tap : Nat) (s : State) (a : Arm), tapOk die tap = true → stnUp s.m die = true →
    (stn s.m die).wpts.find? (fun x => x.armId == a.armId && armHalts x) = some a → a.t < repNow s.m die + 4 →
    let reason := if a.stitch then 5 else nfld a.p0 0 4
    let h : Halter := { sid := cmdSid s.m (armCmd s.m a.armId), window := if reason = 4 then armCmd s.m a.armId else 0 }
    Done (.tapCountdown die tap a.armId) s
      (((scopeEngines s.m die a.kind (if a.stitch then 0 else a.unit) a.parts).filter (fun x => x.1 == tap)).foldl
        (fun m x => haltReach m die x.1 x.2 reason false h) s.m)) ∧
  (∀ (die : Nat) (s : State), die < 100 → stnUp s.m die = true →
    (stn s.m die).wpts.any (fun a => decide (a.t ≤ repNow s.m die)) = true →
    Done (.waypointFire die) s (settled
      ((sortBy (fun a b => decide (a.t < b.t)) ((stn s.m die).wpts.filter (fun a => decide (a.t ≤ repNow s.m die)))).foldl
        (fun m a => fireArm m die a)
        (setWpts s.m die ((stn s.m die).wpts.filter (fun a => decide (repNow s.m die < a.t)))))))

/-! ### Frames at the hub, rings and trunks (Chapter 2) -/

/-- A response answers its outstanding request and releases its tag, and a gather that comes back is joined to its other copy; damaged, either
counts CRC_ERR of its ring. A request or gather past its time that does not wait at the hub is sent again while RETRIES allow, and else
given up. A heartbeat goes out and marks the Stations that missed it; the oldest event of a Station arrives; and a stalled share is
released once its window allows. -/
def Obligations.HubFramesComplete : Prop :=
  (∀ (die : Nat) (f : Frame) (s : State), die < 100 → f.ftype = 3 → f.src = die → Done (.rdRsp die f .good) s (takeResponse s.m die f)) ∧
  (∀ (die : Nat) (f : Frame) (s : State), die < 100 → f.ftype = 4 → f.src = die → Done (.wrRsp die f .good) s (takeResponse s.m die f)) ∧
  (∀ (die : Nat) (f : Frame) (e : FrameEnd) (s : State), die < 100 → f.src = die → e ≠ .good →
    (f.ftype = 3 → Done (.rdRsp die f e) s (incHf s.m R.SPN_RING_ERR_CRC_ERR 1 (ringOf die))) ∧
    (f.ftype = 4 → Done (.wrRsp die f e) s (incHf s.m R.SPN_RING_ERR_CRC_ERR 1 (ringOf die)))) ∧
  (∀ (ring : Nat) (f : Frame) (s : State), ring < 4 → f.ftype = 6 → Done (.gatherReturn ring { frame := f }) s (takeGather s.m ring f)) ∧
  (∀ (ring : Nat) (f : Frame) (e : FrameEnd) (s : State), ring < 4 → f.ftype = 6 → e ≠ .good →
    Done (.gatherReturn ring { frame := f, fin := e }) s (incHf s.m R.SPN_RING_ERR_CRC_ERR 1 ring)) ∧
  (∀ (ring tag : Nat) (s : State) (r : OutReq), ring < 4 → s.m.spine.reqs.find? (fun r => r.ring == ring && r.tag == tag) = some r →
    r.due ≤ gtcNow s.m → waitsAtHub s.m ring tag true = false → Done (.responseTimeout ring tag) s (reqTimeout s.m r)) ∧
  (∀ (ring tag : Nat) (s : State) (g : OutGather), ring < 4 → s.m.spine.reqs.find? (fun r => r.ring == ring && r.tag == tag) = none →
    s.m.spine.gathers.find? (fun g => g.ring == ring && g.tag == tag) = some g → g.due ≤ gtcNow s.m →
    waitsAtHub s.m ring tag false = false → Done (.responseTimeout ring tag) s (gatherTimeout s.m g)) ∧
  (∀ (ring alive : Nat) (s : State), ring < 4 → nbit (hf s.m R.SPN_STATUS_RING_UP) ring = true → nbit s.m.spine.hold ring = false →
    Store.get 0 s.m.spine.beats ring ≤ gtcNow s.m →
    let visited := fld (beatReturn s.m ring alive (beatFrame s.m 0)).word1 0 25
    let m := launch s.m ring (beatFrame s.m 0)
    let m := if ringMasked m ring then launch m ring (beatFrame m 1) else m
    Done (.heartbeat ring alive) s ((List.range 25).foldl (beatStation ring visited) { m with spine := { m.spine with
      beatSeq := m.spine.beatSeq + 1, beats := Store.put 0 m.spine.beats ring (gtcNow m + 1000) } })) ∧
  (∀ (die : Nat) (s : State) (e : Ev) (r : List Ev), die < 100 → (stn s.m die).events = e :: r → frameArrives s.m die = true →
    let f := eventFrame s.m die e
    Done (.eventFrame die) s
      (takeEvent (stnSend (updStn s.m die (fun x => { x with events := r })) die true f .good) die (eventOf f e))) ∧
  (∀ (ring dir : Nat) (s : State), ring < 4 → dir < 2 → s.m.spine.heldFrames.any (fun h => h.1 == ring && h.2.1 == dir) = true →
    nbit s.m.spine.hold ring = false → shareUsed s.m ring dir < shareNs s.m →
    let us := (gtcNow s.m - Store.get 0 s.m.spine.stallSince (2 * ring + dir)) / 1000
    let m := incHf s.m R.SPN_RING_LOAD_STALL_US us ring
    let m := shareLaunch m ring dir m.spine.heldFrames.length
    let left := m.spine.heldFrames.any (fun h => h.1 == ring && h.2.1 == dir)
    let since := Store.put 0 m.spine.stallSince (2 * ring + dir) (if left then gtcNow m else 0)
    Done (.shareRelease ring dir) s { m with spine := { m.spine with stallSince := since } })

/-- A segment that was up breaks, and both its ends are told, and so does one over which four frames in a row ended in EOF_BAD (R60); one
that is down stays so. A trunk that was up goes down and the fault is reported, and comes up again. A segment that is down trains again
between two Stations that are present: its echoes go out at once, and its ring leaves masked mode with the last of them, or at once
where none is to be measured (R64, R88). -/
def Obligations.RingEventsComplete : Prop :=
  (∀ (ring pos lo hi : Nat) (s : State), ring < 4 → pos < 25 → s.m.spine.down.contains (ring, pos) = false →
    let m := syncStations { s.m with spine := { s.m.spine with
      down := s.m.spine.down ++ [(ring, pos)], retrained := s.m.spine.retrained.filter (fun x => x != (ring, pos)) } } ring
    Done (.segmentDown ring pos lo hi) s (segEvent (segEvent m ring pos pos lo) ring ((pos + 1) % 25) pos hi)) ∧
  (∀ (ring pos lo hi : Nat) (s : State), ring < 4 → pos < 25 → s.m.spine.down.contains (ring, pos) = true →
    Inert (.segmentDown ring pos lo hi) s) ∧
  (∀ (m : Mach) (d : Nat) (f : Frame), Store.get 0 (stn m d).badRun (travelDir f) = 3 →
    let m' := updStn m d (fun x => { x with badRun := Store.put 0 x.badRun (travelDir f) 0 })
    noteEnd m d f .eofBad = if travelDir f = 0 then breakSegment m' (ringOf d) (segBefore (posOf d)) 3 0
      else breakSegment m' (ringOf d) (posOf d) 1 3) ∧
  (∀ (trunk : Nat) (s : State), trunk < 4 → trunkUp s.m trunk = true →
    let m := incHf (setTrunk s.m trunk false) R.SPN_TRUNK_TRUNK_BREAKS
    Done (.trunkDown trunk) s (settled ((List.range 4).foldl changeRoutes
      (reportFault m EvCode.healthFault 4 (stnPath m (96 + trunk)) (96 + trunk))))) ∧
  (∀ (trunk : Nat) (s : State), trunk < 4 → trunkUp s.m trunk = false → s.m.bup.env.isSome = true →
    Done (.trunkRestored trunk) s (settled ((List.range 4).foldl changeRoutes (setTrunk s.m trunk true)))) ∧
  (∀ (ring pos : Nat) (s : State), ring < 4 → pos < 25 → s.m.spine.down.contains (ring, pos) = true →
    s.m.spine.retrained.contains (ring, pos) = false →
    (∀ p ∈ [pos, (pos + 1) % 25], posPresent s.m ring p = true ∧ nbit s.m.hth.faulted (dieAt ring p) = false) →
    let m := startEchoes { s.m with spine := { s.m.spine with retrained := s.m.spine.retrained ++ [(ring, pos)] } } ring
    Done (.retrain ring pos true) s (if Store.get 0 m.time.calOpen ring = 0 then endRetrain m ring else m)) ∧
  (∀ (ring pos : Nat) (s : State), ring < 4 → pos < 25 → Inert (.retrain ring pos false) s)


/-! ### Engines and cores (Chapter 4) -/

/-- The engine rows complete: a halting engine halts at the first boundary that may halt it, and a stepping engine that has done its step at
the next; else a boundary is noted, and one that a request to stop waited for ends it. A stepping engine whose limit has passed halts next;
an entry counts, for its engine and its step; a halting engine that has waited 2,048 ns in a sequence may halt anywhere. A core whose
engines all run sleeps; its wish to sleep is kept while one halts, is halted or steps, or a halt of the core is under way, and it wakes
with its engines as they were, those to be halted being halted. -/
def Obligations.EngineRowsComplete : Prop :=
  (∀ (die tap e : Nat) (b : Boundary) (s : State), engOk die tap e = true → (eng s.m die tap e).stopping = false →
    let x := eng s.m die tap e
    (engState s.m die tap e = 1 → boundaryEligible x b = true →
      Done (.engineBoundary die tap e b) s (haltEngine s.m die tap e b (boundaryLate x b))) ∧
    (engState s.m die tap e = 1 → boundaryEligible x b = false →
      Done (.engineBoundary die tap e b) s (updEng s.m die tap e (fun y => { y with inSeq := b.inSequence, lock := b.lockHeld }))) ∧
    (engState s.m die tap e = 4 → x.stepMode ≠ 3 → x.stopNext = true →
      Done (.engineBoundary die tap e b) s (haltEngine (updEng s.m die tap e (fun y => { y with reason := 3 })) die tap e b
        (boundaryLate { x with reason := 3 } b))) ∧
    (engState s.m die tap e = 4 → x.stepMode = 3 ∨ x.stopNext = false →
      Done (.engineBoundary die tap e b) s (updEng s.m die tap e (fun y => { y with
        inSeq := b.inSequence, lock := b.lockHeld, lateOrigin := b.inSequence && x.lateOrigin }))) ∧
    (engState s.m die tap e = 0 →
      Done (.engineBoundary die tap e b) s
        (updEng s.m die tap e (fun y => { y with inSeq := b.inSequence, lock := b.lockHeld, lateOrigin := false }))) ∧
    (engState s.m die tap e ∈ [2, 3, 5, 6] → Inert (.engineBoundary die tap e b) s)) ∧
  (∀ (die tap e : Nat) (b : Boundary) (s : State), engOk die tap e = true → (eng s.m die tap e).stopping = true →
    let m := updEng s.m die tap e (fun y => { y with
      stopping := false, torn := true, work := false, inSeq := b.inSequence, lock := b.lockHeld })
    Done (.engineBoundary die tap e b) s
      (if engState m die tap e = 1 ∧ boundaryEligible (eng s.m die tap e) b = true
        then haltEngine m die tap e b (boundaryLate (eng s.m die tap e) b) else wdtSync m die tap e false)) ∧
  (∀ (die tap e : Nat) (s : State), engOk die tap e = true → engState s.m die tap e = 1 →
    ((eng s.m die tap e).deferFrom + 2048 ≤ repNow s.m die →
      Done (.atomicBound die tap e) s (updEng s.m die tap e (fun y => { y with anyBoundary := true }))) ∧
    (repNow s.m die < (eng s.m die tap e).deferFrom + 2048 → Inert (.atomicBound die tap e) s)) ∧
  (∀ (die tap e : Nat) (s : State), engOk die tap e = true → engState s.m die tap e = 4 →
    (eng s.m die tap e).stepMode = 1 ∨ (eng s.m die tap e).stepMode = 2 → (eng s.m die tap e).stopNext = false →
    (eng s.m die tap e).stepUntil ≤ repNow s.m die →
    let m := updCmd s.m (eng s.m die tap e).stepCmd (fun c => { c with limit := true })
    Done (.stepLimit die tap e) s
      (wdtSync (updEng (setEngState m die tap e 1) die tap e (fun x => { x with reason := 3, anyBoundary := true })) die tap e false)) ∧
  (∀ (die tap e : Nat) (more : Bool) (s : State), engOk die tap e = true → engState s.m die tap e ∈ [0, 1, 4] →
    let x := eng s.m die tap e
    let n := nfld (tf s.m die tap R.TAP_RUN_RETIRED_RETIRED) (16 * e) 16
    let m := sput s.m die (tapBase tap + 0x50) (setFld (sget s.m die (tapBase tap + 0x50)) (16 * e) 16 (satN 16 (n + 1)))
    let m := updEng m die tap e (fun y => { y with work := more, passBreak := false, stopNext := y.stopNext ||
      (engState s.m die tap e == 4 && (y.stepMode == 1 || y.stepMode == 2)) })
    Done (.entryCompleted die tap e more) s (wdtReload
      (if x.stepCmd = 0 then m else updCmd m x.stepCmd (fun c => { c with retired := c.retired + 1 })) die tap e)) ∧
  (∀ (die tap e : Nat) (more : Bool) (s : State), engOk die tap e = true → engState s.m die tap e ∈ [2, 3, 5, 6] →
    Inert (.entryCompleted die tap e more) s) ∧
  (∀ (die tap : Nat) (s : State), tapOk die tap = true → (∀ e < 4, engState s.m die tap e = 0) → haltHere s.m die tap = false →
    Done (.coreSleep die tap) s (updCore ((List.range 4).foldl (fun m e => wdtSync (setEngState m die tap e 5) die tap e false)
      (tapSleep s.m die tap)) die tap (fun c => { c with powered := false, wakeReq := false, sleepReq := false }))) ∧
  (∀ (die tap : Nat) (s : State), tapOk die tap = true →
    (∃ e < 4, 1 ≤ engState s.m die tap e ∧ engState s.m die tap e ≤ 4) ∨ haltHere s.m die tap = true →
    Done (.coreSleep die tap) s (updCore s.m die tap (fun c => { c with sleepReq := true }))) ∧
  (∀ (die tap : Nat) (s : State), tapOk die tap = true → (∃ e < 4, engState s.m die tap e = 5 ∨ engState s.m die tap e = 6) →
    let m := applyPending (updCore s.m die tap (fun c => { c with powered := true, wakeReq := false })) die tap
    let m := (List.range 4).foldl (fun m e =>
        match engState m die tap e with
        | 5 => wdtSync (setEngState m die tap e 0) die tap e false
        | 6 => wdtSync (setEngState m die tap e 2) die tap e false
        | _ => m) m
    Done (.coreWake die tap) s (tapRecord (coreSync m die tap) die tap (repNow m die) .wake))

/-- Breakpoints and watchpoints: an entry that a release passes is passed once; every slot that an entry or a transaction matches acts in
turn, and with no slot that matches nothing changes. A slot that has matches to skip counts one; else it halts its engine, for ACTION 1
the other engines of its core as well, and for ACTION 2 none, marks the hit, is told, and drives its trigger (R121 to R123). -/
def Obligations.BreakRowsComplete : Prop :=
  (∀ (die tap e clid entry : Nat) (s : State), engOk die tap e = true → (eng s.m die tap e).passBreak = true →
    tf s.m die tap R.TAP_RUN_HREC_CLID e = clid → tf s.m die tap R.TAP_RUN_HREC_ENTRY e = entry →
    tf s.m die tap R.TAP_RUN_HREC_MID_ENTRY e = 0 →
    Done (.entryBreakpoint die tap e clid entry) s (updEng s.m die tap e (fun y => { y with passBreak := false }))) ∧
  (∀ (die tap e clid entry : Nat) (s : State), engOk die tap e = true → standsBefore s.m die tap e clid entry = false →
    Done (.entryBreakpoint die tap e clid entry) s
      ((breakHits s.m die tap e clid entry).foldl (fun m b => breakSlot m die tap e clid entry b) s.m)) ∧
  (∀ (m : Mach) (die tap e clid entry b : Nat), b ∈ breakHits m die tap e clid entry ↔ b < 8 ∧ tf m die tap R.TAP_BRK_CTL_EN b = 1 ∧
    tf m die tap R.TAP_BRK_CTL_ENGINE b = e ∧ tf m die tap R.TAP_BRK_CTL_CLID b = clid ∧ tf m die tap R.TAP_BRK_ENTRY_ENTRY b = entry) ∧
  (∀ (die tap e clid entry : Nat) (s : State), engOk die tap e = true → (eng s.m die tap e).passBreak = false →
    (∀ b < 8, tf s.m die tap R.TAP_BRK_CTL_EN b = 0) → Inert (.entryBreakpoint die tap e clid entry) s) ∧
  (∀ (m : Mach) (die tap e clid entry b : Nat), Store.get 0 (core_ m die tap).brkSkip b < tf m die tap R.TAP_BRK_CTL_SKIP b →
    breakSlot m die tap e clid entry b =
      updCore m die tap (fun c => { c with brkSkip := Store.put 0 c.brkSkip b (Store.get 0 (core_ m die tap).brkSkip b + 1) })) ∧
  (∀ (m : Mach) (die tap e clid entry b : Nat), tf m die tap R.TAP_BRK_CTL_SKIP b ≤ Store.get 0 (core_ m die tap).brkSkip b →
    let trig := slotTrigger m die tap R.TAP_BRK_CTL_TRIG_EN R.TAP_BRK_CTL_TRIGGER b
    (tf m die tap R.TAP_BRK_CTL_ACTION b = 0 →
      breakSlot m die tap e clid entry b = breakFires (breakHalt m die tap e b clid entry) die tap e b trig) ∧
    (tf m die tap R.TAP_BRK_CTL_ACTION b = 1 → breakSlot m die tap e clid entry b =
      breakFires (haltOthers (breakHalt m die tap e b clid entry) die tap e b 1) die tap e b trig) ∧
    (2 ≤ tf m die tap R.TAP_BRK_CTL_ACTION b → breakSlot m die tap e clid entry b = breakFires m die tap e b trig)) ∧
  (∀ (die tap e : Nat) (addr : W64) (ty : Nat) (priv : Bool) (s : State), engOk die tap e = true →
    Done (.watchpoint die tap e addr ty priv) s
      ((watchHits s.m die tap e addr.toNat ty priv).foldl (fun m w => watchSlot m die tap e addr.toNat w) s.m)) ∧
  (∀ (m : Mach) (die tap e addr ty w : Nat) (priv : Bool), w ∈ watchHits m die tap e addr ty priv ↔ w < 4 ∧
    tf m die tap R.TAP_WP_CTL_EN w = 1 ∧ nbit (tf m die tap R.TAP_WP_CTL_TYPES w) ty = true ∧
    nbit (tf m die tap R.TAP_WP_CTL_ENGMASK w) e = true ∧ tf m die tap R.TAP_WP_BASE_VAL w / 8 ≤ addr / 8 ∧
    addr / 8 ≤ tf m die tap R.TAP_WP_LIMIT_VAL w / 8 ∧ (priv = true → nbit (core_ m die tap).brkSecure (8 + w) = true)) ∧
  (∀ (m0 : Mach) (die tap e addr w : Nat),
    let m := setTf m0 die tap R.TAP_WP_LAST_ADDR addr
    let n := Store.get 0 (core_ m die tap).brkSkip (8 + w)
    let h := slotHalter m die tap (8 + w)
    let trig := slotTrigger m die tap R.TAP_WP_CTL_TRIG_EN R.TAP_WP_CTL_TRIGGER w
    (n < tf m die tap R.TAP_WP_CTL_SKIP w → watchSlot m0 die tap e addr w =
      updCore m die tap (fun c => { c with brkSkip := Store.put 0 c.brkSkip (8 + w) (n + 1) })) ∧
    (tf m die tap R.TAP_WP_CTL_SKIP w ≤ n →
      (tf m die tap R.TAP_WP_CTL_ACTION w = 0 →
        watchSlot m0 die tap e addr w = breakFires (haltReach m die tap e 2 true h) die tap e (8 + w) trig) ∧
      (tf m die tap R.TAP_WP_CTL_ACTION w = 1 → watchSlot m0 die tap e addr w =
        breakFires (haltOthers (haltReach m die tap e 2 true h) die tap e (8 + w) 2) die tap e (8 + w) trig) ∧
      (2 ≤ tf m die tap R.TAP_WP_CTL_ACTION w → watchSlot m0 die tap e addr w = breakFires m die tap e (8 + w) trig)))

/-- A HALT whose arms are gone completes 2,200 ns after T; a STEP whose engines hang past its limit is stopped; an orphan is dealt with as
the policy says once its time has come, under RESUME not while a Stitch covers one of its cores. -/
def Obligations.RunCompletionsComplete : Prop :=
  (∀ (cmd : Nat) (s : State) (c : Cmd), findCmd s.m cmd = some c → c.op = 0x0201 → c.t + 2200 ≤ gtcNow s.m →
    (∀ a ∈ s.m.run.arms, a.cmd ≠ cmd) → Done (.haltCompletion cmd) s (completeHalt s.m c)) ∧
  (∀ (cmd : Nat) (s : State) (c : Cmd), findCmd s.m cmd = some c → c.op = 0x0203 → wfld (wAt c.body 6) 0 2 ≠ 2 →
    c.t + wfld (wAt c.body 6) 16 16 * 1000 + 1000 ≤ gtcNow s.m → (s.m.engs.any (fun x => x.2.stepCmd == cmd)) = true →
    (∀ a ∈ s.m.run.arms, a.cmd ≠ cmd) →
    let hung := s.m.engs.filter (fun x => x.2.stepCmd == cmd)
    let m := hung.foldl (fun m x =>
      let d := x.1 / 512
      let p := x.1 % 512 / 4
      let e := x.1 % 4
      let m := if engState m d p e = 4 then setEngState m d p e 1 else m
      wdtSync (updEng m d p e (fun y => { y with stepCmd := 0, stepMode := 0, reason := 3, anyBoundary := true })) d p e false) s.m
    Done (.stepStuck cmd) s (stepCheck (updCmd m cmd (fun c => { c with limit := true, stuck := hung.length })) cmd)) ∧
  (∀ (k : Nat) (s : State) (o : Orphan), s.m.run.orphans[k]? = some o → o.due ≤ gtcNow s.m →
    (hf s.m R.RUN_ORPHAN_POLICY = 1 → ∀ c ∈ o.cores, stitchOverlaps s.m (orphanScope s.m o c) = false) →
    Done (.orphanPolicy k) s (applyOrphan { s.m with run := { s.m.run with orphans := s.m.run.orphans.eraseIdx k } } o)) ∧
  (∀ (k : Nat) (s : State) (o : Orphan), s.m.run.orphans[k]? = some o → gtcNow s.m < o.due → Inert (.orphanPolicy k) s)

/-! ### The Composer (Chapter 1) -/

/-- BIND is taken, or refused with its cause, which changes nothing else, and one for another package changes nothing; OWNER records the owner
of a partition and drops its levels, and one that names the owner it has changes nothing; FABRIC waits for the last job; JOB adds,
changes or removes a job, the removal of the last making the change of fabric that waits, and a sixty-fifth is refused. -/
def Obligations.ComposerRowsComplete : Prop :=
  (∀ (b : BindMsg) (s : State) (d inst : Nat), bindUnit b = some (d, inst) → upPkg b.unit = pkgNum s.m →
    let was := boundNow s.m d inst
    bindCause s.m b d inst was = 0 → Done (.bindMsg b) s (traceChecks (takeBind s.m b d inst was))) ∧
  (∀ (b : BindMsg) (s : State) (d inst : Nat), bindUnit b = some (d, inst) → upPkg b.unit = pkgNum s.m →
    let was := boundNow s.m d inst
    bindCause s.m b d inst was ≠ 0 →
    Done (.bindMsg b) s (emit s.m (.bindRefuse b.unit b.ch (bindCause s.m b d inst was)))) ∧
  (∀ (b : BindMsg) (s : State), bindUnit b = none → exec (.bindMsg b) s = .fault .noSuchUnit) ∧
  (∀ (b : BindMsg) (s : State) (d inst : Nat), bindUnit b = some (d, inst) → upPkg b.unit ≠ pkgNum s.m → Inert (.bindMsg b) s) ∧
  (∀ (part : Nat) (digest : List Byte) (port : Port) (s : State),
    ownerOf s.m part = (if digest.all (fun x => x == 0) then none else some { digest := digest, port := port }) →
    Inert (.ownerMsg part digest port) s) ∧
  (∀ (part : Nat) (digest : List Byte) (port : Port) (s : State),
    let new : Option Owner := if digest.all (fun x => x == 0) then none else some { digest := digest, port := port }
    ownerOf s.m part ≠ new →
    let m := if (ownerOf s.m part).isNone then createPart s.m part else s.m
    let m := { m with comp := { m.comp with owners := Store.put none m.comp.owners part new } }
    Done (.ownerMsg part digest port) s (privSync (dropLevels m part 0 (fun g => decide (1 ≤ g.level))) part)) ∧
  (∀ (pkg : Nat) (joined : Bool) (s : State), s.m.comp.jobs = [] → Done (.fabricMsg pkg joined) s (applyFabric s.m pkg joined)) ∧
  (∀ (pkg : Nat) (joined : Bool) (s : State), s.m.comp.jobs ≠ [] →
    Done (.fabricMsg pkg joined) s { s.m with comp := { s.m.comp with fabricDue := some (pkg, joined) } }) ∧
  (∀ (job : W32) (ps : PartMap) (s : State), ps ≠ 0 → (∀ j ∈ s.m.comp.jobs, j.1 ≠ job) → s.m.comp.jobs.length < 64 →
    Done (.jobMsg job ps) s { s.m with comp := { s.m.comp with jobs := s.m.comp.jobs ++ [(job, ps)] } }) ∧
  (∀ (job : W32) (ps : PartMap) (s : State), ps ≠ 0 → (∀ j ∈ s.m.comp.jobs, j.1 ≠ job) → 64 ≤ s.m.comp.jobs.length →
    Done (.jobMsg job ps) s (emit s.m (.jobRefuse job 1))) ∧
  (∀ (job : W32) (ps : PartMap) (s : State), ps ≠ 0 → (∃ j ∈ s.m.comp.jobs, j.1 = job) →
    Done (.jobMsg job ps) s { s.m with comp := { s.m.comp with
      jobs := s.m.comp.jobs.map (fun j => if j.1 = job then (job, ps) else j) } }) ∧
  (∀ (job : W32) (s : State), s.m.comp.fabricDue = none ∨ s.m.comp.jobs.filter (fun j => j.1 != job) ≠ [] →
    Done (.jobMsg job 0) s { s.m with comp := { s.m.comp with jobs := s.m.comp.jobs.filter (fun j => j.1 != job) } }) ∧
  (∀ (job : W32) (pkg : Nat) (joined : Bool) (s : State), s.m.comp.fabricDue = some (pkg, joined) →
    s.m.comp.jobs.filter (fun j => j.1 != job) = [] →
    Done (.jobMsg job 0) s (applyFabric { s.m with comp := { s.m.comp with jobs := [], fabricDue := none } } pkg joined))

/-! ### Captures and Stitches (Chapter 5) -/

/-- The Cut of every Capture that is ready is made. A Cut Buffer that records takes a record while it has room, and drops it and marks
itself full when it has none; a full one counts what it refuses; one that is closed, and at an anchor one of a die in a Cut that none has
taken, keeps what arrives behind its records. A marker
closes a Cut Buffer; the deadline closes the rest; a Capture that is complete is written to its Hamper. -/
def Obligations.CutRowsComplete : Prop :=
  (∀ (die : Nat) (s : State), die < 100 → stnUp s.m die = true →
    Done (.cutPoint die) s ((capsWhere s.m die (fun x => x.cutAt.isNone && cutReady s.m die x)).foldl (fun m k => cutAt m die k) s.m)) ∧
  (∀ (die port : Nat) (bytes : List Byte) (vc : Nat) (err : Bool) (s : State), portOk die port = true → stnUp s.m die = true →
    bytes ≠ [] → bytes.length < 65536 → cutState s.m die port ≠ 0 → cutState s.m die port ≠ 5 →
    let b := cutBuf s.m die port
    let r : CutRec := { stamp := repNow s.m die, vc := vc, err := err, bytes := bytes }
    (sf s.m die R.STN_CUT_STAT_FULL port = 1 →
      Done (.cutBufferRecord die port bytes vc err) s (setCut s.m die port (cutState s.m die port) { b with refused := b.refused + 1 })) ∧
    (sf s.m die R.STN_CUT_STAT_FULL port ≠ 1 → cutState s.m die port = 1 → cutFill b + cutRecSize r ≤ cutSize die port →
      Done (.cutBufferRecord die port bytes vc err) s (setCut s.m die port 1 { b with recs := b.recs ++ [r] })) ∧
    (sf s.m die R.STN_CUT_STAT_FULL port ≠ 1 → cutState s.m die port = 1 → cutSize die port < cutFill b + cutRecSize r →
      Done (.cutBufferRecord die port bytes vc err) s
        (emit (setSf (setCut s.m die port 1 { b with refused := b.refused + 1 }) die R.STN_CUT_STAT_FULL 1 port) (.link die port 1))) ∧
    (sf s.m die R.STN_CUT_STAT_FULL port ≠ 1 → cutState s.m die port ≠ 1 →
      Done (.cutBufferRecord die port bytes vc err) s (setCut s.m die port (cutState s.m die port) { b with behind := b.behind ++ [r] }))) ∧
  (∀ (die port : Nat) (bytes : List Byte) (vc : Nat) (err : Bool) (s : State), portOk die port = true → stnUp s.m die = true →
    bytes ≠ [] → bytes.length < 65536 → cutState s.m die port = 0 → sf s.m die R.STN_CUT_STAT_FULL port ≠ 1 →
    let b := cutBuf s.m die port
    let r : CutRec := { stamp := repNow s.m die, vc := vc, err := err, bytes := bytes }
    (96 ≤ die → farEnd die port = none → dieInCut s.m die = true →
      Done (.cutBufferRecord die port bytes vc err) s (setCut s.m die port 0 { b with behind := b.behind ++ [r] })) ∧
    (die < 96 ∨ farEnd die port ≠ none ∨ dieInCut s.m die = false → Inert (.cutBufferRecord die port bytes vc err) s)) ∧
  (∀ (die port : Nat) (s : State) (x : Cap), portOk die port = true → stnUp s.m die = true → cutState s.m die port = 1 →
    sf s.m die R.STN_CUT_STAT_FULL port = 0 → cap s.m die (cutBuf s.m die port).slot = some x → x.fired = true →
    noMarker s.m die port x.kind = false →
    Done (.cutMarker die port) s
      (setSf (setCut s.m die port 2 { (cutBuf s.m die port) with closedAt := repNow s.m die }) die R.STN_CUT_STAT_MARKER 1 port)) ∧
  (∀ (die : Nat) (s : State), die < 100 → stnUp s.m die = true →
    Done (.cutDeadline die) s
      ((capsWhere s.m die (fun x => !x.deadline && decide (x.t + 8000 ≤ repNow s.m die))).foldl (fun m k => deadlineOf m die k) s.m)) ∧
  (∀ (die : Nat) (s : State), die < 100 → stnUp s.m die = true →
    Done (.captureDone die) s
      (((capsWhere s.m die (fun x => !x.done && x.cutAt.isSome && cutsClosed s.m die x && !wakesOwed s.m die x)).filter
        (fun k => quireOpen s.m k die)).foldl (fun m k => captureDie m die k) s.m))

/-- A Stitch that is busy gathers its counters on each 100 us, unless a gather of it is still out, and marks what a silent Station left DARK;
it ends at its deadline in any case. A claim on Hamper space lowers what every open Capture that holds it may take, and is counted and
told; one that no open Capture holds changes nothing. -/
def Obligations.StitchRowsComplete : Prop :=
  (∀ (slot : Nat) (s : State) (x : Dump) (c : Cmd), dump s.m slot = some x → dumpBusy x = true → x.nextGather ≤ gtcNow s.m →
    let due := x.nextGather + 100000 * ((gtcNow s.m - x.nextGather) / 100000 + 1)
    let m := updDump s.m slot (fun y => { y with nextGather := due })
    let m := if x.fired then m else pinScope m slot
    (findCmd m x.cmd = none → Done (.stitchProgress slot) s m) ∧
    (findCmd m x.cmd = some c → (∀ g ∈ m.spine.gathers, g.cmd ≠ c.id) →
      Done (.stitchProgress slot) s (gatherStitch (markDark m slot c) c)) ∧
    (findCmd m x.cmd = some c → (∃ g ∈ m.spine.gathers, g.cmd = c.id) → Done (.stitchProgress slot) s m)) ∧
  (∀ (slot : Nat) (s : State) (x : Dump), dump s.m slot = some x → dumpBusy x = true → gtcNow s.m < x.nextGather →
    Inert (.stitchProgress slot) s) ∧
  (∀ (slot : Nat) (s : State) (x : Dump), dump s.m slot = some x → dumpBusy x = true → x.t + 5000000 ≤ gtcNow s.m →
    Done (.stitchDeadline slot) s (completeStitch s.m slot)) ∧
  (∀ (slot : Nat) (s : State) (x : Dump), dump s.m slot = some x → dumpBusy x = true → gtcNow s.m < x.t + 5000000 →
    Inert (.stitchDeadline slot) s) ∧
  (∀ (stack folio : Nat) (s : State), stack < 32 → folio < captureFolios →
    (∀ k < 8, ∀ x, dump s.m k = some x → dumpBusy x = true → ∀ q ∈ x.quires, q.stack = stack → q.base ≤ folio → folio < q.base + q.span →
      ∀ c, cap s.m q.die k = some c → c.done = true) →
    Inert (.hamperClaim stack folio) s) ∧
  (∀ (stack folio k : Nat) (s : State) (x : Dump) (q : Quire) (c : Cap), stack < 32 → folio < captureFolios → k < 8 →
    (∀ j < 8, j ≠ k → dump s.m j = none) → dump s.m k = some x → dumpBusy x = true → x.quires = [q] → q.stack = stack →
    q.base ≤ folio → folio < q.base + q.span → cap s.m q.die k = some c → c.done = false →
    let n := Nat.min (folio - q.base) (c.claim.getD (folio - q.base))
    let m := incHf (setCap s.m q.die k (some { c with claim := some n })) R.STH_CNT_CLAIMS
    Done (.hamperClaim stack folio) s
      (stnEvent m q.die { code := EvCode.hamperClaim, source := stnPath m q.die, stamp := repNow m q.die,
                          detail := w1 k ++ w1 stack ++ w1 folio ++ w1 (4096 * n), named := dumpSid m k,
                          parts := ((dump m k).map (fun x => x.parts)).getD 0 }))

/-! ### Tally and Sentinel (Chapter 7) -/

/-- A part of a Tally ends with its accumulation, and one that is not open only leaves the run to be checked; a Sentinel counts every element
of a write-back that matches, and while its latch is clear the match of the lowest address is latched, told and offered to its trigger;
a collection that is due is made and the commands that waited for it go on. -/
def Obligations.TallyRowsComplete : Prop :=
  (∀ (cmd part : Nat) (readErr : Bool) (s : State) (r : TallyRun) (p : TallyPart), tallyRun s.m cmd = some r → r.parts[part]? = some p →
    (p.active = true → p.ended = false → stnAnswers s.m p.die = true →
      Done (.tallyPartEnd cmd part readErr) s (tallyCheck (endPart s.m r part p readErr) cmd)) ∧
    (p.active = false ∨ p.ended = true ∨ stnAnswers s.m p.die = false → Done (.tallyPartEnd cmd part readErr) s (tallyCheck s.m cmd))) ∧
  (∀ (die tap e : Nat) (w : WriteBack) (s : State), engOk die tap e = true → e = 1 ∨ e = 2 →
    let hits := sentinelHits s.m die tap (e - 1) w
    let m := hits.foldl (fun m x => countKind m die tap (e - 1) x.1) s.m
    (hits = [] → Inert (.sentinelMatch die tap e w) s) ∧
    (hits ≠ [] → tf m die tap R.TAP_SNT_FIRST_VALID (e - 1) = 1 → Done (.sentinelMatch die tap e w) s m) ∧
    (∀ kind x, lowestHit hits = some (kind, x) → tf m die tap R.TAP_SNT_FIRST_VALID (e - 1) ≠ 1 →
      Done (.sentinelMatch die tap e w) s (firstEvent m die tap e kind w x.addr))) ∧
  (∀ (l : List (Nat × Element)) (kind : Nat) (x : Element), lowestHit l = some (kind, x) →
    (kind, x) ∈ l ∧ ∀ y ∈ l, x.addr.toNat ≤ y.2.addr.toNat) ∧
  (∀ (die : Nat) (s : State), die < 100 → stnUp s.m die = true →
    let m := ((stn s.m die).collects.filter (fun c => decide (c.t + 64 ≤ repNow s.m die))).foldl (fun m c => collectOn m die c) s.m
    Done (.firstFaultCollect die) s (((m.cmds.filter (fun c => c.op == 0x0504)).map (fun c => c.id)).foldl faultCheck m))

/-! ### Trace (Chapter 8) -/

/-- A transaction in the scope of a stream that runs at its stamp and that passes its Tap's filter is sampled, and every 2^SAMPLE-th recorded,
without its contents where they are privileged or secure and not granted; one outside changes nothing. A header that its port's settings
choose is recorded; a horizon closes once every source's records before it have come; a frame is spilled when it is due, and not within
GAP_NS of the last burst of its route; a merge that no drain reads is discarded when it has waited ten seconds. -/
def Obligations.TraceRowsComplete : Prop :=
  (∀ (die tap k : Nat) (x : Transaction) (y : Stream) (s : State), tapOk die tap = true →
    let t := repNow s.m die + x.cycles / 2
    tapStream s.m die tap t = some k → stream s.m k = some y → inStreamScope s.m die tap y = true → tapPasses s.m die tap x = true →
    let m0 := beginSource s.m die k tap
    let m := updSrc m0 die k tap (fun r => { r with sampled := r.sampled + 1 })
    ((srcOf m0 die k tap).sampled % 2 ^ tf m die tap R.TAP_TRC_CTL_SAMPLE ≠ 0 → Done (.tapTraceRecord die tap x) s m) ∧
    ((srcOf m0 die k tap).sampled % 2 ^ tf m die tap R.TAP_TRC_CTL_SAMPLE = 0 →
      Done (.tapTraceRecord die tap x) s (recordNow m die k tap t
        (if (x.privileged || x.secure) && tf m die tap R.TAP_TRC_CTL_PRIV_OK == 0 then none
         else some (.tx x.ttype (x.engine + sizeCode x.bytes * 4 + b2n x.err * 64) x.addr.toNat))))) ∧
  (∀ (die tap : Nat) (x : Transaction) (s : State), tapOk die tap = true →
    (∀ k y, tapStream s.m die tap (repNow s.m die + x.cycles / 2) = some k → stream s.m k = some y →
      inStreamScope s.m die tap y = false ∨ tapPasses s.m die tap x = false) →
    Inert (.tapTraceRecord die tap x) s) ∧
  (∀ (die port : Nat) (x : LinkHeader) (s : State), die < 100 → port < portsOf die →
    let k := sf s.m die R.STN_TRC_LINK_SLOT port
    sf s.m die R.STN_TRC_LINK_EN port = 1 → records s.m die k (repNow s.m die) = true →
    nbit (sf s.m die R.STN_TRC_LINK_DIR port) (b2n x.outgoing) = true → nbit (sf s.m die R.STN_TRC_LINK_VC port) x.vc = true →
    Done (.linkTraceRecord die port x) s (recordNow s.m die k (128 + port) (repNow s.m die)
      (if x.secure && sf s.m die R.STN_TRC_LINK_PRIV_OK port == 0 then none
       else some (.link (b2n x.outgoing + 2 * b2n x.err) x.vc x.bytes (x.header.take 8))))) ∧
  (∀ (die slot h : Nat) (s : State), die < 100 → (trS s.m die slot).horizon = some h →
    (tokensPassed s.m die slot h = true → Done (.horizonClose die slot) s (traceChecks (closeHorizon s.m die slot))) ∧
    (tokensPassed s.m die slot h = false → Inert (.horizonClose die slot) s)) ∧
  (∀ (die slot : Nat) (x : Stream) (s : State), die < 100 → stream s.m slot = some x →
    (x.mode = 2 ∨ x.mode = 3 ∧ hostRoom s.m x = true) → spillable s.m die slot ≠ [] → stnAnswers s.m die = true →
    (burstDue s.m die (spillRoute x) = true →
      Done (.spillBurst die slot) s (spillOne (burst s.m die (spillRoute x)) die slot)) ∧
    (burstDue s.m die (spillRoute x) = false → Inert (.spillBurst die slot) s)) ∧
  (∀ (slot : Nat) (s : State) (x : Stream) (g : Merge), stream s.m slot = some x → x.merge = some g → g.present = true →
    (∀ c ∈ s.m.cmds, c.op = 0x0604 → c.aux.head? ≠ some slot) → g.since + 10000000000 ≤ gtcNow s.m →
    Done (.mergeDiscard slot) s
      (updStream s.m slot (fun x => { x with merge := some { g with present := false, unread := g.frames } })))

/-! ### Routines and triggers (Chapter 9) -/

/-- Every step of a Routine completes: the steps that issue a command, a broadcast, a wait, the counters and branches, an event, the end;
and a step that has its result moves on, a PEEK that succeeded into scratch with its data, and a broadcast once its frames have left
the hub. -/
def Obligations.RoutineStepsComplete : Prop :=
  (∀ (s : State) (run op : Nat) (r : Run) (y : Routine) (x : StepF), 2 ≤ op → op ≤ 10 → stepReady s.m run op r y x →
    StepDone (.routineCommandStep run) s run r y x dispatchStep) ∧
  (∀ (s : State) (run : Nat) (r : Run) (y : Routine) (x : StepF), stepReady s.m run 12 r y x →
    StepDone (.peekToScratch run) s run r y x dispatchStep) ∧
  (∀ (s : State) (run : Nat) (r : Run) (y : Routine) (x : StepF), stepReady s.m run 18 r y x →
    StepDone (.traceCtl run) s run r y x dispatchStep) ∧
  (∀ (s : State) (run : Nat) (r : Run) (y : Routine) (x : StepF), stepReady s.m run 0 r y x →
    StepDone (.rtnEnd run) s run r y x (fun m r _ _ => controlDone m r none)) ∧
  (∀ (s : State) (run : Nat) (r : Run) (y : Routine) (x : StepF), stepReady s.m run 1 r y x →
    StepDone (.waitTick run) s run r y x (fun m r _ x =>
      let t := waitTarget m x r.lastT
      let m := updRun m r.index (fun z => { z with lastT := t })
      if t ≤ gtcNow m then controlDone m r (some (r.pc + 1)) else updRun m r.index (fun z => { z with waiting := some t }))) ∧
  (∀ (s : State) (run t : Nat) (r : Run), runOf s.m run = some r → r.waiting = some t → t ≤ gtcNow s.m →
    Done (.waitTickDone run) s (controlDone s.m r (some (r.pc + 1)))) ∧
  (∀ (s : State) (run : Nat) (r : Run) (y : Routine) (x : StepF), stepReady s.m run 13 r y x →
    StepDone (.setCounter run) s run r y x (fun m r _ x => controlDone (setCounterTo m r (x.a % 16) x.b) r (some (r.pc + 1)))) ∧
  (∀ (s : State) (run : Nat) (r : Run) (y : Routine) (x : StepF), stepReady s.m run 14 r y x →
    StepDone (.decSkip run) s run r y x (fun m r y x =>
      if counter y (x.a % 16) = 0 then controlDone m r (some (r.pc + 1 + nfld x.a 16 16))
      else controlDone (setCounterTo m r (x.a % 16) (counter y (x.a % 16) - 1)) r (some (r.pc + 1)))) ∧
  (∀ (s : State) (run : Nat) (r : Run) (y : Routine) (x : StepF), stepReady s.m run 15 r y x →
    StepDone (.skipIf run) s run r y x (fun m r y x =>
      controlDone m r (some (if condHolds x.opt (bytesAt (scratchRead y (x.a % 2 ^ 16) 8) 0 8) x.b
        then r.pc + 1 + nfld x.a 16 16 else r.pc + 1)))) ∧
  (∀ (s : State) (run : Nat) (r : Run) (y : Routine) (x : StepF), stepReady s.m run 16 r y x →
    StepDone (.jump run) s run r y x (fun m r y x =>
      if counter y (x.a % 16) = 0 then controlDone m r (some (r.pc + 1))
      else controlDone (setCounterTo m r (x.a % 16) (counter y (x.a % 16) - 1)) r (some (x.b % 512)))) ∧
  (∀ (s : State) (run : Nat) (r : Run) (y : Routine) (x : StepF), stepReady s.m run 17 r y x →
    StepDone (.routineEvent run) s run r y x (fun m r _ x => controlDone (raiseEv m
      { code := EvCode.routineEvent, source := hubPath m, stamp := gtcNow m, detail := w1 x.a ++ w2 x.b ++ w1 r.pc,
        named := [r.sid], wide := false, tray := nbit x.opt 0, cookie := runCookie m r }) r (some (r.pc + 1)))) ∧
  (∀ (s : State) (run : Nat) (r : Run) (y : Routine) (x : StepF), stepReady s.m run 11 r y x →
    let sc := scopeAt (stepTaken s.m run x) (liveScope (stepTaken s.m run x) y x) 0
    scopeDark (stepTaken s.m run x) sc = false → scopeLevel (stepTaken s.m run x) (stepIssuer (runTaken r x)) sc 2 = true →
    scopeMoved (stepTaken s.m run x) sc = false →
    StepDone (.bcastWrite run) s run r y x (fun m r _ x =>
      let fs := (bcasts m sc (x.a % 2 ^ 13) x.b).map Prod.snd
      let m := updRun m r.index (fun z => { z with frames := fs })
      reply (bcastAll m sc (x.a % 2 ^ 13) x.b) (.run r.index) 0 0 0 [])) ∧
  (∀ (s : State) (run st : Nat) (detail : List W32) (r : Run) (y : Routine), runOf s.m run = some r → r.result = some (st, detail) →
    routineOf s.m r.routine r.sid = some y →
    let x := stepOf ((y.steps[r.pc]?).getD 0)
    (x.op ≠ 11 → x.op ≠ 12 → Done (.routineStepDone run) s (endStep s.m run st (wordsBytes detail) x.cont (some (r.pc + 1)))) ∧
    (x.op = 11 → bcastWaits s.m r = false →
      Done (.routineStepDone run) s (endStep s.m run st (wordsBytes detail) x.cont (some (r.pc + 1)))) ∧
    (x.op = 11 → bcastWaits s.m r = true → Inert (.routineStepDone run) s) ∧
    (x.op = 12 → st ≠ 0 → Done (.routineStepDone run) s (endStep s.m run st [] x.cont (some (r.pc + 1)))) ∧
    (x.op = 12 → st = 0 → Done (.routineStepDone run) s (endStep
      (updRoutine s.m r.routine r.sid (fun y => scratchWrite y (x.b % 2 ^ 16) (wordsBytes detail))) run 0 [] x.cont
      (some (r.pc + 1)))))

/-- A queued run begins while fewer than eight execute, its Routine paged in where it is resident or room is made for it; where none can be
made it waits, and where it is gone it is aborted. A trigger fires on its source: a periodic one when its time less its advance comes, one
of the link layer at an error, one of a pin at the pin's edge, unless an edge of that kind came less than 100 ns before; a level that does
not change does nothing. A firing kept while its action was busy is made once it is free; the trigger pins rise and fall at their times. -/
def Obligations.TriggerRowsComplete : Prop :=
  (∀ (s : State) (r : Run) (y : Routine),
    s.m.rtn.runs.find? (fun r => !r.executing &&
      !(s.m.rtn.runs.any (fun x => x.executing && x.routine == r.routine && x.sid == r.sid))) = some r →
    (s.m.rtn.runs.filter (fun x => x.executing)).length < 8 → routineOf s.m r.routine r.sid = some y → y.resident = true →
    Done .routineRunStart s (if (pageRoutine s.m y).1 then beginRun (pageRoutine s.m y).2 r
      else finishRun (pageRoutine s.m y).2 r St.malformed)) ∧
  (∀ (s : State) (r : Run),
    s.m.rtn.runs.find? (fun r => !r.executing &&
      !(s.m.rtn.runs.any (fun x => x.executing && x.routine == r.routine && x.sid == r.sid))) = some r →
    (s.m.rtn.runs.filter (fun x => x.executing)).length < 8 →
    (routineOf s.m r.routine r.sid = none → Done .routineRunStart s (finishRun s.m r St.aborted)) ∧
    (∀ y, routineOf s.m r.routine r.sid = some y → y.resident = false →
      (∀ m, makeRoom s.m = some m → Done .routineRunStart s
        (if (pageRoutine m y).1 then beginRun (pageRoutine m y).2 r else finishRun (pageRoutine m y).2 r St.malformed)) ∧
      (makeRoom s.m = none → Inert .routineRunStart s))) ∧
  (∀ (n stamp : Nat) (source : W32) (s : State) (t : Trigger), trigger s.m n = some t → t.pending = some (stamp, source) →
    actionBusy t = false →
    Done (.pendingFiring n) s (performTrigger (setTrigger s.m n (some { t with pending := none })) n stamp source)) ∧
  (∀ (n : Nat) (s : State) (t : Trigger), trigger s.m n = some t → t.source = 5 → gtcNow s.m < t.nextT →
    t.nextT ≤ gtcNow s.m + 1000 * t.advanceUs →
    let m := setTrigger s.m n (some { t with nextT := (nextPeriodic t t.nextT).getD 0 })
    Done (.periodicFiring n) s (fire m n t.nextT (hubPath m))) ∧
  (∀ (die port : Nat) (s : State), die < 100 → port < portsOf die →
    Done (.linkLayerError die port) s (offerAll s.m 3 die (bindPort port) (repNow s.m die) (portPath s.m die port))) ∧
  (∀ (pin : Nat) (s : State), pin < 4 → Inert (.trigIn pin (nbit s.m.pins.trigIn pin)) s) ∧
  (∀ (pin : Nat) (level : Bool) (s : State), pin < 4 → nbit s.m.pins.trigIn pin = !level →
    let key := 2 * pin + b2n level
    let lv := if level then setBit s.m.pins.trigIn pin else clrBit s.m.pins.trigIn pin
    ((∀ e ∈ s.m.pins.lastEdge, e.1 = key → e.2 + 100 ≤ gtcNow s.m - 8) →
      let edges := s.m.pins.lastEdge.filter (fun e => e.1 != key) ++ [(key, gtcNow s.m - 8)]
      Done (.trigIn pin level) s ((List.range 64).foldl (fun m n =>
        match trigger m n with
        | some t => if t.source == 4 && t.pin == pin && t.falling != level then fire m n (gtcNow s.m - 8) (hubPath m) else m
        | none => m) { s.m with pins := { s.m.pins with trigIn := lv, lastEdge := edges } })) ∧
    ((∃ e ∈ s.m.pins.lastEdge, e.1 = key ∧ gtcNow s.m - 8 < e.2 + 100) →
      Done (.trigIn pin level) s { s.m with pins := { s.m.pins with trigIn := lv } })) ∧
  (∀ (pin : Nat) (s : State), pin < 4 → s.m.peer.isolated = false →
    s.m.pins.trigStart.any (fun x => x.1 == pin && decide (x.2 ≤ gtcNow s.m)) = true →
    ∃ m, Done (.trigOutStart pin) s m ∧ nbit m.pins.trigOut pin = true ∧
      m.pins.trigStart = s.m.pins.trigStart.filter (fun x => !(x.1 == pin && decide (x.2 ≤ gtcNow s.m)))) ∧
  (∀ (pin : Nat) (s : State), pin < 4 → nbit s.m.pins.trigOut pin = true → Store.get 0 s.m.pins.trigEnd pin ≤ gtcNow s.m →
    Done (.trigOutEnd pin) s { s.m with pins := { s.m.pins with trigOut := clrBit s.m.pins.trigOut pin } })

/-! ### Sessions, the scan port and the sideband (Chapters 10 and 11) -/

/-- A Session that was silent past its time ends; held records are tried again; a coalesced interrupt goes out once it is due; a DMA access
that fails ends its command, or is counted. -/
def Obligations.SessionEventsComplete : Prop :=
  (∀ (port : Port) (h : W32) (s : State) (x : Session) (t : Nat), sessOf s.m (sidOf port h) = some x → timeoutAt s.m x = some t →
    x.open_ = true → x.ending = 0 → t ≤ gtcNow s.m →
    Done (.sessionTimeout port h) s (endSession s.m (sidOf port h) 2 0)) ∧
  (∀ (port : Port) (h : W32) (s : State) (x : Session) (t : Nat), sessOf s.m (sidOf port h) = some x → timeoutAt s.m x = some t →
    gtcNow s.m < t → Inert (.sessionTimeout port h) s) ∧
  (∀ (h : W32) (s : State), Done (.eqRetry h) s
    (fenceAll (retrySession (retrySession (retrySession s.m (sidOf .host h)) (sidOf .scan h)) (sidOf .sideband h)))) ∧
  (∀ (h : W32) (s : State) (x : Session) (t : Nat), sessOf s.m (sidOf .host h) = some x → x.irqDue = some t → t ≤ gtcNow s.m →
    Done (.coalesceEnd h) s
      (updSess (emit s.m (.msix x.vector)) x.sid (fun y => { y with lastIrq := some (gtcNow s.m), irqDue := none }))) ∧
  (∀ (h : W32) (s : State) (c : Cmd),
    s.m.cmds.find? (fun c => c.sid == sidOf .host h && dmaLater.contains c.op) = some c →
    Done (.dmaFailure .commandAccess h) s (fenceAll (abortCmd s.m c))) ∧
  (∀ (h : W32) (s : State), Done (.dmaFailure .fetch h) s (incIfErr s.m R.IF_ERR_BAD_DESC)) ∧
  (∀ (h : W32) (s : State), (sessOf s.m (sidOf .host h)).isSome = true →
    Done (.dmaFailure .record h) s (updSess (incIfErr s.m R.IF_ERR_BAD_DESC) (sidOf .host h)
      (fun x => { x with ending := 6, held := [], lost := 0, ready := [] })))

/-- The scan port: the instruction register is loaded; HELLO attaches the probe; a CMD in sequence is acknowledged and its packet handed to
the checks; a repeat is acknowledged and not executed again; one out of sequence, while firmware is not in service or while the
queue is full is refused; RESEND sends a kept frame again and is refused for any other; BYE, TRST_N and silence past the keepalive detach. -/
def Obligations.ScanRowsComplete : Prop :=
  (∀ (ir : Nat) (s : State), ir < 256 → Done (.instructionLoad ir) s (loadIr s.m ir)) ∧
  (∀ s : State, Done .testLogicReset s (loadIr s.m 1)) ∧
  (∀ s : State, Done .trstN s (detach (loadIr s.m 1))) ∧
  (∀ (n : Nat) (b : List Byte) (s : State), scanGood s.m true b .good = true →
    Done (.scanHello n b .good) s (scanPump (scanAck (helloSync s.m b) n))) ∧
  (∀ (b : List Byte) (s : State), scanGood s.m false b .good = true →
    Done (.scanCmd s.m.scan.lastFseq b .good) s (scanAck s.m s.m.scan.lastFseq)) ∧
  (∀ (n : Nat) (b : List Byte) (s : State), scanGood s.m false b .good = true → n ≠ s.m.scan.lastFseq → n ≠ expectedFseq s.m →
    Done (.scanCmd n b .good) s (scanNak s.m 2 (expectedFseq s.m))) ∧
  (∀ (b : List Byte) (s : State), scanGood s.m false b .good = true → expectedFseq s.m ≠ s.m.scan.lastFseq →
    (hf s.m R.HUB_STATUS_FW_IN_SERVICE = 0 → Done (.scanCmd (expectedFseq s.m) b .good) s (scanNak s.m 5 (expectedFseq s.m))) ∧
    (hf s.m R.HUB_STATUS_FW_IN_SERVICE ≠ 0 → 65536 < queuedBytes s.m .scan + b.length →
      Done (.scanCmd (expectedFseq s.m) b .good) s (scanNak s.m 3 (expectedFseq s.m))) ∧
    (hf s.m R.HUB_STATUS_FW_IN_SERVICE ≠ 0 → queuedBytes s.m .scan + b.length ≤ 65536 →
      Done (.scanCmd (expectedFseq s.m) b .good) s (offerPacket
        (scanAck { s.m with scan := { s.m.scan with lastFseq := expectedFseq s.m, lastIn := gtcNow s.m } } (expectedFseq s.m))
        .scan b 0))) ∧
  (∀ (n q : Nat) (ws : List W32) (b : List Byte) (s : State), scanGood s.m false b .good = true →
    s.m.scan.kept.find? (fun x => x.1 == n) = some (n, q, ws) →
    Done (.scanResend n b .good) s (emit (scanAck { s.m with scan := { s.m.scan with lastIn := gtcNow s.m } } n)
      (.scanFrame (scanFrameBytes 0x81 n (wordsBytes ws))))) ∧
  (∀ (n : Nat) (b : List Byte) (s : State), scanGood s.m false b .good = true → (∀ x ∈ s.m.scan.kept, x.1 ≠ n) →
    Done (.scanResend n b .good) s (scanNak s.m 6 n)) ∧
  (∀ (n : Nat) (b : List Byte) (s : State), scanGood s.m false b .good = true →
    Done (.scanBye n b .good) s (detach (scanAck s.m n))) ∧
  (∀ s : State, s.m.scan.attached = true → s.m.scan.keepaliveMs ≠ 0 →
    s.m.scan.lastIn + s.m.scan.keepaliveMs * 1000000 ≤ gtcNow s.m → Done .keepaliveExpiry s (detach s.m)) ∧
  (∀ (s : State) (t : Nat), s.m.scan.helloDue = some t → t ≤ gtcNow s.m → Done .failoverHelloTimeout s (detach s.m)) ∧
  (∀ (b : List Byte) (s : State), streamOpen s.m = true →
    ([1, 4, 5, 6].contains (bytesAt b 2 1) = false ∨ 16376 < bytesAt b 6 2) →
    Done (.badHeaderFrame b) s (scanNak (countRxErr s.m) 4 (expectedFseq s.m)))

/-- What every inbound scan frame but HELLO is refused for, in the order of R358: its length, its CRC, no probe attached. -/
def Obligations.ScanFramesRefused : Prop :=
  ∀ (n : Nat) (b : List Byte) (e : ScanEnd) (s : State), streamOpen s.m = true →
    ∀ i ∈ [Instr.scanCmd n b e, .scanResend n b e, .scanBye n b e],
      (16376 < b.length → Done i s (scanNak (countRxErr s.m) 4 (expectedFseq s.m))) ∧
      (b.length ≤ 16376 → e = .crcBad → Done i s (scanNak (countRxErr s.m) 1 (expectedFseq s.m))) ∧
      (b.length ≤ 16376 → e = .good → s.m.scan.attached = false → Done i s (scanNak s.m 7 (expectedFseq s.m)))

/-- The I3C commands: an address is given or taken away; events are enabled and disabled bit by bit; identity, status and the maximum
lengths are read once an address is given, and the lengths set from 69 up. -/
def Obligations.I3cRowsComplete : Prop :=
  (∀ (a : Nat) (s : State), serving s.m = true → a < 128 →
    Done (.entdaa a) s (trayOpens { s.m with side := { s.m.side with addr := some a } })) ∧
  (∀ s : State, Done .rstdaa s { s.m with side := { s.m.side with addr := none } }) ∧
  (∀ (e : Nat) (s : State), Done (.enec e) s { s.m with side := { s.m.side with events := (s.m.side.events ||| e) % 256 } }) ∧
  (∀ (e : Nat) (s : State), ∃ m, Done (.disec e) s m ∧ m = { s.m with side := m.side } ∧
    (∀ k, nbit m.side.events k = (nbit s.m.side.events k && !nbit e k)) ∧ m.side.addr = s.m.side.addr) ∧
  (∀ s : State, s.m.side.addr.isSome = true → s.m.peer.isolated = false →
    Done .getpid s (emit s.m (.i3c (provisionedId s.m))) ∧ Done .getbcr s (emit s.m (.i3c [0x0E])) ∧
    Done .getdcr s (emit s.m (.i3c [0x00])) ∧ Done .getmwl s (emit s.m (.i3c (leBytes 2 s.m.side.mwl).reverse)) ∧
    Done .getmrl s (emit s.m (.i3c (leBytes 2 s.m.side.mrl).reverse)) ∧
    Done .getstatus s (emit (draw s.m).2 (.i3c (leBytes 2 (draw s.m).1.toNat)))) ∧
  (∀ (n : Nat) (s : State), 69 ≤ n → n < 65536 →
    Done (.setmwl n) s { s.m with side := { s.m.side with mwl := n } } ∧
    Done (.setmrl n) s { s.m with side := { s.m.side with mrl := n } }) ∧
  (∀ (n : Nat) (s : State), n < 69 → Inert (.setmwl n) s ∧ Inert (.setmrl n) s)

/-- MCTP control requests that reach the endpoint are answered, and those of a reserved operation, endpoint, version or selector with the
completion code that refuses them; a vendor message carries a packet to the sideband's lane. -/
def Obligations.MctpRowsComplete : Prop :=
  ∀ (h : MctpHeader) (s : State), mctpTakes s.m h = true →
    (∀ (op eid : Nat), op < 2 → 1 ≤ eid → eid < 255 →
      Done (.setEndpointId h [BitVec.ofNat 8 op, BitVec.ofNat 8 eid]) s
        (trayOpens (mctpRespond { s.m with side := { s.m.side with eid := eid } } h 1 [0, 0, BitVec.ofNat 8 eid, 0]))) ∧
    (∀ data : List Byte, data.length ≠ 2 → Done (.setEndpointId h data) s (mctpRespond s.m h 1 [3])) ∧
    (∀ a b : Byte, 1 < nfld (bytesAt [a, b] 0 1) 0 2 ∨ b = 0 ∨ b = 255 → Done (.setEndpointId h [a, b]) s (mctpRespond s.m h 1 [2])) ∧
    (∀ ty, ty ≠ 0 → ty ≠ 255 → Done (.getMctpVersionSupport h ty) s (mctpRespond s.m h 4 [0x80])) ∧
    (∀ n, n ≠ 0 → Done (.getVendorDefinedMessageSupport h n) s (mctpRespond s.m h 6 [2])) ∧
    Done (.getEndpointId h) s (mctpRespond s.m h 2 [0, BitVec.ofNat 8 s.m.side.eid, 0, 0]) ∧
    (∀ ty, ty = 0 ∨ ty = 255 → Done (.getMctpVersionSupport h ty) s (mctpRespond s.m h 4 [0, 1, 0xF1, 0xF3, 0xF0, 0])) ∧
    Done (.getMessageTypeSupport h) s (mctpRespond s.m h 5 [0, 2, 0x00, 0x7F]) ∧
    Done (.getVendorDefinedMessageSupport h 0) s (mctpRespond s.m h 6 [0, 0xFF, 1, 0x00, 0x3F, 0xE5, 0xA1, 0, 0]) ∧
    (∀ code, Done (.errorUnsupportedCmd h code) s (mctpRespond s.m h code [5])) ∧
    (∀ data, data.take 5 = [0x7F, 0x00, 0x3F, 0xE5, 0xA1] → bytesAt data 5 1 = 1 → hf s.m R.HUB_STATUS_FW_IN_SERVICE = 1 →
      Done (.mctpCommand h data) s (offerPacket
        { s.m with side := { s.m.side with lastCommand := gtcNow s.m, replyTags := s.m.side.replyTags ++ [h.tag] } } .sideband
        (data.drop 8) (if 4088 < (data.drop 8).length then St.doesNotFit else 0)))

/-! ### Starts and recovery (Chapters 12 and 13) -/

/-- Power-on and DBG_RESET reset the machine and run the cold path; a warm start asked for while it serves runs the warm path; the end of a
warm start ends rung 4; the loss of VDBG leaves a machine that does not serve. -/
def Obligations.StartRowsComplete : Prop :=
  (∀ (e : StartEnv) (s : State), Done (.powerOnReset e) s (coldStart (resetMach s.m false) e 0)) ∧
  (∀ (e : StartEnv) (s : State), Done (.dbgReset e) s (coldStart (emit (resetMach s.m true) .warmReq) e 2)) ∧
  (∀ (e : StartEnv) (s : State), hf s.m R.HUB_STATUS_SERVING = 1 → identityOnly s.m = false → s.m.bup.env.isSome = true →
    Done (.warmStart e) s (warmPath (zeroCtx (accelReset s.m)) e)) ∧
  (∀ (e : StartEnv) (s : State) (x : Esc), esc s.m 256 = some x → x.rung = 4 → x.waitStitch = false →
    let m := zeroCtx s.m
    let m := warmPath { m with engs := m.engs.map (fun y => (y.1, { y.2 with inReset := false })) } e
    Done (.warmDone e) s (match esc m 256 with
      | some y => rungDone m 256 y
      | none => m)) ∧
  (∀ s : State, Done .vdbgLoss s (setHf (resetMach s.m false) R.HUB_STATUS_SERVING 0)) ∧
  (∀ s : State, ∃ m, Done .holdupDrop s m ∧ m.pins.holdupOk = false ∧
    (hf s.m R.LCY_STATE_IN_TRANSITION = 1 → hf m R.LCY_STATE_HOLDUP_DROP = 1) ∧
    (hf s.m R.LCY_STATE_IN_TRANSITION = 0 → m = { s.m with pins := m.pins }))

/-- The recovery rows: a watchdog whose time has run out expires once and starts its rung; a drain ends at its time and moves the CTX, and one that ends past
its bound counts DRAIN_LATE at the Stations that were late; a
rung ends, or passes its bound; a token of an old CTX is dropped where it arrives; PWR_CYCLE_REQ is asserted when it is due. -/
def Obligations.RecoveryRowsComplete : Prop :=
  (∀ (part : Nat) (s : State) (x : Esc), esc s.m part = some x → x.rung = 1 → x.waitStitch = false → x.drained = false →
    x.ts ≤ gtcNow s.m → gtcNow s.m < x.ts + hf s.m R.RCV_BOUNDS_DRAIN_US * 1000 →
    Done (.drainEnd part) s (updEsc (setCtx s.m part ((ctxOf s.m part + 1) % 2 ^ 16)) part (fun y => { y with drained := true }))) ∧
  (∀ (part : Nat) (s : State) (x : Esc), esc s.m part = some x → x.rung = 1 → x.waitStitch = false → x.drained = false →
    x.ts + hf s.m R.RCV_BOUNDS_DRAIN_US * 1000 ≤ gtcNow s.m →
    let m := ((answeringDies s.m).filter (fun d => (partsOnDie s.m d).getLsbD part)).foldl (fun m d =>
      if fld (draw m).1 0 1 = 1 then incSf (draw m).2 d R.STN_RCV_DROP_DRAIN_LATE else (draw m).2) s.m
    Done (.drainEnd part) s (updEsc (setCtx m part ((ctxOf m part + 1) % 2 ^ 16)) part (fun y => { y with drained := true }))) ∧
  (∀ (part : Nat) (s : State) (x : Esc), esc s.m part = some x → x.waitStitch = false →
    (x.rung = 1 ∧ x.drained = true ∧ rung1Idle s.m part = true) ∨ x.rung = 2 ∨ x.rung = 3 →
    Done (.rungEnd part) s (rungDone s.m part x)) ∧
  (∀ (part : Nat) (s : State) (x : Esc), esc s.m part = some x → x.waitStitch = false → 1 ≤ x.rung → x.rung ≤ 4 →
    x.start + rungBound s.m x.rung ≤ gtcNow s.m → Done (.rungBound part) s (rungExpired s.m part x)) ∧
  (∀ (part : Nat) (s : State) (x : Esc), esc s.m part = some x → gtcNow s.m < x.start + rungBound s.m x.rung → Inert (.rungBound part) s) ∧
  (∀ (die entry : Nat) (s : State), die < 64 → entry < 512 →
    (wdt s.m die entry).period = 0 ∨ (wdt s.m die entry).expired = true ∨ (wdt s.m die entry).since = none ∨
      wdtLeft s.m die (wdt s.m die entry) ≠ 0 → Inert (.watchdogExpired die entry) s) ∧
  (∀ (die entry : Nat) (s : State), die < 64 → entry < 512 → (wdt s.m die entry).period ≠ 0 → (wdt s.m die entry).expired = false →
    (wdt s.m die entry).since.isSome = true → wdtLeft s.m die (wdt s.m die entry) = 0 →
    let x := wdt s.m die entry
    let p := entry / 4
    let part := partNow s.m die p
    let m := setWdt s.m die entry { x with remain := 0, since := none, expired := true }
    let m := setSf m die R.STN_WDT_EXP_EXP (setBit (sf m die R.STN_WDT_EXP_EXP (entry / 64)) (entry % 64)) (entry / 64)
    let m := stnEvent m die { code := EvCode.watchdogExpired, source := engPath m die p (entry % 4), stamp := repNow m die,
                              detail := w1 x.period, parts := partBit part, onlyParts := true }
    let m := offerAll (incHf m R.RCV_CNT_EXPIRIES) 2 die (bindCore p) (repNow m die) (engPath m die p (entry % 4))
    Done (.watchdogExpired die entry) s (startEsc m part (startRung m) 1 (ceilingRung m) 0 none [engKey die p (entry % 4)] [])) ∧
  (∀ (die recv part epoch : Nat) (s : State), die < 100 → recv < 160 → part < 256 → stnUp s.m die = true →
    boundTo s.m die recv part = true →
    let cur := nfld (sf s.m die R.STN_CTX_EPOCH (part / 4)) (16 * (part % 4)) 16
    let d := (cur + 2 ^ 16 - epoch % 2 ^ 16) % 2 ^ 16
    (1 ≤ d → d < 2 ^ 15 → Done (.epochArrivalDrop die recv part epoch) s
      (updEsc (incSf s.m die R.STN_RCV_DROP_DROPPED) part (fun x => { x with dropped := x.dropped + 1 }))) ∧
    (d = 0 ∨ 2 ^ 15 ≤ d → Inert (.epochArrivalDrop die recv part epoch) s)) ∧
  (∀ (s : State) (t : Nat), s.m.pins.pwrDue = some t → t ≤ gtcNow s.m →
    Done .pwrCycleAssert s (setHf { s.m with pins := { s.m.pins with pwrReq := true, pwrDue := none } } R.RCV_STATUS_PWR_REQ 1))

/-- A token that is damaged is counted; one seen before, or of another type than its row, changes nothing; an abort is forwarded and arms the
job's abort, at once when it comes late; a command for the job is forwarded and run, and one that is no packet only forwarded; a result is
told to the Session that waits for it, or sent back the way its command came, or dropped where neither is known. -/
def Obligations.TokenRowsComplete : Prop :=
  (∀ (die port : Nat) (b : List Byte) (s : State), die < 100 → port < portsOf die → farEnd die port = none → hubStopped s.m = false →
    tokenOf b = none → ∀ i ∈ [Instr.abortToken die port b, .jobCmdToken die port b, .resultToken die port b],
      Done i s (incHf s.m R.RCV_JOB_BAD)) ∧
  (∀ (die port : Nat) (b : List Byte) (s : State) (t : Token), die < 100 → port < portsOf die → farEnd die port = none →
    tokenOf b = some t → s.m.rcv.seen.contains (t.origin, t.seq) = true →
    ∀ i ∈ [Instr.abortToken die port b, .jobCmdToken die port b, .resultToken die port b], Inert i s) ∧
  (∀ (die port : Nat) (b : List Byte) (s : State) (t : Token), tokenArrives s.m die port b 1 t →
    let m := forwardToken (tokenTaken s.m t) die port b
    Done (.abortToken die port b) s
      (if (jobParts m t.job).isNone then m
       else if gtcNow m < t.t then armAbort m 0 t.job t.t t.origin false
       else armAbort (incHf m R.RCV_JOB_LATE) 0 t.job t.t t.origin true)) ∧
  (∀ (die port op : Nat) (p : Pkt) (b : List Byte) (s : State) (t : Token), tokenArrives s.m die port b 2 t →
    jobPacket t.payload = some (op, p) →
    let m := forwardToken (tokenTaken s.m t) die port b
    let m := { m with rcv := { m.rcv with arrived := m.rcv.arrived ++ [(t.job, t.t, p.cookie, die, port)] } }
    let sc := scopeAt m p.body 0
    Done (.jobCmdToken die port b) s
      (if (jobParts m t.job).isNone || sc.kind != 6 || sc.unit != t.job then m
       else doJobCmd (if t.t ≤ gtcNow m then incHf m R.RCV_JOB_LATE else m)
         { origin := .fabric t.job t.t die port, sess := 0, port := .firmware } op t.t p)) ∧
  (∀ (die port sid : Nat) (b : List Byte) (s : State) (t : Token) (j : W32) (tt : Nat) (ck : W64),
    tokenArrives s.m die port b 3 t →
    let m := tokenTaken s.m t
    let rc := bytesWords t.payload
    m.rcv.sent.find? (fun x => x.1 == t.job && x.2.1 == t.t && x.2.2.2 == BitVec.ofNat 64 (w64At rc 2)) = some (j, tt, sid, ck) →
    Done (.resultToken die port b) s (raiseEv (mergeFaultList m t.job t.t sid ck rc)
      { code := EvCode.jobResult, source := wAt rc 8, stamp := gtcNow m, detail := rc, named := [sid], wide := false, cookie := ck,
        voidFlag := t.void })) ∧
  (∀ (die port : Nat) (b : List Byte) (s : State) (t : Token), tokenArrives s.m die port b 2 t → jobPacket t.payload = none →
    Done (.jobCmdToken die port b) s (forwardToken (tokenTaken s.m t) die port b)) ∧
  (∀ (die port : Nat) (b : List Byte) (s : State) (t : Token), tokenArrives s.m die port b 3 t →
    let m := tokenTaken s.m t
    let ck := BitVec.ofNat 64 (w64At (bytesWords t.payload) 2)
    m.rcv.sent.find? (fun x => x.1 == t.job && x.2.1 == t.t && x.2.2.2 == ck) = none →
    (∀ j tt k d q, m.rcv.arrived.find? (fun a => a.1 == t.job && a.2.1 == t.t && a.2.2.1 == ck) = some (j, tt, k, d, q) →
      Done (.resultToken die port b) s (emit m (.token d q (tokenHop b)))) ∧
    (m.rcv.arrived.find? (fun a => a.1 == t.job && a.2.1 == t.t && a.2.2.1 == ck) = none → Done (.resultToken die port b) s m))

/-- The two hub instances: the peer's heartbeat, its loss, the loss of the serving instance's, isolation and the watchdogs that mute. -/
def Obligations.HubRowsComplete : Prop :=
  (∀ (g : W64) (s : State), Done (.peerHeartbeat g) s (peerBeat s.m g)) ∧
  (∀ s : State, standbyReady s.m = true →
    let d := otherDie s.m
    let m := setHf { s.m with peer := { s.m.peer with present := false, gone := true } } R.HUB_STATUS_PEER_OK 0
    let m := latchFault m 2 (instPath m d) d
    Done .peerLost s (promiseSync (hubEvent m EvCode.peerLost 2 (instPath m d)))) ∧
  (∀ s : State, Done .internalWatchdog s { s.m with peer := { s.m.peer with mute := true } } ∧
    Done .lockstepMismatch s { s.m with peer := { s.m.peer with mute := true } }) ∧
  (∀ s : State, standbyReady s.m = true → Done .isolate s (quiesce s.m) ∧ Done .hubHeartbeatLoss s (takeOver s.m)) ∧
  (∀ s : State, standbyReady s.m = false → Inert .peerLost s ∧ Inert .isolate s ∧ Inert .hubHeartbeatLoss s)

/-! ### Faults and wear (Chapters 14 and 16) -/

/-- A Station that fails goes silent; a Tap that fails makes its core dark; corrected errors count; an uncorrected one has its outcome;
the faults of Table 14.4 are reported. -/
def Obligations.FaultRowsComplete : Prop :=
  (∀ (die : Nat) (s : State), die < 100 → stnUp s.m die = true → Done (.stationFault die) s (silentStation s.m die)) ∧
  (∀ (die tap : Nat) (s : State), tapOk die tap = true → stnUp s.m die = true → Done (.tapFault die tap) s (faultTap s.m die tap)) ∧
  (∀ (die dead : Nat) (s : State), die < 64 → stnUp s.m die = true →
    Done (.tapAlivePoll die dead) s
      (((bitsOf dead 128).filter (fun p => (core_ s.m die p).powered)).foldl (fun m p => faultTap m die p) s.m)) ∧
  (∀ (x : Ecc) (s : State), hubArray x.array = true →
    Done (.secdedError x) s (if x.uncorrectable then fenceAll (eccUncorrected s.m x) else eccCorrected s.m none 1)) ∧
  (∀ (x : Ecc) (s : State), x.array = .tapRegister ∧ tapOk x.die x.place = true ∨ x.array = .cutBuffer ∧ portOk x.die x.place = true ∨
      hubArray x.array = false ∧ x.array ≠ .tapRegister ∧ x.array ≠ .cutBuffer ∧ x.die < 100 → stnUp s.m x.die = true →
    Done (.secdedError x) s (if x.uncorrectable then fenceAll (eccUncorrected s.m x) else eccCorrected s.m (some x.die) 1)) ∧
  (∀ (n : Nat) (s : State), Done (.scrub none n) s (eccCorrected (incHf s.m R.HTH_FAULT_CNT_SCRUB_FIXES n) none n)) ∧
  (∀ (d n : Nat) (s : State), d < 100 → stnUp s.m d = true →
    Done (.scrub (some d) n) s (eccCorrected (incSf s.m d R.STN_ECC_SCRUB_FIXES n) (some d) n)) ∧
  (∀ (unit : W32) (s : State), upDie unit < 100 →
    (stnUp s.m (upDie unit) = true → Done (.healthFault 11 unit) s (replicaFault s.m (upDie unit)) ∧
      Done (.healthFault 13 unit) s (fenceAll (tallyFault s.m (upDie unit)))) ∧
    Done (.healthFault 12 unit) s (reportFault s.m EvCode.healthFault 12 (hubPath s.m) (hubDie s.m)) ∧
    Done (.healthFault 14 unit) s (reportFault s.m EvCode.healthFault 14 unit (upDie unit)))

/-- The wear rows: a sample is stored and compared with its thresholds; a fit is stored, compared and, where RETIRE is set, retires;
levels granted until a time that has passed lapse once TOD is valid. -/
def Obligations.WearRowsComplete : Prop :=
  (∀ (die : Nat) (x : WearReading) (s : State), die < 100 → stnUp s.m die = true →
    Done (.wearSample die x) s (promiseSync (wearThresholds (takeSample s.m die x) die))) ∧
  (∀ (die : Nat) (x : WearDates) (s : State), die < 100 →
    Done (.wearFit die x) s (retireWorn (wearThresholds (takeFit s.m die x) die) die)) ∧
  (∀ s : State, hf s.m R.GTC_STATUS_TOD_VALID = 1 →
    Done .credentialExpiry s (lapseAll s.m (fun g => decide (g.notAfter < todSeconds s.m)))) ∧
  (∀ s : State, hf s.m R.GTC_STATUS_TOD_VALID ≠ 1 → Inert .credentialExpiry s)

/-! ### Rules across the block -/

/-- A Waypoint field of 0 is replaced with the smallest multiple of 16 that is at least the GTC plus the lead (R91). -/
def Obligations.EarliestWaypoint : Prop :=
  ∀ (m : Mach) (lead : Nat), let t := resolveT m lead 0
    t % 16 = 0 ∧ gtcNow m + lead ≤ t ∧ (∀ k, k % 16 = 0 → gtcNow m + lead ≤ k → t ≤ k)

/-- What a 64-bit write of a hub register changes, bit by bit: RW bits take the value, W1C bits written one are cleared, W1S bits written one
are set, every other bit stays; a one in a reserved bit sets RSVD_WRITE, and every other register and all else of the machine stays but the
half captured for the register. An offset that no chapter defines reads as zero, and a write of any one to it sets RSVD_WRITE and
does nothing else (R36). RSVD_WRITE and BAD_ACCESS, written with a one in the write that breaks their rule, end set (R37). -/
def Obligations.HubRegisterWrites : Prop :=
  (∀ (off : Nat) (v : W64) (s : State) (r : RegRow), s.m.peer.isolated = false → off < 65536 → off % 8 = 0 → hubRowAt off = some r →
    off ≠ 0x18 → off ≠ 0x0418 → off ≠ 0x0458 → off ≠ 0x0D18 → ∃ m, Done (.registerWrite off 8 v) s m ∧
    (∀ k < 64, (hget m off).getLsbD k =
      if nbit r.rw k then v.getLsbD k
      else if nbit r.w1c k then (hget s.m off).getLsbD k && !v.getLsbD k
      else if nbit r.w1s k then (hget s.m off).getLsbD k || v.getLsbD k
      else (hget s.m off).getLsbD k) ∧
    ((∃ k < 64, v.getLsbD k = true ∧ nbit (r.rw ||| r.w1c ||| r.w1s ||| r.ro ||| r.rc ||| r.wo) k = false) →
      hf m R.HUB_STATUS_RSVD_WRITE = 1) ∧
    ((∀ k < 64, v.getLsbD k = true → nbit (r.rw ||| r.w1c ||| r.w1s ||| r.ro ||| r.rc ||| r.wo) k = true) →
      hget m 0x18 = hget s.m 0x18) ∧
    (∀ o, o ≠ off → o ≠ 0x18 → hget m o = hget s.m o) ∧
    m = { s.m with hregs := m.hregs, host := { s.m.host with captured := Store.put none s.m.host.captured off none } }) ∧
  (∀ (off size : Nat) (v : W64) (s : State), s.m.peer.isolated = false → accessWidthOk off size = true → hubRowAt (off - off % 8) = none →
    let x := (if off % 8 = 0 then v.toNat else v.toNat * 2 ^ 32) &&& accessMask off size
    let m := { s.m with host := { s.m.host with captured := Store.put none s.m.host.captured (off - off % 8) none } }
    Done (.registerWrite off size v) s (if x = 0 then m else setHf m R.HUB_STATUS_RSVD_WRITE 1) ∧
    ∃ m', Done (.rcRead off size) s m' ∧ m'.out = s.m.out ++ [.regData 0]) ∧
  (∀ off, 0x1200 ≤ off → hubRowAt off = none) ∧
  (∀ (off size : Nat) (v : W64) (s : State), s.m.peer.isolated = false → accessWidthOk off size = true → off - off % 8 = 0x18 →
    let x := (if off % 8 = 0 then v.toNat else v.toNat * 2 ^ 32) &&& accessMask off size
    (∃ k < 64, 12 ≤ k ∧ nbit x k = true) →
    ∃ m, Done (.registerWrite off size v) s m ∧ hf m R.HUB_STATUS_RSVD_WRITE = 1) ∧
  (∀ (off size : Nat) (v : W64) (s : State), s.m.peer.isolated = false → accessWidthOk off size = false →
    ∃ m, Done (.registerWrite off size v) s m ∧ hf m R.HUB_STATUS_BAD_ACCESS = 1)

/-- Every host command waits for its turn: it changes nothing while its instance has failed, while its packet is not the first of its lane,
while a command of the lane executes, and while 16 records are held. While its Session is not open every command but OPEN_SESSION,
NOP and QUERY fails with NOT_AUTHORISED, and the record carries SEQ 0 and leaves the sequence counter (R329); an opcode that the
port does not carry fails with MALFORMED. -/
def Obligations.LanesTakeTurns : Prop :=
  (∀ (op : Nat) (p : Pkt) (i : Instr) (s : State), hostInstr op p = some i → hubStopped s.m = true → Inert i s) ∧
  (∀ (op : Nat) (p : Pkt) (i : Instr) (s : State) (l x : Session), hostInstr op p = some i → p.port ≠ .firmware →
    sessOf s.m (laneSid (pktSid p)) = some l → sessOf s.m (pktSid p) = some x →
    (l.ready.head? ≠ some (op, p) ∨ laneExecuting s.m (laneSid (pktSid p)) = true ∨ 16 ≤ x.held.length) → Inert i s) ∧
  (∀ (op : Nat) (p : Pkt) (i : Instr) (s : State) (l x : Session), hostInstr op p = some i → laneReady op p s.m l x →
    x.open_ = false → op ≠ 0x0101 → op ≠ 0x0104 → op ≠ 0x0105 →
    HostDone i p s fun m u => answer m u op p.cookie St.notAuthorised []) ∧
  (∀ (m : Mach) (sid : Nat) (x : Session) (rc : List W32), sessOf m sid = some x → x.open_ = false → x.ending ≠ 6 → x.ending ≠ 7 →
    x.held = [] → x.lost = 0 →
    let y := if x.port = .host ∧ x.slot = none then descSession m x.handle x else x
    sessRoom m y rc.length = true → postRecord m sid rc false = deliver m y (rc.set 6 0) 0 false) ∧
  (∀ (op : Nat) (p : Pkt) (i : Instr) (s : State) (l x : Session), hostInstr op p = some i → laneReady op p s.m l x →
    (x.open_ = true ∨ opensFirst op = true) → portCarries p op = false →
    HostDone i p s fun m u => answer m u op p.cookie St.malformed [])

/-- Records and the event ring: a record for an open Session with room takes the next SEQ; with no room it is held, in order; a completion is
never dropped; an event is dropped and counted only while 16 are held (R340). The ring of a Session that is not resident is the one that its
descriptor gives, and holding its record makes it resident (R324). -/
def Obligations.RecordsHeldNotLost : Prop :=
  ∀ (m : Mach) (sid : Nat) (x : Session) (rc : List W32) (event : Bool), sessOf m sid = some x → x.sid = sid → x.ending ≠ 6 → x.ending ≠ 7 →
    let y := if x.port = .host ∧ x.slot = none then descSession m x.handle x else x
    (x.open_ = true → x.held = [] → x.lost = 0 → sessRoom m y rc.length = true →
      postRecord m sid rc event = deliver (updSess m sid (fun y => { y with nextSeq := (y.nextSeq + 1) % 2 ^ 32 })) y
        (rc.set 6 (BitVec.ofNat 32 x.nextSeq)) x.nextSeq event) ∧
    ((x.held ≠ [] ∨ x.lost ≠ 0 ∨ sessRoom m y rc.length = false) → (event = false ∨ x.held.length < 16) →
      (x.port ≠ .host ∨ x.slot.isSome = true →
        postRecord m sid rc event = updSess m sid (fun z => if z.ending = 7 then { z with held := [] } else { z with held := z.held ++ [rc] })) ∧
      (x.port = .host → x.slot = none → x.ending ≠ 0 ∨ pageInOk m x.handle = true →
        let w := (takeSlot m sid).getD m
        postRecord m sid rc event = updSess (updSess w sid (fun z => { descSession w x.handle z with ending := x.ending })) sid
          (fun z => if z.ending = 7 then { z with held := [] } else { z with held := z.held ++ [rc] }))) ∧
    (16 ≤ x.held.length → event = true →
      postRecord m sid rc event = incIfErr (updSess m sid (fun z => { z with lost := z.lost + 1 })) R.IF_ERR_EVENTS_LOST)

/-- Writing bytes to a memory and reading them back gives the bytes; every other byte reads as before; the canonical form is kept. A command's
buffer write changes host memory at its buffer's address and nothing else; a record changes host memory in the slots of its event ring and in the
producer word of its descriptor, and no other memory. -/
def Obligations.MemoryReadsBackAndKeepsRest : Prop :=
  (∀ (mem : Store Byte) (a : Nat) (bs : List Byte), memRead (memWrite mem a bs) a bs.length = bs ∧
    (∀ x, x < a ∨ a + bs.length ≤ x → memByte (memWrite mem a bs) x = memByte mem x) ∧
    (Store.wf (fun _ => memDefault) mem = true → Store.wf (fun _ => memDefault) (memWrite mem a bs) = true)) ∧
  (∀ (m : Mach) (u : Issuer) (h : W32) (off : Nat) (bs : List Byte) (b : Buffer), scratchRun m u.origin = none → onPort u = false →
    bufferOf m h = some b → bufWrite m u h off bs = { m with hostMem := memWrite m.hostMem (b.addr + off) bs }) ∧
  (∀ (m : Mach) (x : Session) (rc : List W32), 0 < x.eqSlots →
    (∀ a, a < x.eqBase ∨ x.eqBase + 64 * x.eqSlots ≤ a → a < sessDesc m x.handle + 72 ∨ sessDesc m x.handle + 76 ≤ a →
      memByte (ringRecord m x rc).hostMem a = memByte m.hostMem a) ∧
    (ringRecord m x rc).hbm = m.hbm ∧ (ringRecord m x rc).coreMem = m.coreMem ∧ (ringRecord m x rc).hregs = m.hregs ∧
    (ringRecord m x rc).sregs = m.sregs)

/-- What a loss of VDBG leaves: OTP, the Die Notebooks, both flashes, the memories of the surroundings and HUB_SERIAL stay, but for what a
transition of the life cycle that it cuts short leaves open; every other hub register takes its reset value, the hub does not serve, the
GTC is 0, and no Session, command, run, request or transition is left. -/
def Obligations.ResetKeepsAndClears : Prop :=
  ∀ s : State, ∃ m, Done .vdbgLoss s m ∧ m.hostMem = s.m.hostMem ∧ m.out = s.m.out ∧ m.lcy.move = none ∧
    (s.m.lcy.move = none → m.lcy = s.m.lcy ∧ m.bup.notes = s.m.bup.notes ∧ m.bup.flash0 = s.m.bup.flash0 ∧ m.bup.flash2 = s.m.bup.flash2 ∧
      m.hbm = s.m.hbm ∧ hget m 0x28 = hget s.m 0x28) ∧
    (∀ off, off ≠ 0x18 → off ≠ 0x28 → hget m off = hubReset off) ∧ hf m R.HUB_STATUS_SERVING = 0 ∧
    hf m R.HUB_STATUS_DBG_RESET_SEEN = 0 ∧ gtcNow m = 0 ∧ m.cmds = [] ∧ m.host.sessions = [] ∧ m.rtn.runs = [] ∧ m.spine.reqs = [] ∧
    m.tly = [] ∧ m.engs = [] ∧ m.cores = []

/-- The state of the life cycle that fuses give: the highest s whose done fuse is BLOWN, or RAW when none is; torn when an intent fuse above it
is BLOWN while its done fuse is UNBLOWN (R456). Fuses read UNBLOWN 0, BLOWN 1 or MARGINAL 2. -/
def Obligations.LifeCycleStateOfFuses : Prop :=
  ∀ g : Nat → Nat,
    (counterOf g = 0 ↔ ∀ t, 1 ≤ t → t ≤ 6 → g (doneFuse t) ≠ 1) ∧
    (∀ t, 1 ≤ t → (counterOf g = t ↔ t ≤ 6 ∧ g (doneFuse t) = 1 ∧ ∀ u, t < u → u ≤ 6 → g (doneFuse u) ≠ 1)) ∧
    ((counterTorn g).isSome = true ↔ ∃ t, counterOf g < t ∧ t ≤ 6 ∧ g (intentFuse t) = 1 ∧ g (doneFuse t) = 0)

/-! ### Headline results -/

/-- TOKENS ROUND TRIP. A token has its 32-byte header, its payload and the CRC-32C of both, and reads back as what it was made from, with every
field at every value that its width admits (R437); a token that a hub passes on is the same with HOPS one more, saturating at 255. -/
def Obligations.TokensRoundTrip : Prop :=
  (∀ (m : Mach) (ty origin hops seq t : Nat) (job : W32) (payload : List Byte), ty < 256 → origin < 256 → hops < 256 → seq < 2 ^ 32 →
    t < 2 ^ 64 → payload.length ≤ 4096 →
    let b := tokenBytes m ty origin hops job seq t payload
    b.length = 32 + payload.length + 4 ∧ bytesAt b (32 + payload.length) 4 = crc32c (b.take (32 + payload.length)) ∧
    tokenOf b = some { ttype := ty, void := timeVoid m, origin := origin, hops := hops, job := job, seq := seq, t := t, payload := payload }) ∧
  (∀ (b : List Byte) (t : Token), tokenOf b = some t → tokenOf (tokenHop b) = some { t with hops := Nat.min 255 (t.hops + 1) })

/-- THE CODEC ROUND TRIPS. Whatever the block, its valid length, its element width, USE, ratio class, XOR mode and SEQ: an encoding that the
encoder gives fills its slot, is refused only where 40 + PLEN exceeds it, never fails its own check, and decodes to the valid bytes. -/
def Obligations.CodecRoundTrip : Prop :=
  ∀ (inp : List Byte) (vlen wcode use ratio xmode seq : Nat), 1 ≤ vlen → vlen ≤ 4096 → vlen ≤ inp.length → wcode < 3 → use < 3 →
    ratio = 2 ∨ ratio = 4 ∨ ratio = 8 → xmode < 3 → seq < 2 ^ 32 →
    encodeBlock inp vlen wcode use ratio xmode seq ≠ .selfcheckFail ∧
    ∀ (slot : List Byte) (plen : Nat), encodeBlock inp vlen wcode use ratio xmode seq = .slot slot plen →
      slot.length = 4096 / ratio ∧ 40 + plen ≤ 4096 / ratio ∧
      decodeSlot slot ratio none = .bytes (inp.take vlen) ∧ decodeSlot slot ratio (some seq) = .bytes (inp.take vlen)

/-- Under XOR mode OFF the flag is 0 and under ON it is 1; under AUTO it is the one with the smaller PLEN, and 0 when the two are equal (R198);
a block is refused with INCOMPRESSIBLE exactly where 40 + PLEN exceeds the slot. -/
def Obligations.XorFlagChoice : Prop :=
  ∀ (inp : List Byte) (vlen wcode use ratio xmode seq : Nat), 1 ≤ vlen → vlen ≤ 4096 → wcode < 3 → use < 3 →
    ratio = 2 ∨ ratio = 4 ∨ ratio = 8 → xmode < 3 →
    let b := padTo 4096 (inp.take vlen)
    let n0 := (payloadOf (blockModes (2 ^ wcode) false b)).length
    let n1 := (payloadOf (blockModes (2 ^ wcode) true b)).length
    let flag := xmode = 2 ∨ xmode = 0 ∧ n1 < n0
    (encodeBlock inp vlen wcode use ratio xmode seq = .incompressible ↔ 4096 / ratio < 40 + (if flag then n1 else n0)) ∧
    ∀ (slot : List Byte) (plen : Nat), encodeBlock inp vlen wcode use ratio xmode seq = .slot slot plen →
      plen = (if flag then n1 else n0) ∧ (nbit (bytesAt slot 1 1) 1 = true ↔ flag)

/-- A TALLY SPLITS EXACTLY. However a range is cut between units, the parts' accumulations combine to that of the whole: counts, bins and sums add,
the extremes compare, and the digest lanes are the CRC of the whole stream (R226). -/
def Obligations.TallySplitsExactly : Prop :=
  (∀ (f : Nat) (uns : Bool) (i : Nat) (a b sa sb : List Byte), 1 ≤ f → f ≤ 14 → a.length % unitBytes f = 0 → b.length % unitBytes f = 0 →
    (isMx f = true → sa.length = a.length / unitBytes f) →
    bytesAcc f uns i (a ++ b) (sa ++ sb) =
      mergeAcc (bytesAcc f uns i a sa)
        (bytesAcc f uns (i + a.length / unitBytes f * unitElems f) b sb)) ∧
  (∀ (f : Nat) (uns : Bool) (i : Nat) (a s : List Byte), 1 ≤ f → f ≤ 14 → a.length % unitBytes f = 0 →
    (isMx f = true → s.length = a.length / unitBytes f) →
    let x := bytesAcc f uns i a s
    x.elemLen = a.length ∧ x.elemA = crc64Run polyA 0 a ∧ x.elemB = crc64Run polyB 0 a ∧
    (isMx f = true → x.scaleLen = s.length ∧ x.scaleA = crc64Run polyA 0 s ∧ x.scaleB = crc64Run polyB 0 s) ∧
    elementsOf x = a.length / unitBytes f * unitElems f)
end

