-- ==== Sys2Proof/Laws/HostRow.lean ====
section
/-! SUPPORT. What a host row does once its packet is the next of its lane, and what it does otherwise. -/

namespace Sys2Proof.Machine

/-- A host row runs its command on the machine from which the packet was taken, and then the lane goes on. -/
theorem hostRow_front {op : Nat} {p : Pkt} {s : State} {f : Mach → Issuer → Mach} (h : hostFront op p s.m = true) :
    hostRow op p s f = .next { s with m := hostAfter (f (hostTaken s.m p) (hostIssuer p)) p } := by
  unfold hostFront at h
  unfold hostRow hostAfter hostTaken hostIssuer pktSid
  simp only [Bool.and_eq_true, Bool.or_eq_true, Bool.not_eq_true', beq_iff_eq] at h
  obtain ⟨hs, h⟩ := h
  by_cases hp : p.port = .firmware
  · simp [hs, hp]
  · rcases h with h | h
    · exact absurd h hp
    · simp only [pktSid] at h
      split at h
      · rename_i l x hl hx
        simp only [Bool.and_eq_true, Bool.or_eq_true, beq_iff_eq, decide_eq_true_eq, Bool.not_eq_true'] at h
        obtain ⟨⟨⟨⟨⟨h1, h2⟩, h3⟩, h4⟩, h5⟩, h6⟩ := h
        have h5' : (!x.open_ && !(op == 0x0101 || op == 0x0104 || op == 0x0105)) = false := by
          rcases h5 with h5 | h5
          · simp [h5]
          · unfold opensFirst at h5
            simp [h5]
        have hc : l.ready.head? = some (op, p) ∧ (!laneExecuting s.m (laneSid (sidOf p.port p.session))) = true ∧
            (x.ending = 0 ∨ x.ending = 4) ∧ x.held.length < 16 := ⟨h1, by simp [h2], h3, h4⟩
        rw [if_neg (by simp [hs]), if_neg hp]
        simp only [hl, hx]
        rw [if_pos hc, if_neg (by rw [h5']; decide), if_neg (by simp [h6]), if_neg hp, if_neg hp, if_neg hp]
      · exact absurd h (by simp)

/-- A host row of an instance that has failed changes nothing. -/
theorem hostRow_stopped {op : Nat} {p : Pkt} {s : State} {f : Mach → Issuer → Mach} (h : hubStopped s.m = true) :
    hostRow op p s f = .next s := by
  simp [hostRow, h]

/-- A host row answers a next state, and only the machine changes. -/
theorem hostRow_next (op : Nat) (p : Pkt) (s : State) (f : Mach → Issuer → Mach) :
    ∃ m, hostRow op p s f = .next { s with m := m } := by
  unfold hostRow
  dsimp only
  repeat' split
  all_goals exact ⟨_, rfl⟩

end Sys2Proof.Machine
end

