-- ==== Sys2Proof/Laws/State.lean ====
section
/-! SUPPORT. What each named update leaves unchanged, field by field, and what it writes: no proof unfolds a record update. -/

namespace Sys2Proof.Machine

variable (m : Mach)

/-! ### hput -/

@[simp] theorem hput_sregs (off : Nat) (v : W64) : (hput m off v).sregs = m.sregs := rfl
@[simp] theorem hput_hostMem (off : Nat) (v : W64) : (hput m off v).hostMem = m.hostMem := rfl
@[simp] theorem hput_hbm (off : Nat) (v : W64) : (hput m off v).hbm = m.hbm := rfl
@[simp] theorem hput_coreMem (off : Nat) (v : W64) : (hput m off v).coreMem = m.coreMem := rfl
@[simp] theorem hput_time (off : Nat) (v : W64) : (hput m off v).time = m.time := rfl
@[simp] theorem hput_stns (off : Nat) (v : W64) : (hput m off v).stns = m.stns := rfl
@[simp] theorem hput_engs (off : Nat) (v : W64) : (hput m off v).engs = m.engs := rfl
@[simp] theorem hput_cores (off : Nat) (v : W64) : (hput m off v).cores = m.cores := rfl
@[simp] theorem hput_spine (off : Nat) (v : W64) : (hput m off v).spine = m.spine := rfl
@[simp] theorem hput_host (off : Nat) (v : W64) : (hput m off v).host = m.host := rfl
@[simp] theorem hput_cmds (off : Nat) (v : W64) : (hput m off v).cmds = m.cmds := rfl
@[simp] theorem hput_nextId (off : Nat) (v : W64) : (hput m off v).nextId = m.nextId := rfl
@[simp] theorem hput_run (off : Nat) (v : W64) : (hput m off v).run = m.run := rfl
@[simp] theorem hput_out (off : Nat) (v : W64) : (hput m off v).out = m.out := rfl
@[simp] theorem hput_free (off : Nat) (v : W64) : (hput m off v).free = m.free := rfl
@[simp] theorem hput_scan (off : Nat) (v : W64) : (hput m off v).scan = m.scan := rfl
@[simp] theorem hput_side (off : Nat) (v : W64) : (hput m off v).side = m.side := rfl
@[simp] theorem hput_pins (off : Nat) (v : W64) : (hput m off v).pins = m.pins := rfl
@[simp] theorem hput_bup (off : Nat) (v : W64) : (hput m off v).bup = m.bup := rfl
@[simp] theorem hput_comp (off : Nat) (v : W64) : (hput m off v).comp = m.comp := rfl
@[simp] theorem hput_hth (off : Nat) (v : W64) : (hput m off v).hth = m.hth := rfl
@[simp] theorem hput_rtn (off : Nat) (v : W64) : (hput m off v).rtn = m.rtn := rfl
@[simp] theorem hput_trc (off : Nat) (v : W64) : (hput m off v).trc = m.trc := rfl
@[simp] theorem hput_sth (off : Nat) (v : W64) : (hput m off v).sth = m.sth := rfl
@[simp] theorem hput_rcv (off : Nat) (v : W64) : (hput m off v).rcv = m.rcv := rfl
@[simp] theorem hput_lcy (off : Nat) (v : W64) : (hput m off v).lcy = m.lcy := rfl
@[simp] theorem hput_peer (off : Nat) (v : W64) : (hput m off v).peer = m.peer := rfl
@[simp] theorem hput_tly (off : Nat) (v : W64) : (hput m off v).tly = m.tly := rfl

/-! ### setHf -/

@[simp] theorem setHf_sregs (f : Fld) (v i : Nat) : (setHf m f v i).sregs = m.sregs := rfl
@[simp] theorem setHf_hostMem (f : Fld) (v i : Nat) : (setHf m f v i).hostMem = m.hostMem := rfl
@[simp] theorem setHf_hbm (f : Fld) (v i : Nat) : (setHf m f v i).hbm = m.hbm := rfl
@[simp] theorem setHf_coreMem (f : Fld) (v i : Nat) : (setHf m f v i).coreMem = m.coreMem := rfl
@[simp] theorem setHf_time (f : Fld) (v i : Nat) : (setHf m f v i).time = m.time := rfl
@[simp] theorem setHf_stns (f : Fld) (v i : Nat) : (setHf m f v i).stns = m.stns := rfl
@[simp] theorem setHf_engs (f : Fld) (v i : Nat) : (setHf m f v i).engs = m.engs := rfl
@[simp] theorem setHf_cores (f : Fld) (v i : Nat) : (setHf m f v i).cores = m.cores := rfl
@[simp] theorem setHf_spine (f : Fld) (v i : Nat) : (setHf m f v i).spine = m.spine := rfl
@[simp] theorem setHf_host (f : Fld) (v i : Nat) : (setHf m f v i).host = m.host := rfl
@[simp] theorem setHf_cmds (f : Fld) (v i : Nat) : (setHf m f v i).cmds = m.cmds := rfl
@[simp] theorem setHf_nextId (f : Fld) (v i : Nat) : (setHf m f v i).nextId = m.nextId := rfl
@[simp] theorem setHf_run (f : Fld) (v i : Nat) : (setHf m f v i).run = m.run := rfl
@[simp] theorem setHf_out (f : Fld) (v i : Nat) : (setHf m f v i).out = m.out := rfl
@[simp] theorem setHf_free (f : Fld) (v i : Nat) : (setHf m f v i).free = m.free := rfl
@[simp] theorem setHf_scan (f : Fld) (v i : Nat) : (setHf m f v i).scan = m.scan := rfl
@[simp] theorem setHf_side (f : Fld) (v i : Nat) : (setHf m f v i).side = m.side := rfl
@[simp] theorem setHf_pins (f : Fld) (v i : Nat) : (setHf m f v i).pins = m.pins := rfl
@[simp] theorem setHf_bup (f : Fld) (v i : Nat) : (setHf m f v i).bup = m.bup := rfl
@[simp] theorem setHf_comp (f : Fld) (v i : Nat) : (setHf m f v i).comp = m.comp := rfl
@[simp] theorem setHf_hth (f : Fld) (v i : Nat) : (setHf m f v i).hth = m.hth := rfl
@[simp] theorem setHf_rtn (f : Fld) (v i : Nat) : (setHf m f v i).rtn = m.rtn := rfl
@[simp] theorem setHf_trc (f : Fld) (v i : Nat) : (setHf m f v i).trc = m.trc := rfl
@[simp] theorem setHf_sth (f : Fld) (v i : Nat) : (setHf m f v i).sth = m.sth := rfl
@[simp] theorem setHf_rcv (f : Fld) (v i : Nat) : (setHf m f v i).rcv = m.rcv := rfl
@[simp] theorem setHf_lcy (f : Fld) (v i : Nat) : (setHf m f v i).lcy = m.lcy := rfl
@[simp] theorem setHf_peer (f : Fld) (v i : Nat) : (setHf m f v i).peer = m.peer := rfl
@[simp] theorem setHf_tly (f : Fld) (v i : Nat) : (setHf m f v i).tly = m.tly := rfl

/-! ### incHf -/

@[simp] theorem incHf_sregs (f : Fld) (n i : Nat) : (incHf m f n i).sregs = m.sregs := rfl
@[simp] theorem incHf_hostMem (f : Fld) (n i : Nat) : (incHf m f n i).hostMem = m.hostMem := rfl
@[simp] theorem incHf_hbm (f : Fld) (n i : Nat) : (incHf m f n i).hbm = m.hbm := rfl
@[simp] theorem incHf_coreMem (f : Fld) (n i : Nat) : (incHf m f n i).coreMem = m.coreMem := rfl
@[simp] theorem incHf_time (f : Fld) (n i : Nat) : (incHf m f n i).time = m.time := rfl
@[simp] theorem incHf_stns (f : Fld) (n i : Nat) : (incHf m f n i).stns = m.stns := rfl
@[simp] theorem incHf_engs (f : Fld) (n i : Nat) : (incHf m f n i).engs = m.engs := rfl
@[simp] theorem incHf_cores (f : Fld) (n i : Nat) : (incHf m f n i).cores = m.cores := rfl
@[simp] theorem incHf_spine (f : Fld) (n i : Nat) : (incHf m f n i).spine = m.spine := rfl
@[simp] theorem incHf_host (f : Fld) (n i : Nat) : (incHf m f n i).host = m.host := rfl
@[simp] theorem incHf_cmds (f : Fld) (n i : Nat) : (incHf m f n i).cmds = m.cmds := rfl
@[simp] theorem incHf_nextId (f : Fld) (n i : Nat) : (incHf m f n i).nextId = m.nextId := rfl
@[simp] theorem incHf_run (f : Fld) (n i : Nat) : (incHf m f n i).run = m.run := rfl
@[simp] theorem incHf_out (f : Fld) (n i : Nat) : (incHf m f n i).out = m.out := rfl
@[simp] theorem incHf_free (f : Fld) (n i : Nat) : (incHf m f n i).free = m.free := rfl
@[simp] theorem incHf_scan (f : Fld) (n i : Nat) : (incHf m f n i).scan = m.scan := rfl
@[simp] theorem incHf_side (f : Fld) (n i : Nat) : (incHf m f n i).side = m.side := rfl
@[simp] theorem incHf_pins (f : Fld) (n i : Nat) : (incHf m f n i).pins = m.pins := rfl
@[simp] theorem incHf_bup (f : Fld) (n i : Nat) : (incHf m f n i).bup = m.bup := rfl
@[simp] theorem incHf_comp (f : Fld) (n i : Nat) : (incHf m f n i).comp = m.comp := rfl
@[simp] theorem incHf_hth (f : Fld) (n i : Nat) : (incHf m f n i).hth = m.hth := rfl
@[simp] theorem incHf_rtn (f : Fld) (n i : Nat) : (incHf m f n i).rtn = m.rtn := rfl
@[simp] theorem incHf_trc (f : Fld) (n i : Nat) : (incHf m f n i).trc = m.trc := rfl
@[simp] theorem incHf_sth (f : Fld) (n i : Nat) : (incHf m f n i).sth = m.sth := rfl
@[simp] theorem incHf_rcv (f : Fld) (n i : Nat) : (incHf m f n i).rcv = m.rcv := rfl
@[simp] theorem incHf_lcy (f : Fld) (n i : Nat) : (incHf m f n i).lcy = m.lcy := rfl
@[simp] theorem incHf_peer (f : Fld) (n i : Nat) : (incHf m f n i).peer = m.peer := rfl
@[simp] theorem incHf_tly (f : Fld) (n i : Nat) : (incHf m f n i).tly = m.tly := rfl

/-! ### sput -/

@[simp] theorem sput_hregs (d a : Nat) (v : W64) : (sput m d a v).hregs = m.hregs := rfl
@[simp] theorem sput_hostMem (d a : Nat) (v : W64) : (sput m d a v).hostMem = m.hostMem := rfl
@[simp] theorem sput_hbm (d a : Nat) (v : W64) : (sput m d a v).hbm = m.hbm := rfl
@[simp] theorem sput_coreMem (d a : Nat) (v : W64) : (sput m d a v).coreMem = m.coreMem := rfl
@[simp] theorem sput_time (d a : Nat) (v : W64) : (sput m d a v).time = m.time := rfl
@[simp] theorem sput_stns (d a : Nat) (v : W64) : (sput m d a v).stns = m.stns := rfl
@[simp] theorem sput_engs (d a : Nat) (v : W64) : (sput m d a v).engs = m.engs := rfl
@[simp] theorem sput_cores (d a : Nat) (v : W64) : (sput m d a v).cores = m.cores := rfl
@[simp] theorem sput_spine (d a : Nat) (v : W64) : (sput m d a v).spine = m.spine := rfl
@[simp] theorem sput_host (d a : Nat) (v : W64) : (sput m d a v).host = m.host := rfl
@[simp] theorem sput_cmds (d a : Nat) (v : W64) : (sput m d a v).cmds = m.cmds := rfl
@[simp] theorem sput_nextId (d a : Nat) (v : W64) : (sput m d a v).nextId = m.nextId := rfl
@[simp] theorem sput_run (d a : Nat) (v : W64) : (sput m d a v).run = m.run := rfl
@[simp] theorem sput_out (d a : Nat) (v : W64) : (sput m d a v).out = m.out := rfl
@[simp] theorem sput_free (d a : Nat) (v : W64) : (sput m d a v).free = m.free := rfl
@[simp] theorem sput_scan (d a : Nat) (v : W64) : (sput m d a v).scan = m.scan := rfl
@[simp] theorem sput_side (d a : Nat) (v : W64) : (sput m d a v).side = m.side := rfl
@[simp] theorem sput_pins (d a : Nat) (v : W64) : (sput m d a v).pins = m.pins := rfl
@[simp] theorem sput_bup (d a : Nat) (v : W64) : (sput m d a v).bup = m.bup := rfl
@[simp] theorem sput_comp (d a : Nat) (v : W64) : (sput m d a v).comp = m.comp := rfl
@[simp] theorem sput_hth (d a : Nat) (v : W64) : (sput m d a v).hth = m.hth := rfl
@[simp] theorem sput_rtn (d a : Nat) (v : W64) : (sput m d a v).rtn = m.rtn := rfl
@[simp] theorem sput_trc (d a : Nat) (v : W64) : (sput m d a v).trc = m.trc := rfl
@[simp] theorem sput_sth (d a : Nat) (v : W64) : (sput m d a v).sth = m.sth := rfl
@[simp] theorem sput_rcv (d a : Nat) (v : W64) : (sput m d a v).rcv = m.rcv := rfl
@[simp] theorem sput_lcy (d a : Nat) (v : W64) : (sput m d a v).lcy = m.lcy := rfl
@[simp] theorem sput_peer (d a : Nat) (v : W64) : (sput m d a v).peer = m.peer := rfl
@[simp] theorem sput_tly (d a : Nat) (v : W64) : (sput m d a v).tly = m.tly := rfl

/-! ### setSf -/

@[simp] theorem setSf_hregs (d : Nat) (f : Fld) (v i : Nat) : (setSf m d f v i).hregs = m.hregs := rfl
@[simp] theorem setSf_hostMem (d : Nat) (f : Fld) (v i : Nat) : (setSf m d f v i).hostMem = m.hostMem := rfl
@[simp] theorem setSf_hbm (d : Nat) (f : Fld) (v i : Nat) : (setSf m d f v i).hbm = m.hbm := rfl
@[simp] theorem setSf_coreMem (d : Nat) (f : Fld) (v i : Nat) : (setSf m d f v i).coreMem = m.coreMem := rfl
@[simp] theorem setSf_time (d : Nat) (f : Fld) (v i : Nat) : (setSf m d f v i).time = m.time := rfl
@[simp] theorem setSf_stns (d : Nat) (f : Fld) (v i : Nat) : (setSf m d f v i).stns = m.stns := rfl
@[simp] theorem setSf_engs (d : Nat) (f : Fld) (v i : Nat) : (setSf m d f v i).engs = m.engs := rfl
@[simp] theorem setSf_cores (d : Nat) (f : Fld) (v i : Nat) : (setSf m d f v i).cores = m.cores := rfl
@[simp] theorem setSf_spine (d : Nat) (f : Fld) (v i : Nat) : (setSf m d f v i).spine = m.spine := rfl
@[simp] theorem setSf_host (d : Nat) (f : Fld) (v i : Nat) : (setSf m d f v i).host = m.host := rfl
@[simp] theorem setSf_cmds (d : Nat) (f : Fld) (v i : Nat) : (setSf m d f v i).cmds = m.cmds := rfl
@[simp] theorem setSf_nextId (d : Nat) (f : Fld) (v i : Nat) : (setSf m d f v i).nextId = m.nextId := rfl
@[simp] theorem setSf_run (d : Nat) (f : Fld) (v i : Nat) : (setSf m d f v i).run = m.run := rfl
@[simp] theorem setSf_out (d : Nat) (f : Fld) (v i : Nat) : (setSf m d f v i).out = m.out := rfl
@[simp] theorem setSf_free (d : Nat) (f : Fld) (v i : Nat) : (setSf m d f v i).free = m.free := rfl
@[simp] theorem setSf_scan (d : Nat) (f : Fld) (v i : Nat) : (setSf m d f v i).scan = m.scan := rfl
@[simp] theorem setSf_side (d : Nat) (f : Fld) (v i : Nat) : (setSf m d f v i).side = m.side := rfl
@[simp] theorem setSf_pins (d : Nat) (f : Fld) (v i : Nat) : (setSf m d f v i).pins = m.pins := rfl
@[simp] theorem setSf_bup (d : Nat) (f : Fld) (v i : Nat) : (setSf m d f v i).bup = m.bup := rfl
@[simp] theorem setSf_comp (d : Nat) (f : Fld) (v i : Nat) : (setSf m d f v i).comp = m.comp := rfl
@[simp] theorem setSf_hth (d : Nat) (f : Fld) (v i : Nat) : (setSf m d f v i).hth = m.hth := rfl
@[simp] theorem setSf_rtn (d : Nat) (f : Fld) (v i : Nat) : (setSf m d f v i).rtn = m.rtn := rfl
@[simp] theorem setSf_trc (d : Nat) (f : Fld) (v i : Nat) : (setSf m d f v i).trc = m.trc := rfl
@[simp] theorem setSf_sth (d : Nat) (f : Fld) (v i : Nat) : (setSf m d f v i).sth = m.sth := rfl
@[simp] theorem setSf_rcv (d : Nat) (f : Fld) (v i : Nat) : (setSf m d f v i).rcv = m.rcv := rfl
@[simp] theorem setSf_lcy (d : Nat) (f : Fld) (v i : Nat) : (setSf m d f v i).lcy = m.lcy := rfl
@[simp] theorem setSf_peer (d : Nat) (f : Fld) (v i : Nat) : (setSf m d f v i).peer = m.peer := rfl
@[simp] theorem setSf_tly (d : Nat) (f : Fld) (v i : Nat) : (setSf m d f v i).tly = m.tly := rfl

/-! ### incSf -/

@[simp] theorem incSf_hregs (d : Nat) (f : Fld) (n i : Nat) : (incSf m d f n i).hregs = m.hregs := rfl
@[simp] theorem incSf_hostMem (d : Nat) (f : Fld) (n i : Nat) : (incSf m d f n i).hostMem = m.hostMem := rfl
@[simp] theorem incSf_hbm (d : Nat) (f : Fld) (n i : Nat) : (incSf m d f n i).hbm = m.hbm := rfl
@[simp] theorem incSf_coreMem (d : Nat) (f : Fld) (n i : Nat) : (incSf m d f n i).coreMem = m.coreMem := rfl
@[simp] theorem incSf_time (d : Nat) (f : Fld) (n i : Nat) : (incSf m d f n i).time = m.time := rfl
@[simp] theorem incSf_stns (d : Nat) (f : Fld) (n i : Nat) : (incSf m d f n i).stns = m.stns := rfl
@[simp] theorem incSf_engs (d : Nat) (f : Fld) (n i : Nat) : (incSf m d f n i).engs = m.engs := rfl
@[simp] theorem incSf_cores (d : Nat) (f : Fld) (n i : Nat) : (incSf m d f n i).cores = m.cores := rfl
@[simp] theorem incSf_spine (d : Nat) (f : Fld) (n i : Nat) : (incSf m d f n i).spine = m.spine := rfl
@[simp] theorem incSf_host (d : Nat) (f : Fld) (n i : Nat) : (incSf m d f n i).host = m.host := rfl
@[simp] theorem incSf_cmds (d : Nat) (f : Fld) (n i : Nat) : (incSf m d f n i).cmds = m.cmds := rfl
@[simp] theorem incSf_nextId (d : Nat) (f : Fld) (n i : Nat) : (incSf m d f n i).nextId = m.nextId := rfl
@[simp] theorem incSf_run (d : Nat) (f : Fld) (n i : Nat) : (incSf m d f n i).run = m.run := rfl
@[simp] theorem incSf_out (d : Nat) (f : Fld) (n i : Nat) : (incSf m d f n i).out = m.out := rfl
@[simp] theorem incSf_free (d : Nat) (f : Fld) (n i : Nat) : (incSf m d f n i).free = m.free := rfl
@[simp] theorem incSf_scan (d : Nat) (f : Fld) (n i : Nat) : (incSf m d f n i).scan = m.scan := rfl
@[simp] theorem incSf_side (d : Nat) (f : Fld) (n i : Nat) : (incSf m d f n i).side = m.side := rfl
@[simp] theorem incSf_pins (d : Nat) (f : Fld) (n i : Nat) : (incSf m d f n i).pins = m.pins := rfl
@[simp] theorem incSf_bup (d : Nat) (f : Fld) (n i : Nat) : (incSf m d f n i).bup = m.bup := rfl
@[simp] theorem incSf_comp (d : Nat) (f : Fld) (n i : Nat) : (incSf m d f n i).comp = m.comp := rfl
@[simp] theorem incSf_hth (d : Nat) (f : Fld) (n i : Nat) : (incSf m d f n i).hth = m.hth := rfl
@[simp] theorem incSf_rtn (d : Nat) (f : Fld) (n i : Nat) : (incSf m d f n i).rtn = m.rtn := rfl
@[simp] theorem incSf_trc (d : Nat) (f : Fld) (n i : Nat) : (incSf m d f n i).trc = m.trc := rfl
@[simp] theorem incSf_sth (d : Nat) (f : Fld) (n i : Nat) : (incSf m d f n i).sth = m.sth := rfl
@[simp] theorem incSf_rcv (d : Nat) (f : Fld) (n i : Nat) : (incSf m d f n i).rcv = m.rcv := rfl
@[simp] theorem incSf_lcy (d : Nat) (f : Fld) (n i : Nat) : (incSf m d f n i).lcy = m.lcy := rfl
@[simp] theorem incSf_peer (d : Nat) (f : Fld) (n i : Nat) : (incSf m d f n i).peer = m.peer := rfl
@[simp] theorem incSf_tly (d : Nat) (f : Fld) (n i : Nat) : (incSf m d f n i).tly = m.tly := rfl

/-! ### setTf -/

@[simp] theorem setTf_hregs (d p : Nat) (f : Fld) (v i : Nat) : (setTf m d p f v i).hregs = m.hregs := rfl
@[simp] theorem setTf_hostMem (d p : Nat) (f : Fld) (v i : Nat) : (setTf m d p f v i).hostMem = m.hostMem := rfl
@[simp] theorem setTf_hbm (d p : Nat) (f : Fld) (v i : Nat) : (setTf m d p f v i).hbm = m.hbm := rfl
@[simp] theorem setTf_coreMem (d p : Nat) (f : Fld) (v i : Nat) : (setTf m d p f v i).coreMem = m.coreMem := rfl
@[simp] theorem setTf_time (d p : Nat) (f : Fld) (v i : Nat) : (setTf m d p f v i).time = m.time := rfl
@[simp] theorem setTf_stns (d p : Nat) (f : Fld) (v i : Nat) : (setTf m d p f v i).stns = m.stns := rfl
@[simp] theorem setTf_engs (d p : Nat) (f : Fld) (v i : Nat) : (setTf m d p f v i).engs = m.engs := rfl
@[simp] theorem setTf_cores (d p : Nat) (f : Fld) (v i : Nat) : (setTf m d p f v i).cores = m.cores := rfl
@[simp] theorem setTf_spine (d p : Nat) (f : Fld) (v i : Nat) : (setTf m d p f v i).spine = m.spine := rfl
@[simp] theorem setTf_host (d p : Nat) (f : Fld) (v i : Nat) : (setTf m d p f v i).host = m.host := rfl
@[simp] theorem setTf_cmds (d p : Nat) (f : Fld) (v i : Nat) : (setTf m d p f v i).cmds = m.cmds := rfl
@[simp] theorem setTf_nextId (d p : Nat) (f : Fld) (v i : Nat) : (setTf m d p f v i).nextId = m.nextId := rfl
@[simp] theorem setTf_run (d p : Nat) (f : Fld) (v i : Nat) : (setTf m d p f v i).run = m.run := rfl
@[simp] theorem setTf_out (d p : Nat) (f : Fld) (v i : Nat) : (setTf m d p f v i).out = m.out := rfl
@[simp] theorem setTf_free (d p : Nat) (f : Fld) (v i : Nat) : (setTf m d p f v i).free = m.free := rfl
@[simp] theorem setTf_scan (d p : Nat) (f : Fld) (v i : Nat) : (setTf m d p f v i).scan = m.scan := rfl
@[simp] theorem setTf_side (d p : Nat) (f : Fld) (v i : Nat) : (setTf m d p f v i).side = m.side := rfl
@[simp] theorem setTf_pins (d p : Nat) (f : Fld) (v i : Nat) : (setTf m d p f v i).pins = m.pins := rfl
@[simp] theorem setTf_bup (d p : Nat) (f : Fld) (v i : Nat) : (setTf m d p f v i).bup = m.bup := rfl
@[simp] theorem setTf_comp (d p : Nat) (f : Fld) (v i : Nat) : (setTf m d p f v i).comp = m.comp := rfl
@[simp] theorem setTf_hth (d p : Nat) (f : Fld) (v i : Nat) : (setTf m d p f v i).hth = m.hth := rfl
@[simp] theorem setTf_rtn (d p : Nat) (f : Fld) (v i : Nat) : (setTf m d p f v i).rtn = m.rtn := rfl
@[simp] theorem setTf_trc (d p : Nat) (f : Fld) (v i : Nat) : (setTf m d p f v i).trc = m.trc := rfl
@[simp] theorem setTf_sth (d p : Nat) (f : Fld) (v i : Nat) : (setTf m d p f v i).sth = m.sth := rfl
@[simp] theorem setTf_rcv (d p : Nat) (f : Fld) (v i : Nat) : (setTf m d p f v i).rcv = m.rcv := rfl
@[simp] theorem setTf_lcy (d p : Nat) (f : Fld) (v i : Nat) : (setTf m d p f v i).lcy = m.lcy := rfl
@[simp] theorem setTf_peer (d p : Nat) (f : Fld) (v i : Nat) : (setTf m d p f v i).peer = m.peer := rfl
@[simp] theorem setTf_tly (d p : Nat) (f : Fld) (v i : Nat) : (setTf m d p f v i).tly = m.tly := rfl

/-! ### incTf -/

@[simp] theorem incTf_hregs (d p : Nat) (f : Fld) (n i : Nat) : (incTf m d p f n i).hregs = m.hregs := rfl
@[simp] theorem incTf_hostMem (d p : Nat) (f : Fld) (n i : Nat) : (incTf m d p f n i).hostMem = m.hostMem := rfl
@[simp] theorem incTf_hbm (d p : Nat) (f : Fld) (n i : Nat) : (incTf m d p f n i).hbm = m.hbm := rfl
@[simp] theorem incTf_coreMem (d p : Nat) (f : Fld) (n i : Nat) : (incTf m d p f n i).coreMem = m.coreMem := rfl
@[simp] theorem incTf_time (d p : Nat) (f : Fld) (n i : Nat) : (incTf m d p f n i).time = m.time := rfl
@[simp] theorem incTf_stns (d p : Nat) (f : Fld) (n i : Nat) : (incTf m d p f n i).stns = m.stns := rfl
@[simp] theorem incTf_engs (d p : Nat) (f : Fld) (n i : Nat) : (incTf m d p f n i).engs = m.engs := rfl
@[simp] theorem incTf_cores (d p : Nat) (f : Fld) (n i : Nat) : (incTf m d p f n i).cores = m.cores := rfl
@[simp] theorem incTf_spine (d p : Nat) (f : Fld) (n i : Nat) : (incTf m d p f n i).spine = m.spine := rfl
@[simp] theorem incTf_host (d p : Nat) (f : Fld) (n i : Nat) : (incTf m d p f n i).host = m.host := rfl
@[simp] theorem incTf_cmds (d p : Nat) (f : Fld) (n i : Nat) : (incTf m d p f n i).cmds = m.cmds := rfl
@[simp] theorem incTf_nextId (d p : Nat) (f : Fld) (n i : Nat) : (incTf m d p f n i).nextId = m.nextId := rfl
@[simp] theorem incTf_run (d p : Nat) (f : Fld) (n i : Nat) : (incTf m d p f n i).run = m.run := rfl
@[simp] theorem incTf_out (d p : Nat) (f : Fld) (n i : Nat) : (incTf m d p f n i).out = m.out := rfl
@[simp] theorem incTf_free (d p : Nat) (f : Fld) (n i : Nat) : (incTf m d p f n i).free = m.free := rfl
@[simp] theorem incTf_scan (d p : Nat) (f : Fld) (n i : Nat) : (incTf m d p f n i).scan = m.scan := rfl
@[simp] theorem incTf_side (d p : Nat) (f : Fld) (n i : Nat) : (incTf m d p f n i).side = m.side := rfl
@[simp] theorem incTf_pins (d p : Nat) (f : Fld) (n i : Nat) : (incTf m d p f n i).pins = m.pins := rfl
@[simp] theorem incTf_bup (d p : Nat) (f : Fld) (n i : Nat) : (incTf m d p f n i).bup = m.bup := rfl
@[simp] theorem incTf_comp (d p : Nat) (f : Fld) (n i : Nat) : (incTf m d p f n i).comp = m.comp := rfl
@[simp] theorem incTf_hth (d p : Nat) (f : Fld) (n i : Nat) : (incTf m d p f n i).hth = m.hth := rfl
@[simp] theorem incTf_rtn (d p : Nat) (f : Fld) (n i : Nat) : (incTf m d p f n i).rtn = m.rtn := rfl
@[simp] theorem incTf_trc (d p : Nat) (f : Fld) (n i : Nat) : (incTf m d p f n i).trc = m.trc := rfl
@[simp] theorem incTf_sth (d p : Nat) (f : Fld) (n i : Nat) : (incTf m d p f n i).sth = m.sth := rfl
@[simp] theorem incTf_rcv (d p : Nat) (f : Fld) (n i : Nat) : (incTf m d p f n i).rcv = m.rcv := rfl
@[simp] theorem incTf_lcy (d p : Nat) (f : Fld) (n i : Nat) : (incTf m d p f n i).lcy = m.lcy := rfl
@[simp] theorem incTf_peer (d p : Nat) (f : Fld) (n i : Nat) : (incTf m d p f n i).peer = m.peer := rfl
@[simp] theorem incTf_tly (d p : Nat) (f : Fld) (n i : Nat) : (incTf m d p f n i).tly = m.tly := rfl

/-! ### setStn -/

@[simp] theorem setStn_hregs (d : Nat) (x : Station) : (setStn m d x).hregs = m.hregs := rfl
@[simp] theorem setStn_sregs (d : Nat) (x : Station) : (setStn m d x).sregs = m.sregs := rfl
@[simp] theorem setStn_hostMem (d : Nat) (x : Station) : (setStn m d x).hostMem = m.hostMem := rfl
@[simp] theorem setStn_hbm (d : Nat) (x : Station) : (setStn m d x).hbm = m.hbm := rfl
@[simp] theorem setStn_coreMem (d : Nat) (x : Station) : (setStn m d x).coreMem = m.coreMem := rfl
@[simp] theorem setStn_time (d : Nat) (x : Station) : (setStn m d x).time = m.time := rfl
@[simp] theorem setStn_engs (d : Nat) (x : Station) : (setStn m d x).engs = m.engs := rfl
@[simp] theorem setStn_cores (d : Nat) (x : Station) : (setStn m d x).cores = m.cores := rfl
@[simp] theorem setStn_spine (d : Nat) (x : Station) : (setStn m d x).spine = m.spine := rfl
@[simp] theorem setStn_host (d : Nat) (x : Station) : (setStn m d x).host = m.host := rfl
@[simp] theorem setStn_cmds (d : Nat) (x : Station) : (setStn m d x).cmds = m.cmds := rfl
@[simp] theorem setStn_nextId (d : Nat) (x : Station) : (setStn m d x).nextId = m.nextId := rfl
@[simp] theorem setStn_run (d : Nat) (x : Station) : (setStn m d x).run = m.run := rfl
@[simp] theorem setStn_out (d : Nat) (x : Station) : (setStn m d x).out = m.out := rfl
@[simp] theorem setStn_free (d : Nat) (x : Station) : (setStn m d x).free = m.free := rfl
@[simp] theorem setStn_scan (d : Nat) (x : Station) : (setStn m d x).scan = m.scan := rfl
@[simp] theorem setStn_side (d : Nat) (x : Station) : (setStn m d x).side = m.side := rfl
@[simp] theorem setStn_pins (d : Nat) (x : Station) : (setStn m d x).pins = m.pins := rfl
@[simp] theorem setStn_bup (d : Nat) (x : Station) : (setStn m d x).bup = m.bup := rfl
@[simp] theorem setStn_comp (d : Nat) (x : Station) : (setStn m d x).comp = m.comp := rfl
@[simp] theorem setStn_hth (d : Nat) (x : Station) : (setStn m d x).hth = m.hth := rfl
@[simp] theorem setStn_rtn (d : Nat) (x : Station) : (setStn m d x).rtn = m.rtn := rfl
@[simp] theorem setStn_trc (d : Nat) (x : Station) : (setStn m d x).trc = m.trc := rfl
@[simp] theorem setStn_sth (d : Nat) (x : Station) : (setStn m d x).sth = m.sth := rfl
@[simp] theorem setStn_rcv (d : Nat) (x : Station) : (setStn m d x).rcv = m.rcv := rfl
@[simp] theorem setStn_lcy (d : Nat) (x : Station) : (setStn m d x).lcy = m.lcy := rfl
@[simp] theorem setStn_peer (d : Nat) (x : Station) : (setStn m d x).peer = m.peer := rfl
@[simp] theorem setStn_tly (d : Nat) (x : Station) : (setStn m d x).tly = m.tly := rfl

/-! ### updStn -/

@[simp] theorem updStn_hregs (d : Nat) (g : Station → Station) : (updStn m d g).hregs = m.hregs := rfl
@[simp] theorem updStn_sregs (d : Nat) (g : Station → Station) : (updStn m d g).sregs = m.sregs := rfl
@[simp] theorem updStn_hostMem (d : Nat) (g : Station → Station) : (updStn m d g).hostMem = m.hostMem := rfl
@[simp] theorem updStn_hbm (d : Nat) (g : Station → Station) : (updStn m d g).hbm = m.hbm := rfl
@[simp] theorem updStn_coreMem (d : Nat) (g : Station → Station) : (updStn m d g).coreMem = m.coreMem := rfl
@[simp] theorem updStn_time (d : Nat) (g : Station → Station) : (updStn m d g).time = m.time := rfl
@[simp] theorem updStn_engs (d : Nat) (g : Station → Station) : (updStn m d g).engs = m.engs := rfl
@[simp] theorem updStn_cores (d : Nat) (g : Station → Station) : (updStn m d g).cores = m.cores := rfl
@[simp] theorem updStn_spine (d : Nat) (g : Station → Station) : (updStn m d g).spine = m.spine := rfl
@[simp] theorem updStn_host (d : Nat) (g : Station → Station) : (updStn m d g).host = m.host := rfl
@[simp] theorem updStn_cmds (d : Nat) (g : Station → Station) : (updStn m d g).cmds = m.cmds := rfl
@[simp] theorem updStn_nextId (d : Nat) (g : Station → Station) : (updStn m d g).nextId = m.nextId := rfl
@[simp] theorem updStn_run (d : Nat) (g : Station → Station) : (updStn m d g).run = m.run := rfl
@[simp] theorem updStn_out (d : Nat) (g : Station → Station) : (updStn m d g).out = m.out := rfl
@[simp] theorem updStn_free (d : Nat) (g : Station → Station) : (updStn m d g).free = m.free := rfl
@[simp] theorem updStn_scan (d : Nat) (g : Station → Station) : (updStn m d g).scan = m.scan := rfl
@[simp] theorem updStn_side (d : Nat) (g : Station → Station) : (updStn m d g).side = m.side := rfl
@[simp] theorem updStn_pins (d : Nat) (g : Station → Station) : (updStn m d g).pins = m.pins := rfl
@[simp] theorem updStn_bup (d : Nat) (g : Station → Station) : (updStn m d g).bup = m.bup := rfl
@[simp] theorem updStn_comp (d : Nat) (g : Station → Station) : (updStn m d g).comp = m.comp := rfl
@[simp] theorem updStn_hth (d : Nat) (g : Station → Station) : (updStn m d g).hth = m.hth := rfl
@[simp] theorem updStn_rtn (d : Nat) (g : Station → Station) : (updStn m d g).rtn = m.rtn := rfl
@[simp] theorem updStn_trc (d : Nat) (g : Station → Station) : (updStn m d g).trc = m.trc := rfl
@[simp] theorem updStn_sth (d : Nat) (g : Station → Station) : (updStn m d g).sth = m.sth := rfl
@[simp] theorem updStn_rcv (d : Nat) (g : Station → Station) : (updStn m d g).rcv = m.rcv := rfl
@[simp] theorem updStn_lcy (d : Nat) (g : Station → Station) : (updStn m d g).lcy = m.lcy := rfl
@[simp] theorem updStn_peer (d : Nat) (g : Station → Station) : (updStn m d g).peer = m.peer := rfl
@[simp] theorem updStn_tly (d : Nat) (g : Station → Station) : (updStn m d g).tly = m.tly := rfl

/-! ### setEng -/

@[simp] theorem setEng_hregs (d p e : Nat) (x : Eng) : (setEng m d p e x).hregs = m.hregs := rfl
@[simp] theorem setEng_sregs (d p e : Nat) (x : Eng) : (setEng m d p e x).sregs = m.sregs := rfl
@[simp] theorem setEng_hostMem (d p e : Nat) (x : Eng) : (setEng m d p e x).hostMem = m.hostMem := rfl
@[simp] theorem setEng_hbm (d p e : Nat) (x : Eng) : (setEng m d p e x).hbm = m.hbm := rfl
@[simp] theorem setEng_coreMem (d p e : Nat) (x : Eng) : (setEng m d p e x).coreMem = m.coreMem := rfl
@[simp] theorem setEng_time (d p e : Nat) (x : Eng) : (setEng m d p e x).time = m.time := rfl
@[simp] theorem setEng_stns (d p e : Nat) (x : Eng) : (setEng m d p e x).stns = m.stns := rfl
@[simp] theorem setEng_cores (d p e : Nat) (x : Eng) : (setEng m d p e x).cores = m.cores := rfl
@[simp] theorem setEng_spine (d p e : Nat) (x : Eng) : (setEng m d p e x).spine = m.spine := rfl
@[simp] theorem setEng_host (d p e : Nat) (x : Eng) : (setEng m d p e x).host = m.host := rfl
@[simp] theorem setEng_cmds (d p e : Nat) (x : Eng) : (setEng m d p e x).cmds = m.cmds := rfl
@[simp] theorem setEng_nextId (d p e : Nat) (x : Eng) : (setEng m d p e x).nextId = m.nextId := rfl
@[simp] theorem setEng_run (d p e : Nat) (x : Eng) : (setEng m d p e x).run = m.run := rfl
@[simp] theorem setEng_out (d p e : Nat) (x : Eng) : (setEng m d p e x).out = m.out := rfl
@[simp] theorem setEng_free (d p e : Nat) (x : Eng) : (setEng m d p e x).free = m.free := rfl
@[simp] theorem setEng_scan (d p e : Nat) (x : Eng) : (setEng m d p e x).scan = m.scan := rfl
@[simp] theorem setEng_side (d p e : Nat) (x : Eng) : (setEng m d p e x).side = m.side := rfl
@[simp] theorem setEng_pins (d p e : Nat) (x : Eng) : (setEng m d p e x).pins = m.pins := rfl
@[simp] theorem setEng_bup (d p e : Nat) (x : Eng) : (setEng m d p e x).bup = m.bup := rfl
@[simp] theorem setEng_comp (d p e : Nat) (x : Eng) : (setEng m d p e x).comp = m.comp := rfl
@[simp] theorem setEng_hth (d p e : Nat) (x : Eng) : (setEng m d p e x).hth = m.hth := rfl
@[simp] theorem setEng_rtn (d p e : Nat) (x : Eng) : (setEng m d p e x).rtn = m.rtn := rfl
@[simp] theorem setEng_trc (d p e : Nat) (x : Eng) : (setEng m d p e x).trc = m.trc := rfl
@[simp] theorem setEng_sth (d p e : Nat) (x : Eng) : (setEng m d p e x).sth = m.sth := rfl
@[simp] theorem setEng_rcv (d p e : Nat) (x : Eng) : (setEng m d p e x).rcv = m.rcv := rfl
@[simp] theorem setEng_lcy (d p e : Nat) (x : Eng) : (setEng m d p e x).lcy = m.lcy := rfl
@[simp] theorem setEng_peer (d p e : Nat) (x : Eng) : (setEng m d p e x).peer = m.peer := rfl
@[simp] theorem setEng_tly (d p e : Nat) (x : Eng) : (setEng m d p e x).tly = m.tly := rfl

/-! ### updEng -/

@[simp] theorem updEng_hregs (d p e : Nat) (g : Eng → Eng) : (updEng m d p e g).hregs = m.hregs := rfl
@[simp] theorem updEng_sregs (d p e : Nat) (g : Eng → Eng) : (updEng m d p e g).sregs = m.sregs := rfl
@[simp] theorem updEng_hostMem (d p e : Nat) (g : Eng → Eng) : (updEng m d p e g).hostMem = m.hostMem := rfl
@[simp] theorem updEng_hbm (d p e : Nat) (g : Eng → Eng) : (updEng m d p e g).hbm = m.hbm := rfl
@[simp] theorem updEng_coreMem (d p e : Nat) (g : Eng → Eng) : (updEng m d p e g).coreMem = m.coreMem := rfl
@[simp] theorem updEng_time (d p e : Nat) (g : Eng → Eng) : (updEng m d p e g).time = m.time := rfl
@[simp] theorem updEng_stns (d p e : Nat) (g : Eng → Eng) : (updEng m d p e g).stns = m.stns := rfl
@[simp] theorem updEng_cores (d p e : Nat) (g : Eng → Eng) : (updEng m d p e g).cores = m.cores := rfl
@[simp] theorem updEng_spine (d p e : Nat) (g : Eng → Eng) : (updEng m d p e g).spine = m.spine := rfl
@[simp] theorem updEng_host (d p e : Nat) (g : Eng → Eng) : (updEng m d p e g).host = m.host := rfl
@[simp] theorem updEng_cmds (d p e : Nat) (g : Eng → Eng) : (updEng m d p e g).cmds = m.cmds := rfl
@[simp] theorem updEng_nextId (d p e : Nat) (g : Eng → Eng) : (updEng m d p e g).nextId = m.nextId := rfl
@[simp] theorem updEng_run (d p e : Nat) (g : Eng → Eng) : (updEng m d p e g).run = m.run := rfl
@[simp] theorem updEng_out (d p e : Nat) (g : Eng → Eng) : (updEng m d p e g).out = m.out := rfl
@[simp] theorem updEng_free (d p e : Nat) (g : Eng → Eng) : (updEng m d p e g).free = m.free := rfl
@[simp] theorem updEng_scan (d p e : Nat) (g : Eng → Eng) : (updEng m d p e g).scan = m.scan := rfl
@[simp] theorem updEng_side (d p e : Nat) (g : Eng → Eng) : (updEng m d p e g).side = m.side := rfl
@[simp] theorem updEng_pins (d p e : Nat) (g : Eng → Eng) : (updEng m d p e g).pins = m.pins := rfl
@[simp] theorem updEng_bup (d p e : Nat) (g : Eng → Eng) : (updEng m d p e g).bup = m.bup := rfl
@[simp] theorem updEng_comp (d p e : Nat) (g : Eng → Eng) : (updEng m d p e g).comp = m.comp := rfl
@[simp] theorem updEng_hth (d p e : Nat) (g : Eng → Eng) : (updEng m d p e g).hth = m.hth := rfl
@[simp] theorem updEng_rtn (d p e : Nat) (g : Eng → Eng) : (updEng m d p e g).rtn = m.rtn := rfl
@[simp] theorem updEng_trc (d p e : Nat) (g : Eng → Eng) : (updEng m d p e g).trc = m.trc := rfl
@[simp] theorem updEng_sth (d p e : Nat) (g : Eng → Eng) : (updEng m d p e g).sth = m.sth := rfl
@[simp] theorem updEng_rcv (d p e : Nat) (g : Eng → Eng) : (updEng m d p e g).rcv = m.rcv := rfl
@[simp] theorem updEng_lcy (d p e : Nat) (g : Eng → Eng) : (updEng m d p e g).lcy = m.lcy := rfl
@[simp] theorem updEng_peer (d p e : Nat) (g : Eng → Eng) : (updEng m d p e g).peer = m.peer := rfl
@[simp] theorem updEng_tly (d p e : Nat) (g : Eng → Eng) : (updEng m d p e g).tly = m.tly := rfl

/-! ### setCore -/

@[simp] theorem setCore_hregs (d p : Nat) (x : CoreSt) : (setCore m d p x).hregs = m.hregs := rfl
@[simp] theorem setCore_sregs (d p : Nat) (x : CoreSt) : (setCore m d p x).sregs = m.sregs := rfl
@[simp] theorem setCore_hostMem (d p : Nat) (x : CoreSt) : (setCore m d p x).hostMem = m.hostMem := rfl
@[simp] theorem setCore_hbm (d p : Nat) (x : CoreSt) : (setCore m d p x).hbm = m.hbm := rfl
@[simp] theorem setCore_coreMem (d p : Nat) (x : CoreSt) : (setCore m d p x).coreMem = m.coreMem := rfl
@[simp] theorem setCore_time (d p : Nat) (x : CoreSt) : (setCore m d p x).time = m.time := rfl
@[simp] theorem setCore_stns (d p : Nat) (x : CoreSt) : (setCore m d p x).stns = m.stns := rfl
@[simp] theorem setCore_engs (d p : Nat) (x : CoreSt) : (setCore m d p x).engs = m.engs := rfl
@[simp] theorem setCore_spine (d p : Nat) (x : CoreSt) : (setCore m d p x).spine = m.spine := rfl
@[simp] theorem setCore_host (d p : Nat) (x : CoreSt) : (setCore m d p x).host = m.host := rfl
@[simp] theorem setCore_cmds (d p : Nat) (x : CoreSt) : (setCore m d p x).cmds = m.cmds := rfl
@[simp] theorem setCore_nextId (d p : Nat) (x : CoreSt) : (setCore m d p x).nextId = m.nextId := rfl
@[simp] theorem setCore_run (d p : Nat) (x : CoreSt) : (setCore m d p x).run = m.run := rfl
@[simp] theorem setCore_out (d p : Nat) (x : CoreSt) : (setCore m d p x).out = m.out := rfl
@[simp] theorem setCore_free (d p : Nat) (x : CoreSt) : (setCore m d p x).free = m.free := rfl
@[simp] theorem setCore_scan (d p : Nat) (x : CoreSt) : (setCore m d p x).scan = m.scan := rfl
@[simp] theorem setCore_side (d p : Nat) (x : CoreSt) : (setCore m d p x).side = m.side := rfl
@[simp] theorem setCore_pins (d p : Nat) (x : CoreSt) : (setCore m d p x).pins = m.pins := rfl
@[simp] theorem setCore_bup (d p : Nat) (x : CoreSt) : (setCore m d p x).bup = m.bup := rfl
@[simp] theorem setCore_comp (d p : Nat) (x : CoreSt) : (setCore m d p x).comp = m.comp := rfl
@[simp] theorem setCore_hth (d p : Nat) (x : CoreSt) : (setCore m d p x).hth = m.hth := rfl
@[simp] theorem setCore_rtn (d p : Nat) (x : CoreSt) : (setCore m d p x).rtn = m.rtn := rfl
@[simp] theorem setCore_trc (d p : Nat) (x : CoreSt) : (setCore m d p x).trc = m.trc := rfl
@[simp] theorem setCore_sth (d p : Nat) (x : CoreSt) : (setCore m d p x).sth = m.sth := rfl
@[simp] theorem setCore_rcv (d p : Nat) (x : CoreSt) : (setCore m d p x).rcv = m.rcv := rfl
@[simp] theorem setCore_lcy (d p : Nat) (x : CoreSt) : (setCore m d p x).lcy = m.lcy := rfl
@[simp] theorem setCore_peer (d p : Nat) (x : CoreSt) : (setCore m d p x).peer = m.peer := rfl
@[simp] theorem setCore_tly (d p : Nat) (x : CoreSt) : (setCore m d p x).tly = m.tly := rfl

/-! ### updCore -/

@[simp] theorem updCore_hregs (d p : Nat) (g : CoreSt → CoreSt) : (updCore m d p g).hregs = m.hregs := rfl
@[simp] theorem updCore_sregs (d p : Nat) (g : CoreSt → CoreSt) : (updCore m d p g).sregs = m.sregs := rfl
@[simp] theorem updCore_hostMem (d p : Nat) (g : CoreSt → CoreSt) : (updCore m d p g).hostMem = m.hostMem := rfl
@[simp] theorem updCore_hbm (d p : Nat) (g : CoreSt → CoreSt) : (updCore m d p g).hbm = m.hbm := rfl
@[simp] theorem updCore_coreMem (d p : Nat) (g : CoreSt → CoreSt) : (updCore m d p g).coreMem = m.coreMem := rfl
@[simp] theorem updCore_time (d p : Nat) (g : CoreSt → CoreSt) : (updCore m d p g).time = m.time := rfl
@[simp] theorem updCore_stns (d p : Nat) (g : CoreSt → CoreSt) : (updCore m d p g).stns = m.stns := rfl
@[simp] theorem updCore_engs (d p : Nat) (g : CoreSt → CoreSt) : (updCore m d p g).engs = m.engs := rfl
@[simp] theorem updCore_spine (d p : Nat) (g : CoreSt → CoreSt) : (updCore m d p g).spine = m.spine := rfl
@[simp] theorem updCore_host (d p : Nat) (g : CoreSt → CoreSt) : (updCore m d p g).host = m.host := rfl
@[simp] theorem updCore_cmds (d p : Nat) (g : CoreSt → CoreSt) : (updCore m d p g).cmds = m.cmds := rfl
@[simp] theorem updCore_nextId (d p : Nat) (g : CoreSt → CoreSt) : (updCore m d p g).nextId = m.nextId := rfl
@[simp] theorem updCore_run (d p : Nat) (g : CoreSt → CoreSt) : (updCore m d p g).run = m.run := rfl
@[simp] theorem updCore_out (d p : Nat) (g : CoreSt → CoreSt) : (updCore m d p g).out = m.out := rfl
@[simp] theorem updCore_free (d p : Nat) (g : CoreSt → CoreSt) : (updCore m d p g).free = m.free := rfl
@[simp] theorem updCore_scan (d p : Nat) (g : CoreSt → CoreSt) : (updCore m d p g).scan = m.scan := rfl
@[simp] theorem updCore_side (d p : Nat) (g : CoreSt → CoreSt) : (updCore m d p g).side = m.side := rfl
@[simp] theorem updCore_pins (d p : Nat) (g : CoreSt → CoreSt) : (updCore m d p g).pins = m.pins := rfl
@[simp] theorem updCore_bup (d p : Nat) (g : CoreSt → CoreSt) : (updCore m d p g).bup = m.bup := rfl
@[simp] theorem updCore_comp (d p : Nat) (g : CoreSt → CoreSt) : (updCore m d p g).comp = m.comp := rfl
@[simp] theorem updCore_hth (d p : Nat) (g : CoreSt → CoreSt) : (updCore m d p g).hth = m.hth := rfl
@[simp] theorem updCore_rtn (d p : Nat) (g : CoreSt → CoreSt) : (updCore m d p g).rtn = m.rtn := rfl
@[simp] theorem updCore_trc (d p : Nat) (g : CoreSt → CoreSt) : (updCore m d p g).trc = m.trc := rfl
@[simp] theorem updCore_sth (d p : Nat) (g : CoreSt → CoreSt) : (updCore m d p g).sth = m.sth := rfl
@[simp] theorem updCore_rcv (d p : Nat) (g : CoreSt → CoreSt) : (updCore m d p g).rcv = m.rcv := rfl
@[simp] theorem updCore_lcy (d p : Nat) (g : CoreSt → CoreSt) : (updCore m d p g).lcy = m.lcy := rfl
@[simp] theorem updCore_peer (d p : Nat) (g : CoreSt → CoreSt) : (updCore m d p g).peer = m.peer := rfl
@[simp] theorem updCore_tly (d p : Nat) (g : CoreSt → CoreSt) : (updCore m d p g).tly = m.tly := rfl

/-! ### emit -/

@[simp] theorem emit_hregs (o : Out) : (emit m o).hregs = m.hregs := rfl
@[simp] theorem emit_sregs (o : Out) : (emit m o).sregs = m.sregs := rfl
@[simp] theorem emit_hostMem (o : Out) : (emit m o).hostMem = m.hostMem := rfl
@[simp] theorem emit_hbm (o : Out) : (emit m o).hbm = m.hbm := rfl
@[simp] theorem emit_coreMem (o : Out) : (emit m o).coreMem = m.coreMem := rfl
@[simp] theorem emit_time (o : Out) : (emit m o).time = m.time := rfl
@[simp] theorem emit_stns (o : Out) : (emit m o).stns = m.stns := rfl
@[simp] theorem emit_engs (o : Out) : (emit m o).engs = m.engs := rfl
@[simp] theorem emit_cores (o : Out) : (emit m o).cores = m.cores := rfl
@[simp] theorem emit_spine (o : Out) : (emit m o).spine = m.spine := rfl
@[simp] theorem emit_host (o : Out) : (emit m o).host = m.host := rfl
@[simp] theorem emit_cmds (o : Out) : (emit m o).cmds = m.cmds := rfl
@[simp] theorem emit_nextId (o : Out) : (emit m o).nextId = m.nextId := rfl
@[simp] theorem emit_run (o : Out) : (emit m o).run = m.run := rfl
@[simp] theorem emit_out (o : Out) : (emit m o).out = m.out ++ [o] := rfl
@[simp] theorem emit_free (o : Out) : (emit m o).free = m.free := rfl
@[simp] theorem emit_scan (o : Out) : (emit m o).scan = m.scan := rfl
@[simp] theorem emit_side (o : Out) : (emit m o).side = m.side := rfl
@[simp] theorem emit_pins (o : Out) : (emit m o).pins = m.pins := rfl
@[simp] theorem emit_bup (o : Out) : (emit m o).bup = m.bup := rfl
@[simp] theorem emit_comp (o : Out) : (emit m o).comp = m.comp := rfl
@[simp] theorem emit_hth (o : Out) : (emit m o).hth = m.hth := rfl
@[simp] theorem emit_rtn (o : Out) : (emit m o).rtn = m.rtn := rfl
@[simp] theorem emit_trc (o : Out) : (emit m o).trc = m.trc := rfl
@[simp] theorem emit_sth (o : Out) : (emit m o).sth = m.sth := rfl
@[simp] theorem emit_rcv (o : Out) : (emit m o).rcv = m.rcv := rfl
@[simp] theorem emit_lcy (o : Out) : (emit m o).lcy = m.lcy := rfl
@[simp] theorem emit_peer (o : Out) : (emit m o).peer = m.peer := rfl
@[simp] theorem emit_tly (o : Out) : (emit m o).tly = m.tly := rfl

/-! ### emits -/

@[simp] theorem emits_hregs (os : List Out) : (emits m os).hregs = m.hregs := rfl
@[simp] theorem emits_sregs (os : List Out) : (emits m os).sregs = m.sregs := rfl
@[simp] theorem emits_hostMem (os : List Out) : (emits m os).hostMem = m.hostMem := rfl
@[simp] theorem emits_hbm (os : List Out) : (emits m os).hbm = m.hbm := rfl
@[simp] theorem emits_coreMem (os : List Out) : (emits m os).coreMem = m.coreMem := rfl
@[simp] theorem emits_time (os : List Out) : (emits m os).time = m.time := rfl
@[simp] theorem emits_stns (os : List Out) : (emits m os).stns = m.stns := rfl
@[simp] theorem emits_engs (os : List Out) : (emits m os).engs = m.engs := rfl
@[simp] theorem emits_cores (os : List Out) : (emits m os).cores = m.cores := rfl
@[simp] theorem emits_spine (os : List Out) : (emits m os).spine = m.spine := rfl
@[simp] theorem emits_host (os : List Out) : (emits m os).host = m.host := rfl
@[simp] theorem emits_cmds (os : List Out) : (emits m os).cmds = m.cmds := rfl
@[simp] theorem emits_nextId (os : List Out) : (emits m os).nextId = m.nextId := rfl
@[simp] theorem emits_run (os : List Out) : (emits m os).run = m.run := rfl
@[simp] theorem emits_out (os : List Out) : (emits m os).out = m.out ++ os := rfl
@[simp] theorem emits_free (os : List Out) : (emits m os).free = m.free := rfl
@[simp] theorem emits_scan (os : List Out) : (emits m os).scan = m.scan := rfl
@[simp] theorem emits_side (os : List Out) : (emits m os).side = m.side := rfl
@[simp] theorem emits_pins (os : List Out) : (emits m os).pins = m.pins := rfl
@[simp] theorem emits_bup (os : List Out) : (emits m os).bup = m.bup := rfl
@[simp] theorem emits_comp (os : List Out) : (emits m os).comp = m.comp := rfl
@[simp] theorem emits_hth (os : List Out) : (emits m os).hth = m.hth := rfl
@[simp] theorem emits_rtn (os : List Out) : (emits m os).rtn = m.rtn := rfl
@[simp] theorem emits_trc (os : List Out) : (emits m os).trc = m.trc := rfl
@[simp] theorem emits_sth (os : List Out) : (emits m os).sth = m.sth := rfl
@[simp] theorem emits_rcv (os : List Out) : (emits m os).rcv = m.rcv := rfl
@[simp] theorem emits_lcy (os : List Out) : (emits m os).lcy = m.lcy := rfl
@[simp] theorem emits_peer (os : List Out) : (emits m os).peer = m.peer := rfl
@[simp] theorem emits_tly (os : List Out) : (emits m os).tly = m.tly := rfl

/-! ### updSess -/

@[simp] theorem updSess_hregs (sid : Nat) (g : Session → Session) : (updSess m sid g).hregs = m.hregs := rfl
@[simp] theorem updSess_sregs (sid : Nat) (g : Session → Session) : (updSess m sid g).sregs = m.sregs := rfl
@[simp] theorem updSess_hostMem (sid : Nat) (g : Session → Session) : (updSess m sid g).hostMem = m.hostMem := rfl
@[simp] theorem updSess_hbm (sid : Nat) (g : Session → Session) : (updSess m sid g).hbm = m.hbm := rfl
@[simp] theorem updSess_coreMem (sid : Nat) (g : Session → Session) : (updSess m sid g).coreMem = m.coreMem := rfl
@[simp] theorem updSess_time (sid : Nat) (g : Session → Session) : (updSess m sid g).time = m.time := rfl
@[simp] theorem updSess_stns (sid : Nat) (g : Session → Session) : (updSess m sid g).stns = m.stns := rfl
@[simp] theorem updSess_engs (sid : Nat) (g : Session → Session) : (updSess m sid g).engs = m.engs := rfl
@[simp] theorem updSess_cores (sid : Nat) (g : Session → Session) : (updSess m sid g).cores = m.cores := rfl
@[simp] theorem updSess_spine (sid : Nat) (g : Session → Session) : (updSess m sid g).spine = m.spine := rfl
@[simp] theorem updSess_cmds (sid : Nat) (g : Session → Session) : (updSess m sid g).cmds = m.cmds := rfl
@[simp] theorem updSess_nextId (sid : Nat) (g : Session → Session) : (updSess m sid g).nextId = m.nextId := rfl
@[simp] theorem updSess_run (sid : Nat) (g : Session → Session) : (updSess m sid g).run = m.run := rfl
@[simp] theorem updSess_out (sid : Nat) (g : Session → Session) : (updSess m sid g).out = m.out := rfl
@[simp] theorem updSess_free (sid : Nat) (g : Session → Session) : (updSess m sid g).free = m.free := rfl
@[simp] theorem updSess_scan (sid : Nat) (g : Session → Session) : (updSess m sid g).scan = m.scan := rfl
@[simp] theorem updSess_side (sid : Nat) (g : Session → Session) : (updSess m sid g).side = m.side := rfl
@[simp] theorem updSess_pins (sid : Nat) (g : Session → Session) : (updSess m sid g).pins = m.pins := rfl
@[simp] theorem updSess_bup (sid : Nat) (g : Session → Session) : (updSess m sid g).bup = m.bup := rfl
@[simp] theorem updSess_comp (sid : Nat) (g : Session → Session) : (updSess m sid g).comp = m.comp := rfl
@[simp] theorem updSess_hth (sid : Nat) (g : Session → Session) : (updSess m sid g).hth = m.hth := rfl
@[simp] theorem updSess_rtn (sid : Nat) (g : Session → Session) : (updSess m sid g).rtn = m.rtn := rfl
@[simp] theorem updSess_trc (sid : Nat) (g : Session → Session) : (updSess m sid g).trc = m.trc := rfl
@[simp] theorem updSess_sth (sid : Nat) (g : Session → Session) : (updSess m sid g).sth = m.sth := rfl
@[simp] theorem updSess_rcv (sid : Nat) (g : Session → Session) : (updSess m sid g).rcv = m.rcv := rfl
@[simp] theorem updSess_lcy (sid : Nat) (g : Session → Session) : (updSess m sid g).lcy = m.lcy := rfl
@[simp] theorem updSess_peer (sid : Nat) (g : Session → Session) : (updSess m sid g).peer = m.peer := rfl
@[simp] theorem updSess_tly (sid : Nat) (g : Session → Session) : (updSess m sid g).tly = m.tly := rfl

/-! ### updCmd -/

@[simp] theorem updCmd_hregs (id : Nat) (g : Cmd → Cmd) : (updCmd m id g).hregs = m.hregs := rfl
@[simp] theorem updCmd_sregs (id : Nat) (g : Cmd → Cmd) : (updCmd m id g).sregs = m.sregs := rfl
@[simp] theorem updCmd_hostMem (id : Nat) (g : Cmd → Cmd) : (updCmd m id g).hostMem = m.hostMem := rfl
@[simp] theorem updCmd_hbm (id : Nat) (g : Cmd → Cmd) : (updCmd m id g).hbm = m.hbm := rfl
@[simp] theorem updCmd_coreMem (id : Nat) (g : Cmd → Cmd) : (updCmd m id g).coreMem = m.coreMem := rfl
@[simp] theorem updCmd_time (id : Nat) (g : Cmd → Cmd) : (updCmd m id g).time = m.time := rfl
@[simp] theorem updCmd_stns (id : Nat) (g : Cmd → Cmd) : (updCmd m id g).stns = m.stns := rfl
@[simp] theorem updCmd_engs (id : Nat) (g : Cmd → Cmd) : (updCmd m id g).engs = m.engs := rfl
@[simp] theorem updCmd_cores (id : Nat) (g : Cmd → Cmd) : (updCmd m id g).cores = m.cores := rfl
@[simp] theorem updCmd_spine (id : Nat) (g : Cmd → Cmd) : (updCmd m id g).spine = m.spine := rfl
@[simp] theorem updCmd_host (id : Nat) (g : Cmd → Cmd) : (updCmd m id g).host = m.host := rfl
@[simp] theorem updCmd_nextId (id : Nat) (g : Cmd → Cmd) : (updCmd m id g).nextId = m.nextId := rfl
@[simp] theorem updCmd_run (id : Nat) (g : Cmd → Cmd) : (updCmd m id g).run = m.run := rfl
@[simp] theorem updCmd_out (id : Nat) (g : Cmd → Cmd) : (updCmd m id g).out = m.out := rfl
@[simp] theorem updCmd_free (id : Nat) (g : Cmd → Cmd) : (updCmd m id g).free = m.free := rfl
@[simp] theorem updCmd_scan (id : Nat) (g : Cmd → Cmd) : (updCmd m id g).scan = m.scan := rfl
@[simp] theorem updCmd_side (id : Nat) (g : Cmd → Cmd) : (updCmd m id g).side = m.side := rfl
@[simp] theorem updCmd_pins (id : Nat) (g : Cmd → Cmd) : (updCmd m id g).pins = m.pins := rfl
@[simp] theorem updCmd_bup (id : Nat) (g : Cmd → Cmd) : (updCmd m id g).bup = m.bup := rfl
@[simp] theorem updCmd_comp (id : Nat) (g : Cmd → Cmd) : (updCmd m id g).comp = m.comp := rfl
@[simp] theorem updCmd_hth (id : Nat) (g : Cmd → Cmd) : (updCmd m id g).hth = m.hth := rfl
@[simp] theorem updCmd_rtn (id : Nat) (g : Cmd → Cmd) : (updCmd m id g).rtn = m.rtn := rfl
@[simp] theorem updCmd_trc (id : Nat) (g : Cmd → Cmd) : (updCmd m id g).trc = m.trc := rfl
@[simp] theorem updCmd_sth (id : Nat) (g : Cmd → Cmd) : (updCmd m id g).sth = m.sth := rfl
@[simp] theorem updCmd_rcv (id : Nat) (g : Cmd → Cmd) : (updCmd m id g).rcv = m.rcv := rfl
@[simp] theorem updCmd_lcy (id : Nat) (g : Cmd → Cmd) : (updCmd m id g).lcy = m.lcy := rfl
@[simp] theorem updCmd_peer (id : Nat) (g : Cmd → Cmd) : (updCmd m id g).peer = m.peer := rfl
@[simp] theorem updCmd_tly (id : Nat) (g : Cmd → Cmd) : (updCmd m id g).tly = m.tly := rfl

/-! ### dropCmd -/

@[simp] theorem dropCmd_hregs (id : Nat) : (dropCmd m id).hregs = m.hregs := rfl
@[simp] theorem dropCmd_sregs (id : Nat) : (dropCmd m id).sregs = m.sregs := rfl
@[simp] theorem dropCmd_hostMem (id : Nat) : (dropCmd m id).hostMem = m.hostMem := rfl
@[simp] theorem dropCmd_hbm (id : Nat) : (dropCmd m id).hbm = m.hbm := rfl
@[simp] theorem dropCmd_coreMem (id : Nat) : (dropCmd m id).coreMem = m.coreMem := rfl
@[simp] theorem dropCmd_time (id : Nat) : (dropCmd m id).time = m.time := rfl
@[simp] theorem dropCmd_stns (id : Nat) : (dropCmd m id).stns = m.stns := rfl
@[simp] theorem dropCmd_engs (id : Nat) : (dropCmd m id).engs = m.engs := rfl
@[simp] theorem dropCmd_cores (id : Nat) : (dropCmd m id).cores = m.cores := rfl
@[simp] theorem dropCmd_spine (id : Nat) : (dropCmd m id).spine = m.spine := rfl
@[simp] theorem dropCmd_host (id : Nat) : (dropCmd m id).host = m.host := rfl
@[simp] theorem dropCmd_cmds (id : Nat) : (dropCmd m id).cmds = m.cmds.filter (fun c => c.id != id) := rfl
@[simp] theorem dropCmd_nextId (id : Nat) : (dropCmd m id).nextId = m.nextId := rfl
@[simp] theorem dropCmd_run (id : Nat) : (dropCmd m id).run = m.run := rfl
@[simp] theorem dropCmd_out (id : Nat) : (dropCmd m id).out = m.out := rfl
@[simp] theorem dropCmd_free (id : Nat) : (dropCmd m id).free = m.free := rfl
@[simp] theorem dropCmd_scan (id : Nat) : (dropCmd m id).scan = m.scan := rfl
@[simp] theorem dropCmd_side (id : Nat) : (dropCmd m id).side = m.side := rfl
@[simp] theorem dropCmd_pins (id : Nat) : (dropCmd m id).pins = m.pins := rfl
@[simp] theorem dropCmd_bup (id : Nat) : (dropCmd m id).bup = m.bup := rfl
@[simp] theorem dropCmd_comp (id : Nat) : (dropCmd m id).comp = m.comp := rfl
@[simp] theorem dropCmd_hth (id : Nat) : (dropCmd m id).hth = m.hth := rfl
@[simp] theorem dropCmd_rtn (id : Nat) : (dropCmd m id).rtn = m.rtn := rfl
@[simp] theorem dropCmd_trc (id : Nat) : (dropCmd m id).trc = m.trc := rfl
@[simp] theorem dropCmd_sth (id : Nat) : (dropCmd m id).sth = m.sth := rfl
@[simp] theorem dropCmd_rcv (id : Nat) : (dropCmd m id).rcv = m.rcv := rfl
@[simp] theorem dropCmd_lcy (id : Nat) : (dropCmd m id).lcy = m.lcy := rfl
@[simp] theorem dropCmd_peer (id : Nat) : (dropCmd m id).peer = m.peer := rfl
@[simp] theorem dropCmd_tly (id : Nat) : (dropCmd m id).tly = m.tly := rfl

/-! ### updTally -/

@[simp] theorem updTally_hregs (cmd : Nat) (g : TallyRun → TallyRun) : (updTally m cmd g).hregs = m.hregs := rfl
@[simp] theorem updTally_sregs (cmd : Nat) (g : TallyRun → TallyRun) : (updTally m cmd g).sregs = m.sregs := rfl
@[simp] theorem updTally_hostMem (cmd : Nat) (g : TallyRun → TallyRun) : (updTally m cmd g).hostMem = m.hostMem := rfl
@[simp] theorem updTally_hbm (cmd : Nat) (g : TallyRun → TallyRun) : (updTally m cmd g).hbm = m.hbm := rfl
@[simp] theorem updTally_coreMem (cmd : Nat) (g : TallyRun → TallyRun) : (updTally m cmd g).coreMem = m.coreMem := rfl
@[simp] theorem updTally_time (cmd : Nat) (g : TallyRun → TallyRun) : (updTally m cmd g).time = m.time := rfl
@[simp] theorem updTally_stns (cmd : Nat) (g : TallyRun → TallyRun) : (updTally m cmd g).stns = m.stns := rfl
@[simp] theorem updTally_engs (cmd : Nat) (g : TallyRun → TallyRun) : (updTally m cmd g).engs = m.engs := rfl
@[simp] theorem updTally_cores (cmd : Nat) (g : TallyRun → TallyRun) : (updTally m cmd g).cores = m.cores := rfl
@[simp] theorem updTally_spine (cmd : Nat) (g : TallyRun → TallyRun) : (updTally m cmd g).spine = m.spine := rfl
@[simp] theorem updTally_host (cmd : Nat) (g : TallyRun → TallyRun) : (updTally m cmd g).host = m.host := rfl
@[simp] theorem updTally_cmds (cmd : Nat) (g : TallyRun → TallyRun) : (updTally m cmd g).cmds = m.cmds := rfl
@[simp] theorem updTally_nextId (cmd : Nat) (g : TallyRun → TallyRun) : (updTally m cmd g).nextId = m.nextId := rfl
@[simp] theorem updTally_run (cmd : Nat) (g : TallyRun → TallyRun) : (updTally m cmd g).run = m.run := rfl
@[simp] theorem updTally_out (cmd : Nat) (g : TallyRun → TallyRun) : (updTally m cmd g).out = m.out := rfl
@[simp] theorem updTally_free (cmd : Nat) (g : TallyRun → TallyRun) : (updTally m cmd g).free = m.free := rfl
@[simp] theorem updTally_scan (cmd : Nat) (g : TallyRun → TallyRun) : (updTally m cmd g).scan = m.scan := rfl
@[simp] theorem updTally_side (cmd : Nat) (g : TallyRun → TallyRun) : (updTally m cmd g).side = m.side := rfl
@[simp] theorem updTally_pins (cmd : Nat) (g : TallyRun → TallyRun) : (updTally m cmd g).pins = m.pins := rfl
@[simp] theorem updTally_bup (cmd : Nat) (g : TallyRun → TallyRun) : (updTally m cmd g).bup = m.bup := rfl
@[simp] theorem updTally_comp (cmd : Nat) (g : TallyRun → TallyRun) : (updTally m cmd g).comp = m.comp := rfl
@[simp] theorem updTally_hth (cmd : Nat) (g : TallyRun → TallyRun) : (updTally m cmd g).hth = m.hth := rfl
@[simp] theorem updTally_rtn (cmd : Nat) (g : TallyRun → TallyRun) : (updTally m cmd g).rtn = m.rtn := rfl
@[simp] theorem updTally_trc (cmd : Nat) (g : TallyRun → TallyRun) : (updTally m cmd g).trc = m.trc := rfl
@[simp] theorem updTally_sth (cmd : Nat) (g : TallyRun → TallyRun) : (updTally m cmd g).sth = m.sth := rfl
@[simp] theorem updTally_rcv (cmd : Nat) (g : TallyRun → TallyRun) : (updTally m cmd g).rcv = m.rcv := rfl
@[simp] theorem updTally_lcy (cmd : Nat) (g : TallyRun → TallyRun) : (updTally m cmd g).lcy = m.lcy := rfl
@[simp] theorem updTally_peer (cmd : Nat) (g : TallyRun → TallyRun) : (updTally m cmd g).peer = m.peer := rfl

end Sys2Proof.Machine
end

