-- ==== Sys2Proof/Laws/Store.lean ====
section
/-! SUPPORT. The sparse stores: a put reads back, leaves every other key alone and keeps the canonical form; so do memory writes, and the
memories of the reset state have the form. -/

namespace Sys2Proof.Machine

variable {V : Type}

theorem Store.get_erase_same (d : V) (s : Store V) (k : Nat) : Store.get d (Store.erase s k) k = d := by
  induction s with
  | nil => rfl
  | cons p r ih =>
    obtain ⟨k', v⟩ := p
    by_cases h : k' = k
    · simp [Store.erase, h, ih]
    · simp [Store.erase, Store.get, h, ih]

theorem Store.get_erase_ne (d : V) (s : Store V) {k k' : Nat} (h : k' ≠ k) :
    Store.get d (Store.erase s k) k' = Store.get d s k' := by
  induction s with
  | nil => rfl
  | cons p r ih =>
    obtain ⟨j, v⟩ := p
    by_cases hj : j = k
    · subst hj; simp [Store.erase, Store.get, Ne.symm h, ih]
    · simp only [Store.erase, hj, if_false, Store.get, ih]

theorem Store.get_insert_same (d : V) (s : Store V) (k : Nat) (v : V) (h : ∀ p ∈ s, p.1 ≠ k) :
    Store.get d (Store.insert s k v) k = v := by
  induction s with
  | nil => simp [Store.insert, Store.get]
  | cons p r ih =>
    obtain ⟨j, w⟩ := p
    have hj : j ≠ k := h (j, w) (by simp)
    have hr : ∀ p ∈ r, p.1 ≠ k := fun p hp => h p (by simp [hp])
    by_cases hl : k < j
    · simp [Store.insert, hl, Store.get]
    · simp [Store.insert, hl, Store.get, hj, ih hr]

theorem Store.get_insert_ne (d : V) (s : Store V) {k k' : Nat} (v : V) (h : k' ≠ k) :
    Store.get d (Store.insert s k v) k' = Store.get d s k' := by
  induction s with
  | nil => simp [Store.insert, Store.get, Ne.symm h]
  | cons p r ih =>
    obtain ⟨j, w⟩ := p
    by_cases hl : k < j
    · simp [Store.insert, hl, Store.get, Ne.symm h]
    · simp only [Store.insert, hl, if_false, Store.get, ih]

theorem Store.erase_ne (s : Store V) (k : Nat) : ∀ p ∈ Store.erase s k, p.1 ≠ k := by
  induction s with
  | nil => simp [Store.erase]
  | cons p r ih =>
    obtain ⟨j, w⟩ := p
    by_cases hj : j = k
    · simpa [Store.erase, hj] using ih
    · intro q hq
      simp only [Store.erase, hj, if_false, List.mem_cons] at hq
      rcases hq with rfl | hq
      · exact hj
      · exact ih q hq

/-- A key reads as it was put. -/
@[simp] theorem Store.get_put_same [DecidableEq V] (d : V) (s : Store V) (k : Nat) (v : V) : Store.get d (Store.put d s k v) k = v := by
  unfold Store.put
  split
  · next h => rw [Store.get_erase_same, h]
  · exact Store.get_insert_same d _ k v (Store.erase_ne s k)

/-- Every other key reads as before, whatever default its reader gives. -/
theorem Store.get_put_ne [DecidableEq V] (d d' : V) (s : Store V) {k k' : Nat} (v : V) (h : k' ≠ k) :
    Store.get d' (Store.put d s k v) k' = Store.get d' s k' := by
  unfold Store.put
  split
  · exact Store.get_erase_ne d' s h
  · rw [Store.get_insert_ne d' _ v h, Store.get_erase_ne d' s h]

/-! ### The canonical form -/

/-- The form as a property: keys rise strictly, and no entry equals the default of its key. -/
theorem Store.wf_iff [DecidableEq V] (d : Nat → V) (s : Store V) :
    Store.wf d s = true ↔ s.Pairwise (fun p q => p.1 < q.1) ∧ ∀ p ∈ s, p.2 ≠ d p.1 := by
  have h : ∀ s : Store V, Store.rising s = true ↔ s.Pairwise (fun p q => p.1 < q.1) := by
    intro s
    induction s with
    | nil => simp [Store.rising]
    | cons p r ih =>
      cases r with
      | nil => simp [Store.rising]
      | cons q t =>
        simp only [Store.rising, Bool.and_eq_true, decide_eq_true_eq, ih]
        constructor
        · rintro ⟨h1, h2⟩
          refine List.pairwise_cons.2 ⟨fun x hx => ?_, h2⟩
          rcases List.mem_cons.1 hx with rfl | hx
          · exact h1
          · exact Nat.lt_trans h1 ((List.pairwise_cons.1 h2).1 x hx)
        · intro h
          exact ⟨(List.pairwise_cons.1 h).1 q (by simp), (List.pairwise_cons.1 h).2⟩
  simp [Store.wf, h]

theorem Store.erase_sub (s : Store V) (k : Nat) : List.Sublist (Store.erase s k) s := by
  induction s with
  | nil => simp [Store.erase]
  | cons p r ih =>
    obtain ⟨j, w⟩ := p
    by_cases hj : j = k
    · simpa [Store.erase, hj] using ih.cons (j, w)
    · simpa [Store.erase, hj] using ih.cons_cons (j, w)

theorem Store.mem_insert {s : Store V} {k : Nat} {v : V} {p : Nat × V} (h : p ∈ Store.insert s k v) : p = (k, v) ∨ p ∈ s := by
  induction s with
  | nil => simpa [Store.insert] using h
  | cons q r ih =>
    obtain ⟨j, w⟩ := q
    by_cases hl : k < j
    · simpa [Store.insert, hl] using h
    · simp only [Store.insert, hl, if_false, List.mem_cons] at h
      rcases h with h | h
      · exact .inr (by simp [h])
      · rcases ih h with h | h
        · exact .inl h
        · exact .inr (by simp [h])

theorem Store.insert_rises {s : Store V} (k : Nat) (v : V) (hs : s.Pairwise (fun p q => p.1 < q.1)) (hk : ∀ p ∈ s, p.1 ≠ k) :
    (Store.insert s k v).Pairwise (fun p q => p.1 < q.1) := by
  induction s with
  | nil => simp [Store.insert]
  | cons q r ih =>
    obtain ⟨j, w⟩ := q
    obtain ⟨h1, h2⟩ := List.pairwise_cons.1 hs
    have hj : j ≠ k := hk (j, w) (by simp)
    by_cases hl : k < j
    · simp only [Store.insert, hl, if_true]
      refine List.pairwise_cons.2 ⟨fun x hx => ?_, hs⟩
      rcases List.mem_cons.1 hx with rfl | hx
      · exact hl
      · exact Nat.lt_trans hl (h1 x hx)
    · simp only [Store.insert, hl, if_false]
      refine List.pairwise_cons.2 ⟨fun x hx => ?_, ih h2 (fun p hp => hk p (by simp [hp]))⟩
      rcases Store.mem_insert hx with rfl | hx
      · change j < k; omega
      · exact h1 x hx

/-- A put keeps the canonical form. -/
theorem Store.wf_put [DecidableEq V] (d : Nat → V) (s : Store V) (k : Nat) (v : V) (h : Store.wf d s = true) :
    Store.wf d (Store.put (d k) s k v) = true := by
  rw [Store.wf_iff] at h ⊢
  have he : (Store.erase s k).Pairwise (fun p q => p.1 < q.1) := h.1.sublist (Store.erase_sub s k)
  unfold Store.put
  split
  · exact ⟨he, fun p hp => h.2 p ((Store.erase_sub s k).subset hp)⟩
  · next hv =>
    refine ⟨Store.insert_rises k v he (Store.erase_ne s k), fun p hp => ?_⟩
    rcases Store.mem_insert hp with rfl | hp
    · exact hv
    · exact h.2 p ((Store.erase_sub s k).subset hp)

/-! ### Memories -/

@[simp] theorem memByte_memPut_same (m : Store Byte) (a : Nat) (b : Byte) : memByte (memPut m a b) a = b := by
  simp [memByte, memPut]

theorem memByte_memPut_ne (m : Store Byte) {a x : Nat} (b : Byte) (h : x ≠ a) : memByte (memPut m a b) x = memByte m x :=
  Store.get_put_ne _ _ m b h

theorem memPut_wf (m : Store Byte) (a : Nat) (b : Byte) (h : Store.wf (fun _ => memDefault) m = true) :
    Store.wf (fun _ => memDefault) (memPut m a b) = true := Store.wf_put (fun _ => memDefault) m a b h

/-- A memory write keeps the canonical form. -/
theorem memWrite_wf (bs : List Byte) : ∀ (m : Store Byte) (a : Nat), Store.wf (fun _ => memDefault) m = true →
    Store.wf (fun _ => memDefault) (memWrite m a bs) = true := by
  induction bs with
  | nil => exact fun m a h => h
  | cons b r ih => exact fun m a h => ih _ _ (memPut_wf m a b h)

/-- The memories of the reset state list nothing. -/
theorem reset_memories : State.reset.m.hostMem = [] ∧ State.reset.m.hbm = [] ∧ State.reset.m.coreMem = [] ∧
    Store.wf (fun _ => memDefault) State.reset.m.hostMem = true := ⟨rfl, rfl, rfl, rfl⟩

end Sys2Proof.Machine
end

