-- ==== Sys2Proof/Laws/Regs.lean ====
section
/-! SUPPORT. Registers: a register reads as it was written and leaves the others; a field reads as it was set and leaves the register's
other fields. -/

namespace Sys2Proof.Machine

@[simp] theorem hget_hput_same (m : Mach) (off : Nat) (v : W64) : hget (hput m off v) off = v := by
  simp [hget, hput]

theorem hget_hput_ne (m : Mach) {off o : Nat} (v : W64) (h : o ≠ off) : hget (hput m off v) o = hget m o :=
  Store.get_put_ne _ _ _ v h

@[simp] theorem sget_sput_same (m : Mach) (d a : Nat) (v : W64) : sget (sput m d a v) d a = v := by
  simp [sget, sput]

theorem sget_sput_ne (m : Mach) {d a d' a' : Nat} (v : W64) (h : stnKey d' a' ≠ stnKey d a) :
    sget (sput m d a v) d' a' = sget m d' a' := Store.get_put_ne _ _ _ v h

/-- Addresses of one Station below 2^24 share no key with those of another. -/
theorem stnKey_inj {d a d' a' : Nat} (ha : a < 2 ^ 24) (ha' : a' < 2 ^ 24) (h : stnKey d a = stnKey d' a') : d = d' ∧ a = a' := by
  simp only [stnKey] at h
  omega

/-- A hub register write keeps the window's canonical form. -/
theorem hput_wf (m : Mach) (off : Nat) (v : W64) (h : Store.wf (fun k => hubReset k) m.hregs = true) :
    Store.wf (fun k => hubReset k) (hput m off v).hregs = true := Store.wf_put (fun k => hubReset k) m.hregs off v h

/-- A Station register write keeps the windows' canonical form. -/
theorem sput_wf (m : Mach) (d a : Nat) (v : W64) (h : Store.wf (fun k => stnReset k) m.sregs = true) :
    Store.wf (fun k => stnReset k) (sput m d a v).sregs = true := Store.wf_put (fun k => stnReset k) m.sregs (stnKey d a) v h

/-! ### Fields -/

/-- What each bit of a register is after a field is set. -/
theorem setFld_bit (w : W64) (lo n v k : Nat) (hk : k < 64) :
    (setFld w lo n v).getLsbD k = if lo ≤ k ∧ k < lo + n then v.testBit (k - lo) else w.getLsbD k := by
  simp only [setFld, BitVec.getLsbD_or, BitVec.getLsbD_and, BitVec.getLsbD_not, BitVec.getLsbD_ofNat, hk, decide_true, Bool.true_and,
    Nat.testBit_shiftLeft, Nat.testBit_two_pow_sub_one, Nat.testBit_mod_two_pow]
  by_cases h1 : lo ≤ k
  · have h3 : k - lo < n ↔ k < lo + n := by omega
    by_cases h2 : k < lo + n <;> simp [h1, h2, h3]
  · simp [h1]

/-- Bit i of a field. -/
theorem fld_testBit (w : W64) (lo n i : Nat) : (fld w lo n).testBit i = (decide (i < n) && w.getLsbD (lo + i)) := by
  simp [fld, Nat.testBit_mod_two_pow, Nat.testBit_shiftRight, BitVec.getLsbD]

/-- A field reads as it was set, to its width. -/
@[simp] theorem fld_setFld_same (w : W64) (lo n v : Nat) (h : lo + n ≤ 64) : fld (setFld w lo n v) lo n = v % 2 ^ n := by
  apply Nat.eq_of_testBit_eq
  intro i
  rw [fld_testBit, Nat.testBit_mod_two_pow]
  by_cases hi : i < n
  · rw [setFld_bit _ _ _ _ _ (by omega), if_pos (by omega)]
    simp [hi]
  · simp [hi]

/-- A field that does not overlap the one set reads as before. -/
theorem fld_setFld_ne (w : W64) {lo n v lo' n' : Nat} (h : lo' + n' ≤ 64) (hd : lo' + n' ≤ lo ∨ lo + n ≤ lo') :
    fld (setFld w lo n v) lo' n' = fld w lo' n' := by
  apply Nat.eq_of_testBit_eq
  intro i
  rw [fld_testBit, fld_testBit]
  by_cases hi : i < n'
  · rw [setFld_bit _ _ _ _ _ (by omega), if_neg (by omega)]
  · simp [hi]

/-- A hub field reads as it was set. -/
theorem hf_setHf_same (m : Mach) (f : Fld) (v i : Nat) (h : f.lo + f.width ≤ 64) :
    hf (setHf m f v i) f i = v % 2 ^ f.width := by
  simp [hf, setHf, h]

/-- A field of another hub register reads as before. -/
theorem hf_setHf_off (m : Mach) {f g : Fld} (v : Nat) {i j : Nat} (h : g.off j ≠ f.off i) : hf (setHf m f v i) g j = hf m g j := by
  simp only [hf, setHf, hget_hput_ne m _ h]

/-- Another field of the same hub register reads as before. -/
theorem hf_setHf_ne (m : Mach) {f g : Fld} (v : Nat) {i j : Nat} (ho : g.off j = f.off i) (h : g.lo + g.width ≤ 64)
    (hd : g.lo + g.width ≤ f.lo ∨ f.lo + f.width ≤ g.lo) : hf (setHf m f v i) g j = hf m g j := by
  simp only [hf, setHf, ho, hget_hput_same]
  exact fld_setFld_ne _ h hd

/-- Setting a hub field leaves every other register. -/
theorem hget_setHf_ne (m : Mach) {f : Fld} (v : Nat) {i o : Nat} (h : o ≠ f.off i) : hget (setHf m f v i) o = hget m o :=
  hget_hput_ne m _ h

end Sys2Proof.Machine
end

