-- ==== Sys2Proof/Laws/Rows.lean ====
section
/-! SUPPORT. What each shared row of the table does, said once: when it acts, when it leaves the machine, and that it answers a next state. -/

namespace Sys2Proof.Machine

/-! ### Frames at a Station -/

/-- A good frame of the row's type that is for the Station acts. -/
theorem rxRow_good {die ty : Nat} {f : Frame} {s : State} {g : Mach → Mach} (h : rxGood s.m die f ty = true) :
    rxRow die f .good ty s g = .next { s with m := g (rxTaken s.m die f) } := by
  simp only [rxGood, Bool.and_eq_true, decide_eq_true_eq, beq_iff_eq, Bool.not_eq_true'] at h
  obtain ⟨⟨⟨⟨⟨h1, h2⟩, h3⟩, h4⟩, h5⟩, h6⟩ := h
  rw [rxRow, if_neg (Nat.not_le.2 h1), if_neg (by simp [h2, h3])]
  simp only [rxFrame, rxTaken, h4, h6]
  have h5' : ((decide (posOf die = 0) && f.wrapped && !isGather f) = false) := h5
  simp only [h5', if_false, Bool.not_true, Bool.false_eq_true]
  split <;> rfl

/-- A frame row of a die the package has answers a next state. -/
theorem rxRow_next {die : Nat} (f : Frame) (e : FrameEnd) (ty : Nat) (s : State) (g : Mach → Mach) (h : die < 100) :
    ∃ m, rxRow die f e ty s g = .next { s with m := m } := by
  unfold rxRow
  rw [if_neg (Nat.not_le.2 h)]
  split <;> exact ⟨_, rfl⟩

/-- A frame row faults exactly for a die the package does not have. -/
theorem rxRow_fault {die : Nat} (f : Frame) (e : FrameEnd) (ty : Nat) (s : State) (g : Mach → Mach) (h : 100 ≤ die) :
    rxRow die f e ty s g = .fault .noSuchUnit := by
  simp [rxRow, h]

/-! ### Frames at the hub -/

/-- A good frame of the row's type, from the die named, acts. -/
theorem hubRow_good {die ty : Nat} {f : Frame} {s : State} {g : Mach → Mach} (hd : die < 100) (ht : f.ftype = ty) (hs : f.src = die) :
    hubRow die f .good ty s g = .next { s with m := g s.m } := by
  simp [hubRow, Nat.not_le.2 hd, ht, hs]

theorem hubRow_next {die : Nat} (f : Frame) (e : FrameEnd) (ty : Nat) (s : State) (g : Mach → Mach) (h : die < 100) :
    ∃ m, hubRow die f e ty s g = .next { s with m := m } := by
  unfold hubRow
  rw [if_neg (Nat.not_le.2 h)]
  split
  · exact ⟨_, rfl⟩
  split
  · exact rxRow_next f e ty s _ h
  · cases e <;> exact ⟨_, rfl⟩

/-! ### The scan port and the sideband -/

theorem scanRow_next (hello : Bool) (b : List Byte) (e : ScanEnd) (s : State) (f : Mach → Mach) :
    ∃ m, scanRow hello b e s f = .next { s with m := m } := ⟨_, rfl⟩

theorem mctpRow_takes {h : MctpHeader} {s : State} {f : Mach → Mach} (ht : mctpTakes s.m h = true) :
    mctpRow h s f = .next { s with m := f s.m } := by simp [mctpRow, ht]

theorem mctpRow_next (h : MctpHeader) (s : State) (f : Mach → Mach) : ∃ m, mctpRow h s f = .next { s with m := m } := by
  unfold mctpRow
  split <;> exact ⟨_, rfl⟩

theorem i3cRead_next (s : State) (f : Mach → List Byte) : ∃ m, i3cRead s f = .next { s with m := m } := by
  unfold i3cRead
  split <;> exact ⟨_, rfl⟩

/-! ### Steps of Routines -/

theorem stepRow_next (index : Nat) (ops : List Nat) (s : State) (g : Mach → Run → Routine → StepF → Mach) :
    ∃ m, stepRow index ops s g = .next { s with m := m } := by
  unfold stepRow
  dsimp only
  repeat' split
  all_goals exact ⟨_, rfl⟩

/-- A step of one of the row's opcodes, at a boundary of a run that has made fewer than 65,536, is counted and taken. -/
theorem stepRow_taken {run op : Nat} {ops : List Nat} {s : State} {r : Run} {y : Routine} {x : StepF}
    {g : Mach → Run → Routine → StepF → Mach} (h : stepReady s.m run op r y x) (ho : ops.contains op = true) (hn : r.steps < 65536) :
    stepRow run ops s g = .next { s with m := g (stepTaken s.m run x) (runTaken r x) y x } := by
  obtain ⟨h1, h2, h3, h4, h5, v, h6, rfl, rfl⟩ := h
  have hc : (r.executing && atBoundary r && r.result.isNone && ops.contains (stepOf v).op) = true := by
    rw [h3, h4, h5, ho]; rfl
  simp only [stepRow, h1, h2, h6]
  rw [if_pos hc, if_neg (Nat.not_le.2 hn)]
  rfl

/-- A step row of an index that no run has leaves the machine. -/
theorem stepRow_absent {index : Nat} {ops : List Nat} {s : State} {g : Mach → Run → Routine → StepF → Mach}
    (h : runOf s.m index = none) : stepRow index ops s g = .next s := by simp [stepRow, h]

/-! ### Tokens -/

/-- A token that is seen for the first time, undamaged and of the row's type, acts. -/
theorem tokenRow_new {die port ty : Nat} {b : List Byte} {s : State} {t : Token} {g : Mach → Token → Mach} (hd : die < 100)
    (hp : port < portsOf die) (hf : farEnd die port = none) (hs : hubStopped s.m = false) (hb : tokenOf b = some t) (ht : t.ttype = ty)
    (hn : s.m.rcv.seen.contains (t.origin, t.seq) = false) :
    tokenRow die port b ty s g = .next { s with m := g (tokenTaken s.m t) t } := by
  have h1 : ¬ (100 ≤ die ∨ portsOf die ≤ port ∨ (farEnd die port).isSome = true) := by simp [hf]; omega
  have h2 : ¬ ((t.ttype != ty || s.m.rcv.seen.contains (t.origin, t.seq)) = true) := by rw [hn, ht]; simp
  unfold tokenRow tokenTaken
  rw [if_neg h1, if_neg (by simp [hs]), hb]
  simp only [h2]
  rfl

theorem tokenRow_next {die port : Nat} (b : List Byte) (ty : Nat) (s : State) (g : Mach → Token → Mach) (hd : die < 100)
    (hp : port < portsOf die) (hf : farEnd die port = none) : ∃ m, tokenRow die port b ty s g = .next { s with m := m } := by
  have h1 : ¬ (100 ≤ die ∨ portsOf die ≤ port ∨ (farEnd die port).isSome = true) := by simp [hf]; omega
  unfold tokenRow
  rw [if_neg h1]
  dsimp only
  repeat' split
  all_goals exact ⟨_, rfl⟩

/-! ### The issuer and the first failing check -/

@[simp] theorem hostIssuer_port (p : Pkt) : (hostIssuer p).port = p.port := by
  unfold hostIssuer
  split
  · next h => exact h.symm
  · rfl

/-- The checks of a command all pass exactly when none fails. -/
theorem firstStatus_passes (l : List (Bool × Nat)) (d : Nat) (h : ∀ x ∈ l, x.1 = false) : firstStatus l d = d := by
  induction l with
  | nil => rfl
  | cons x r ih =>
    obtain ⟨b, v⟩ := x
    have hb : b = false := h (b, v) (by simp)
    subst hb
    simpa [firstStatus] using ih (fun y hy => h y (by simp [hy]))

/-- The first check that fails gives the status. -/
theorem firstStatus_fails (l r : List (Bool × Nat)) (v d : Nat) (h : ∀ x ∈ l, x.1 = false) :
    firstStatus (l ++ (true, v) :: r) d = v := by
  induction l with
  | nil => rfl
  | cons x t ih =>
    obtain ⟨b, w⟩ := x
    have hb : b = false := h (b, w) (by simp)
    subst hb
    simpa [firstStatus] using ih (fun y hy => h y (by simp [hy]))

end Sys2Proof.Machine
end

