-- ==== Sys2Proof/Tests/Slice0.lean ====
section
/-! SUPPORT. The package's own tests: ill-formed commands that the checks refuse, values that the spec states, and for each
statement of Obligations.lean states and operands that meet its hypotheses. -/

open Sys2Proof Sys2Proof.Machine

namespace Sys2Proof.Tests

set_option Elab.async false
set_option maxRecDepth 100000
set_option linter.unusedVariables false

/-- Surroundings in which every die is present and nothing fails. -/
def env : StartEnv :=
  { fwGood := 15, flashes := none, badRegions := 0, tod := none, present := 2 ^ 100 - 1, wires := [], trunks := [], temps := [],
    bootSilent := 0, bootMiss := [], training := [], failing := [], hampers := [], chans := [], dirs := [], regs := [], jobPorts := 0,
    overBudget := 0, ms := 0, warmMs := 0 }

/-- A machine whose Stations are all present and answer, the ledger hiding every die but 0 and 64; core 0 of die 0 is bound to
partition 0. -/
def live : Mach :=
  let m := (List.range 4).foldl (fun m k => setHf m R.SPN_RING_STAT_REACH (2 ^ 25 - 1) k) { }
  let m := setHf (setHf m R.SPN_STATUS_RING_UP 15) R.SPN_TRUNK_TRUNK_UP 15
  setSf { m with bup := { m.bup with env := some env, hiddenDies := 2 ^ 100 - 2 - 2 ^ 64 }, pins := { m.pins with holdupOk := true } } 0 R.STN_BIND_BOUND 1 0

/-- A descriptor of a kind with index 1, generation 1 and Session 1 as its owner (Table 10.2). -/
def desc (kind : Nat) (b : List Byte) : List Byte := leBytes 4 (1 + kind * 2 ^ 20 + 2 ^ 23) ++ leBytes 4 1 ++ b

/-- A machine with the host's tables at 0x1000 (Sessions) to 0x5000 (streams), and in each a current object 1: handle 0x1001. The buffer
is 1 MiB at 0x10000, read and written. -/
def rooted (m : Mach) : Mach :=
  let b := memWrite [] 0x1100 (desc 0 [])
  let b := memWrite b 0x2020 (desc 1 (leBytes 8 0x10000 ++ leBytes 8 0x100000 ++ [3]))
  let b := memWrite b 0x3020 (desc 2 [])
  let b := memWrite b 0x4020 (desc 3 [])
  let b := memWrite b 0x5020 (desc 4 [])
  { m with hostMem := b, host := { m.host with root := some { bases := [0x1000, 0x2000, 0x3000, 0x4000, 0x5000],
                                                               counts := List.replicate 5 16 } } }

/-- A packet of Session 1 of its port. -/
def pk (port : Port) (b : List W32) : Pkt := { port := port, session := 1, cookie := 7, body := b }

/-- The state of machine m in which the packet is the next of its lane, with level 4 over partitions 0 and 255 (there by the analysis key). -/
def ready (m : Mach) (op : Nat) (p : Pkt) (isOpen : Bool := true) : State :=
  let x : Session := { sid := pktSid p, handle := p.session, port := p.port, open_ := isOpen,
                       levels := [(0, { level := 4 }), (255, { level := 4, root := 3, whole := true })] }
  let l := if laneSid (pktSid p) = pktSid p then [{ x with ready := [(op, p)] }]
           else [{ sid := laneSid (pktSid p), handle := 0, port := p.port, ready := [(op, p)] }, x]
  { pending := [], m := { m with host := { m.host with sessions := l } } }

/-- A state of a machine. -/
def st (m : Mach) : State := { pending := [], m := m }

/-- A machine with a dump in slot 0. -/
def withDump (x : Dump) : Mach := let m := rooted live; { m with sth := { slots := [(0, some x)] } }

/-- A Quire of die 0 that holds core 0, whose engine 0 has a halt record, and the Cut Buffer of its port 0. -/
def quire0 : Quire :=
  { die := 0, q := 0, stack := 0, hrecs := [leBytes 4 0x20 ++ zeros 12],
    entries := [{ unit := 0xA0, region := 0, cls := 6, flags := 0, folio := 0, length := 0 }] }

/-- A machine in which no die is hidden, core 0 of die 0 is halted and its port 0 is bound to partition 0 and frozen. -/
def halted (m : Mach) : Mach :=
  let m := setSf (setTf m 0 0 R.TAP_RUN_STATE_STATE 0x2222) 0 R.STN_BIND_BOUND 1 144
  updStn { m with bup := { m.bup with hiddenDies := 0 } } 0 (fun x => { x with cuts := [(0, { frozen := true })] })

/-- A stream of Session 1 over partition 0 in a state. -/
def stream0 (st horizon : Nat) : Stream :=
  { handle := 0x1001, sid := 1, scope := { kind := 4, part := 0, unit := 0, epoch := 0, parts := 1 }, state := st, mode := 0, cls := 1,
    types := 1, engMask := 15, sample := 0, links := false, rangeEn := 0, frames := 1, dir := 0, vc := 0, spill := 0, spillLen := 0,
    ranges := [], dies := [0], horizon := horizon }

/-- A machine with it in slot 7. -/
def withStream (st horizon : Nat) : Mach := let m := rooted live; { m with trc := { m.trc with slots := [(7, some (stream0 st horizon))] } }

/-- A resident Routine of Session 1. -/
def routine0 : Routine :=
  { handle := 0x1001, sid := 1, scopes := [], steps := [0], paramBytes := 0, name := 0, crc := 0, image := 0, imageOff := 0,
    imageLen := 80, save := 0, saveOff := 0 }

/-- A machine with it. -/
def withRoutine : Mach := let m := rooted live; { m with rtn := { m.rtn with routines := [routine0] } }

/-- A trigger of Session 1 on its doorbell, which notifies. -/
def trigger0 : Trigger :=
  { sid := 1, cookie := 7, source := 6, action := 2, oneshot := false, outEn := false, outPin := 0, reanchor := false, falling := false,
    pin := 0, routine := 0, part := 0, period := 0, phase := 0, advanceUs := 0, scope := [0, 0, 0, 0] }

/-- A Routine image of one END step, named 5. -/
def image : List Byte :=
  let h := leBytes 4 0x454E5452 ++ [1, 0] ++ leBytes 2 1 ++ zeros 8 ++ leBytes 8 5 ++ zeros 36
  h ++ leBytes 4 (crc32c (h ++ leBytes 16 (0xFFFF * 2 ^ 96))) ++ leBytes 16 (0xFFFF * 2 ^ 96)

/-- Its header. -/
def imageH : ImageHead := { scopes := 0, steps := 1, params := 0 }

/-- A machine with a licence in the host's buffer, and the digest of the licence key that signed it in OTP. The signature was made for this
test: its nonce point and key were chosen so that the scalars are small. -/
def withLicence : Mach :=
  let s := leBytes 48 0x4D56A715789A56F0D9417F12E47B97B321D9D14849F6BF37108E262D17F744BC31ACA44E1CDE7A5193CACC023D12794
  let l := leBytes 128 0x5050501000000000000000000000000000000000000000000000000030000000000000000000000014E43494C ++ s ++ s
  let m := rooted live
  { m with hostMem := memWrite m.hostMem 0x10000 l,
           lcy := { m.lcy with digests := [(0, leBytes 48
             0x6DC371E04A9333643C5A83B2790957AEB56EF33BB2FA83D530F1E2F833BC417CB63D7DEE227034B46E6CA12AC1C48B21)] } }

/-- A frame to a die, from it as well. -/
def frame (ty die : Nat) (payload : List Byte := []) (word1 : W64 := 0) (len : Nat := 0) : Frame :=
  { ftype := ty, dest := die, src := die, word1 := word1, payload := payload, len := len }

/-- A command that executes. -/
def cmd0 (op : Nat) (b : List W32 := []) : Cmd :=
  { id := 1, origin := .session 1, sid := 1, port := .host, op := op, cookie := 7, body := b,
    scope := { kind := 4, part := 0, unit := 0, epoch := 0, parts := 1 } }

/-- A machine at GTC t in which it executes. -/
def withCmd (t : Nat) (c : Cmd) : Mach := { live with cmds := [c], time := { live.time with gtc := BitVec.ofNat 64 t } }

/-- An arm at T of Station 0. -/
def arm0 (t : Nat) (stitch : Bool := false) : Arm :=
  { armId := 9, t := t, stitch := stitch, action := 1, kind := 4, flags := 0, unit := 0, parts := 1, p0 := 0, p1 := 0 }

/-- A machine in which Station 0 holds an arm. -/
def armed (a : Arm) : Mach := updStn live 0 (fun x => { x with wpts := [a] })

/-- A request of the hub and a gather. -/
def req0 : OutReq := { tag := 5, ring := 3, cmd := 1, tries := 0, due := 0, req := { die := 0, frame := frame 1 0 } }
def gather0 : OutGather :=
  { tag := 5, ring := 3, gkind := 0, query := 0, len := 4, cmd := 1, copies := 1, visited := 0, init := [], acc := [], due := 0, tries := 0 }

/-- An event of Station 63. -/
def event0 : Ev := { code := EvCode.wptExpired, source := 0, stamp := 0, detail := [] }

/-- A binding of core 127 of die 63. -/
def bind0 (bound : Bool := true) : BindMsg :=
  { unit := 0x7FFC20, ch := 0, bound := bound, part := 255, epoch := 1, leftValid := false, left := 0, leftEpoch := 0, digest := zeros 48 }

/-- A challenge block for level 2 over partition 0 (Table 14.8). -/
def challenge : List Byte :=
  leBytes 4 0x4C414843 ++ [1, 2, 0, 0] ++ leBytes 4 1 ++ zeros 20 ++ leBytes 32 1 ++ zeros 64

/-- The words of an AUTH_RESPONSE to it: the manufacturing root's key, one credential for a leaf key, and the leaf's signature (Tables 14.9,
14.12). Keys and signatures were made for this test, with small scalars. -/
def response : List W32 :=
  let sc := leBytes 48 0x444AAF1865E81F94BFC14B046B28809A1373FD5FE38F7E774CD2F4607C268A29AAF8DECB5F1C08723558491A9A3B7764
  let sl := leBytes 48 0x31F5B120C8A6D42394D739D11E3B9615CF155A6DB561D5A17A53C988ED83087BA27936026BDC6AF14CF86C52C0126947
  let c := leBytes 4 0x44455243 ++ [1, 1, 4, 0] ++ zeros 16 ++ leBytes 8 (2 ^ 64 - 1) ++ leBytes 32 (2 ^ 256 - 1) ++ leBytes 96 0xD7A4D32C192BDDE1BABE2A246BA6B004E9942699B6AE8209A781EDE0CB5DEB19D78881F7F0F6784F4D1374DB5AD12AADBA8DA5861C477E50BA6BDBD03D2E215CD14156B097BB79984F8E179CD2494E9611E4212FE57AD7AEED291DB1A690E731
  1 :: bytesWords (leBytes 96 0x68401B76F81688622B439B0057B24775AD645905FAC9D510F2EFA698E05ED5EC4FCF8A03247A98B4CD28BEBEFF62F0228D1FFAE9E9F7D94DD01BA7D8057721D6758F2C5306EB69813438A61AA9F6A657DAF312C875A63AC54B7E46E551EE4F2 ++ c ++ sc ++ sc ++ sl ++ sl)

/-- Session 1 about to send it, the digest of the root's key in OTP. -/
def responding : State :=
  let s := ready live 0x0A02 (pk .host response)
  let x := s.m.host.sessions.map (fun y => { y with challenge := some (0, challenge) })
  { s with m := { s.m with host := { s.m.host with sessions := x }, lcy := { s.m.lcy with digests := [(1, leBytes 48 0xA029B24A153EE6941AAF583920FED35B98C4D7993B09F5FB3C96DF72403D7E321088987C07BF4F88332CA9C25DA43CDF)] } } }

/-- A run of Session 1's Routine, and the machine in which it stands before a step of value v; the Routine has one scope, partition 0. -/
def run0 : Run := { index := 1, routine := 0x1001, sid := 1, executing := true }
def stepping (v : Nat) : Routine := { routine0 with steps := [v], scopes := [[4, 0, 0, 0]] }
def running (v : Nat) (r : Run := run0) : State :=
  let s := ready live 0x0104 (pk .host [])
  { s with m := { s.m with rtn := { s.m.rtn with routines := [stepping v], runs := [r] } } }

/-- A Capture in slot 7, and a machine in which Station 0 takes it and port 4 of die 0 records for it. -/
def cap0 : Cap := { fired := true }
def capturing : Mach :=
  let m := setSf live 0 R.STN_CUT_STAT_STATE 1 4
  updStn m 0 (fun x => { x with caps := [(7, some cap0)], cuts := [(4, { slot := 7 })] })

/-- A machine with a Dump in slot 7. -/
def withDump7 (x : Dump) (t : Nat) : Mach :=
  let m := capturing
  { m with sth := { slots := [(7, some x)] }, time := { m.time with gtc := BitVec.ofNat 64 t } }

/-- A write-back of a NaN in BF16, and a Tally of one part. -/
def nan0 : WriteBack :=
  { format := 2, elems := [{ bits := 0x7FC0, addr := 0, saturated := false, scale := 0 }], clid := 0, entry := 0, privileged := false,
    cycles := 0 }
def part0 : TallyPart := { entry := 0, die := 0, addr := 0, len := 0, first := 0, saddr := 0, slen := 0, active := true }
def tally0 : TallyRun := { cmd := 1, format := 2, uns := false, parts := [part0] }

/-- A machine in which Tap 127 of die 63 and port 4 of die 63 feed stream 7. -/
def tracing : Mach :=
  let m := setSf (setSf (withStream 3 16) 63 R.STN_BIND_BOUND 1 127) 63 R.STN_BIND_PART 0 127
  let m := setTf (setTf m 63 127 R.TAP_TRC_CTL_EN 1) 63 127 R.TAP_TRC_CTL_SLOT 7
  let m := setTf (setTf m 63 127 R.TAP_TRC_CTL_TYPES 8) 63 127 R.TAP_TRC_CTL_ENGMASK 8
  let m := setSf (setSf m 63 R.STN_TRC_LINK_EN 1 4) 63 R.STN_TRC_LINK_SLOT 7 4
  let m := setSf (setSf m 63 R.STN_TRC_LINK_DIR 2 4) 63 R.STN_TRC_LINK_VC 0x80 4
  updStn m 63 (fun x => { x with streams := [(7, { running := true, horizon := some 8 })], frames := [(5, some { slot := 7, state := 2 })] })

def merge0 : Merge := { low := 0, high := 0, present := true }

/-- A machine at GTC t with Session 1 of a port, as a change leaves it. -/
def session (port : Port) (t : Nat) (g : Session → Session) : State :=
  let x : Session := { sid := sidOf port 1, handle := 1, port := port, open_ := true }
  st { live with host := { live.host with sessions := [g x] }, time := { live.time with gtc := BitVec.ofNat 64 t } }

/-- A serving machine with a probe attached to the scan port, whose instruction register selects the stream. -/
def probed : Mach := { live with scan := { live.scan with ir := 0x20, attached := true } }

/-- A machine whose I3C target has address 127 and whose peer's heartbeat is present. -/
def tray : Mach := let m := setHf live R.HUB_STATUS_PEER_OK 1
                   { m with side := { m.side with addr := some 127 }, peer := { m.peer with present := true } }

/-- A machine at GTC t with an escalation of partition k. -/
def escalated (k t : Nat) (x : Esc) : State :=
  st { live with rcv := { live.rcv with escs := [(k, some x)] }, time := { live.time with gtc := BitVec.ofNat 64 t } }

/-- A machine in which watchdog 511 of Station 63 is as given. -/
def watched (x : Wdt) : State := st (updStn live 63 (fun y => { y with wdts := [(511, x)] }))

/-- A token of type ty, and what it reads as. -/
def token (ty : Nat) (payload : List Byte) : List Byte := tokenBytes { } ty 255 255 5 0xFFFFFFFF 100 payload
def tokenRead (ty : Nat) (payload : List Byte) : Token :=
  { ttype := ty, void := false, origin := 255, hops := 255, job := 5, seq := 0xFFFFFFFF, t := 100, payload := payload }

/-- A command packet for a job: HALT with cookie 7. -/
def jobHalt : List W32 := [0x0201100B, 0, 7, 0, 6, 5, 0, 0, 0, 0, 0]

/-- A reply record for cookie 7. -/
def reply0 : List W32 := [0x0000100A, 0, 7, 0, 0, 0, 0, 0x0201, 0, 0]

/-- The Session of `ready` while it is not open; the sideband's lane; its Session 1. -/
def shutSession : Session :=
  { sid := 1, handle := 1, port := .host, ready := [(0x0102, pk .host [])],
    levels := [(0, { level := 4 }), (255, { level := 4, root := 3, whole := true })] }
def sideLane : Session :=
  { sid := 2 * 2 ^ 32, handle := 0, port := .sideband, ready := [(0x0A01, pk .sideband [])] }
def sideOpen : Session :=
  { sid := 2 * 2 ^ 32 + 1, handle := 1, port := .sideband, open_ := true,
    levels := [(0, { level := 4 }), (255, { level := 4, root := 3, whole := true })] }

/-- A reset machine with two commands in its queue, the first of which finds nothing to do. -/
def queued : State := { State.reset with pending := [.credentialExpiry, .refLoss] }

/-! ### Ill-formed commands, one for each check of WellFormed.lean -/

/-- A RD_REQ-like frame whose fields all fit. -/
def fitFrame : Frame := { ftype := 1, dest := 27, src := 96, word1 := 0 }

theorem test_fit_frame : (Instr.rdReq 27 fitFrame .good).wf = true := by decide
theorem test_die_100 : (Instr.stationFault 100).wf = false := by decide
theorem test_tap_of_memory_die : (Instr.tapFault 64 0).wf = false := by decide
theorem test_tap_128 : (Instr.tapFault 0 128).wf = false := by decide
theorem test_engine_4 : (Instr.stepLimit 0 0 4).wf = false := by decide
theorem test_port_5_of_compute_die : (Instr.linkLayerError 0 5).wf = false := by decide
theorem test_port_2_of_memory_die : (Instr.linkLayerError 64 2).wf = false := by decide
theorem test_inner_port_token : (Instr.abortToken 96 7 []).wf = false := by decide
theorem test_outer_port_of_compute_die : (Instr.abortToken 95 8 []).wf = false := by decide
theorem test_hub_array_die : (Instr.secdedError { array := .stationRegister, die := 100, place := 0, sub := 0, uncorrectable := true }).wf
    = false := by decide
theorem test_tap_register_array : (Instr.secdedError { array := .tapRegister, die := 0, place := 128, sub := 0, uncorrectable := true }).wf
    = false := by decide
theorem test_cut_buffer_array : (Instr.secdedError { array := .cutBuffer, die := 0, place := 5, sub := 0, uncorrectable := false }).wf
    = false := by decide
theorem test_packet_4095_words : (Instr.nopCmd (pk .host (List.replicate 4091 0))).wf = false := by
  simp [Instr.wf, pktWf, pk]
theorem test_frame_type_16 : (Instr.rdReq 27 { fitFrame with ftype := 16 } .good).wf = false := by decide
theorem test_frame_dir_2 : (Instr.rdReq 27 { fitFrame with dir := 2 } .good).wf = false := by decide
theorem test_frame_dest_128 : (Instr.rdReq 27 { fitFrame with dest := 128 } .good).wf = false := by decide
theorem test_frame_src_128 : (Instr.rdReq 27 { fitFrame with src := 128 } .good).wf = false := by decide
theorem test_frame_part_256 : (Instr.rdReq 27 { fitFrame with part := 256 } .good).wf = false := by decide
theorem test_frame_len_257 : (Instr.rdReq 27 { fitFrame with len := 257 } .good).wf = false := by decide
theorem test_frame_tag_65536 : (Instr.rdReq 27 { fitFrame with tag := 65536 } .good).wf = false := by decide
theorem test_frame_payload_257 : (Instr.rdReq 27 { fitFrame with payload := List.replicate 257 0 } .good).wf = false := by
  decide +kernel
theorem test_transaction_engine_4 : (Instr.tapTraceRecord 0 0 
    { engine := 4, ttype := 0, addr := 0, bytes := 0, err := false,
      privileged := false, secure := false, cycles := 0 }).wf = false := by decide
theorem test_transaction_type_4 : (Instr.tapTraceRecord 0 0 
    { engine := 0, ttype := 4, addr := 0, bytes := 0, err := false,
      privileged := false, secure := false, cycles := 0 }).wf = false := by decide
theorem test_link_vc_8 : (Instr.linkTraceRecord 0 0 
    { outgoing := false, vc := 8, bytes := 0, err := false, secure := false,
      header := [] }).wf = false := by decide
theorem test_link_header_9 : (Instr.linkTraceRecord 0 0 
    { outgoing := false, vc := 0, bytes := 0, err := false, secure := false,
      header := List.replicate 9 0 }).wf = false := by decide
theorem test_bind_partition_256 : (Instr.bindMsg { bind0 with part := 256 }).wf = false := by decide +kernel
theorem test_bind_digest_47 : (Instr.bindMsg { bind0 with digest := zeros 47 }).wf = false := by decide +kernel
theorem test_owner_digest_49 : (Instr.ownerMsg 0 (zeros 49) .host).wf = false := by decide +kernel
theorem test_boundary_clid : (Instr.engineBoundary 0 0 0 
    { clid := 65536, entry := 0, midEntry := false, inSequence := false,
      lockHeld := false }).wf = false := by decide
theorem test_mctp_tag_8 : (Instr.getEndpointId { srcEid := 0, dstEid := 0, tag := 8, mctpInstance := 0 }).wf = false := by decide
theorem test_doorbell_2_bytes : (Instr.doorbell 2 0).wf = false := by decide
theorem test_read_16_bytes : (Instr.rcRead 0 16).wf = false := by decide
theorem test_write_beyond_window : (Instr.registerWrite 65536 8 0).wf = false := by decide
theorem test_ring_4 : (Instr.calibration 4).wf = false := by decide
theorem test_position_25 : (Instr.retrain 0 25 true).wf = false := by decide
theorem test_trunk_4 : (Instr.trunkDown 4).wf = false := by decide
theorem test_direction_2 : (Instr.shareRelease 0 2).wf = false := by decide
theorem test_rung_257 : (Instr.rungEnd 257).wf = false := by decide
theorem test_slot_8 : (Instr.mergeDiscard 8).wf = false := by decide
theorem test_hamper_folio : (Instr.hamperClaim 0 172032).wf = false := by decide
theorem test_sentinel_of_cx : (Instr.sentinelMatch 0 0 0 nan0).wf = false := by decide +kernel
theorem test_trigger_64 : (Instr.pendingFiring 64).wf = false := by decide
theorem test_pin_4 : (Instr.trigOutEnd 4).wf = false := by decide

/-! ### Values that the spec's text and worked examples state -/

/-- The ASCII digits 1 to 9. -/
def digits : List Byte := (List.range 9).map (fun k => BitVec.ofNat 8 (0x31 + k))

/-- R42. -/
theorem test_crc32c_check : crc32c digits = 0xE3069283 := by decide +kernel

/-- The check value of lane A of a digest (chapter 7): initial value and final XOR all ones. -/
theorem test_crc64_check : crc64Run polyA (2 ^ 64 - 1) digits ^^^ (2 ^ 64 - 1) = 0x995DC9BBDF1939FA := by decide +kernel

/-- SHA-384 of "abc" begins CB 00 75 3F (FIPS 180-4). -/
theorem test_sha384_abc : (Sha.sha384 [0x61, 0x62, 0x63]).take 4 = [0xCB, 0x00, 0x75, 0x3F] := by decide +kernel

/-- Example 1.1. -/
theorem test_unit_paths :
    mkPath 2 27 3 5 2 0 = 0x0236D600 ∧ mkPath 2 27 3 5 0 1 = 0x0236D420 ∧ mkPath 2 27 3 5 0 0 = 0x0236D400 ∧
    mkPath 2 27 3 5 1 0 = 0x0236D500 := by decide +kernel

/-- The machine of package 2 of a job. -/
def inPkg2 : Mach := setHf { } R.HUB_PKG_PKG_NUM 2

/-- Example 1.1: the two endpoints of the memory-facing link of die 27. -/
theorem test_port_paths : portPath inPkg2 27 4 = 0x023610A0 ∧ portPath inPkg2 77 1 = 0x029A04A0 := by decide +kernel

/-- Example 1.2. -/
theorem test_stn_id : stnIdReset 27 = 0x000000050080041B ∧ stnIdReset 77 = 0x000000020000054D := by decide +kernel

/-- Example 4.2: T = 0 at GTC 5,000,000 with the lead of kind 4. -/
theorem test_waypoint : resolveT { time := { gtc := 5000000 } } (leadOf 4) 0 = 5010000 := by decide +kernel

/-- Example 6.1: block 1. -/
def bf16Block : List Byte :=
  (List.range 128).flatMap (fun _ => [0x80, 0x3F]) ++ zeros 1792 ++
    (List.range 64).flatMap (fun i => [BitVec.ofNat 8 (4 * i), BitVec.ofNat 8 (0x3C + i % 4)])

/-- Example 6.1: PLEN 84; the header but for the CRC, the modes and the first bytes of the payload; zeros from byte 124; and back. -/
theorem test_encode_bf16 :
    (match encodeBlock bf16Block 2176 1 0 8 0 5 with
     | .slot b n =>
       n == 84 && b.length == 512 && b.take 8 == [0xA5, 0x10, 0x01, 0x08, 0x80, 0x08, 0x54, 0x00] &&
       (b.drop 12).take 34 == [5, 0, 0, 0, 0x0A, 0, 0, 0, 0, 0, 3, 0, 0, 0, 0, 0, 0x0A, 0, 0, 0, 0, 0, 4, 0, 0, 0, 0, 0,
                               0x3F, 0x3C, 0x02, 0xE4, 0xE4, 0xE4] &&
       (b.drop 59).take 4 == [0x80, 0x00, 0x04, 0x08] && b.drop 124 == zeros 388 &&
       decodeSlot b 8 (some 5) == .bytes bf16Block
     | _ => false) = true := by decide +kernel

/-- Example 7.1: the two sums of 4,093 elements of 0.5 as doubles. The example writes the digits 0x409FFD and 0x408FFD for them, against
R223, by which 2,046.5 is 0x409FFA0000000000. -/
theorem test_tally_sums : toF64 false (4093 * 2 ^ 148) 149 = 0x409FFA0000000000 ∧ toF64 false (4093 * 2 ^ 296) 298 = 0x408FFA0000000000 := by
  decide +kernel

/-- Example 8.1: the seven records of SRC 0x35. -/
theorem test_trace_records :
    traceBytes (.sync 1 0x4000010000) 0x35 6000000000 0 0 =
      [0x21, 0x35, 0, 0, 1, 0, 0x40, 0, 0, 0, 0, 0xBC, 0xA0, 0x65, 1, 0, 0, 0] ∧
    traceBytes (.tx 0 0x1A 0x4000010000) 0x35 6000000000 6000000000 0x4000010000 = [0x10, 0x35, 0x1A, 0, 0] ∧
    traceBytes (.tx 0 0x1A 0x4000010040) 0x35 6000000003 6000000000 0x4000010000 = [0x10, 0x35, 0x1A, 3, 0x80, 1] ∧
    traceBytes (.tx 1 0x1D 0x400000FF80) 0x35 6000000013 6000000003 0x4000010040 = [0x11, 0x35, 0x1D, 10, 0xFF, 2] ∧
    traceBytes (.redact 3 9) 0x35 6000000029 6000000013 0x400000FF80 = [0x50, 0x35, 0x10, 3, 9] ∧
    traceBytes (.mark 42) 0x35 6000000040 6000000029 0x400000FF80 = [0x70, 0x35, 0x0B, 0x2A] ∧
    traceBytes (.halt 5 2) 0x35 6000000100 6000000040 0x400000FF80 = [0x85, 0x35, 2, 0x3C] := by decide +kernel

/-- Example 9.1: steps 0, 1 and 5. -/
theorem test_steps :
    stepOf 0x081AFFFF000000800000000000000000 = { op := 8, flags := 0x1A, scope := 0xFFFF, a := 0x80, b := 0 } ∧
    (stepOf 0x081AFFFF000000800000000000000000).toScratch = true ∧ (stepOf 0x081AFFFF000000800000000000000000).tmode = 2 ∧
    (stepOf 0x081AFFFF000000800000000000000000).follow = true ∧
    stepOf 0x0F00FFFF000202180000000000000000 = { op := 0x0F, flags := 0, scope := 0xFFFF, a := 0x20218, b := 0 } ∧
    stepOf 0x05300000000001280000000000000000 = { op := 5, flags := 0x30, scope := 0, a := 0x128, b := 0 } := by decide +kernel

/-- Example 11.1: the bytes of the probe's NOP before their CRC. -/
theorem test_scan_frame :
    (scanFrameBytes 1 7 (wordsBytes [0x01041004, 0x5000, 0x42, 0])).take 24 =
      [0xC3, 0x3C, 1, 0, 7, 0, 16, 0, 4, 0x10, 4, 1, 0, 0x50, 0, 0, 0x42, 0, 0, 0, 0, 0, 0, 0] ∧
    (scanFrameBytes 1 7 (wordsBytes [0x01041004, 0x5000, 0x42, 0])).length = 28 := by decide +kernel

/-- Example 2.1: the request's bytes and the times of both frames on the wire. -/
theorem test_request_on_the_wire :
    let f : Frame := { ftype := 1, dir := 1, fenced := true, dest := 27, src := 96, part := 5, len := 8, tag := 0x42,
                       word1 := 0x000000070016A000 }
    (frameBytes f).take 16 = [0x91, 0x1B, 0x60, 0x05, 0x08, 0x00, 0x42, 0x00, 0x00, 0xA0, 0x16, 0x00, 0x07, 0x00, 0x00, 0x00] ∧
    wireNs 0 = 60 ∧ wireNs 8 = 80 := by decide +kernel

/-- The lanes' code of K28.5, K27.7 and D0.0 from a negative disparity (IEEE 802.3, Tables 36-1 and 36-2). -/
theorem test_lane_code :
    codeLane false [.idle, .sof, .data 0] = ([0b0011111010, 0b0010010111, 0b0110001011], true) := by decide +kernel

/-- No row of the table has bits. -/
theorem test_no_word : decodeTableWord 32 0x01041004 = none := rfl

/-! ### For each statement, states and operands that meet the hypotheses of each of its clauses -/

theorem witness_StepRunsFront : ∃ (s : State),
      s.pending = [] :=
  ⟨State.reset, by decide +kernel⟩

theorem witness_IdleAdvancesTime :
    (∃ (s : State),
      s.pending = []) ∧
    (∃ (s : State) (d : _),
      s.pending = [] ∧
      let n := counterTick s.m
      d < 100) :=
  ⟨⟨State.reset, by decide +kernel⟩,
   ⟨State.reset, 99, by dsimp only; decide +kernel⟩⟩

theorem witness_WellFormedCommandsRun : ∃ (i : Instr) (s : State),
      i.wf = true ∧
      bindNamed i = true :=
  ⟨.bindMsg bind0, State.reset, by decide +kernel⟩

theorem witness_QueueDrains : ∃ (s : State),
      QueueWf s ∧
      ((∀ c ∈ s.pending, bindNamed c = true)) :=
  ⟨queued, by exact ⟨by unfold QueueWf; decide, by decide⟩⟩

theorem witness_StepKeepsQueueWf : ∃ (s t : State),
      QueueWf s ∧
      step s = .next t :=
  ⟨queued, { queued with pending := [.refLoss] , m := queued.m }, by exact ⟨by unfold QueueWf; decide, rfl⟩⟩

theorem witness_SessionCommandsComplete :
    (∃ (p : Pkt) (s : State),
      hostFront 0x0101 p s.m = true ∧
      p.port = .host ∧
      p.body.length = 9 ∧
      ((sessOf s.m (pktSid p)).any (fun x => !x.open_) = true)) ∧
    (∃ (p : Pkt) (s : State),
      hostFront 0x0101 p s.m = true ∧
      (p.port = .scan ∨ p.port = .sideband) ∧
      p.body.length = 9 ∧
      portSess (hostTaken s.m p) p.port = none ∧
      ((sessOf (hostTaken s.m p) (pktSid p)).any (fun x => x.open_) = false)) ∧
    (∃ (p : Pkt) (s : State),
      hostFront 0x0102 p s.m = true ∧
      p.body = []) ∧
    (∃ (p : Pkt) (s : State),
      hostFront 0x0103 p s.m = true ∧
      p.body = []) ∧
    (∃ (p : Pkt) (s : State),
      hostFront 0x0104 p s.m = true ∧
      p.body = []) ∧
    (∃ (p : Pkt) (s : State),
      hostFront 0x0105 p s.m = true ∧
      p.body = [0, 0]) ∧
    (∃ (p : Pkt) (s : State),
      hostFront 0x0105 p s.m = true ∧
      p.body = [1, 0]) ∧
    (∃ (p : Pkt) (s : State) (kind st slot : Nat) (h : W32),
      hostFront 0x0105 p s.m = true ∧
      kind ≤ 4 ∧
      p.body = [BitVec.ofNat 32 (2 + kind * 2 ^ 16), h] ∧
      queryObject (hostTaken s.m p) (hostIssuer p) kind h = some (st, slot) ∧
      queryDenied (hostTaken s.m p) (hostIssuer p) kind h = false) :=
  ⟨⟨pk .host (List.replicate 9 0), ready live 0x0101 (pk .host (List.replicate 9 0)) false, by decide +kernel⟩,
   ⟨{ pk .sideband (List.replicate 9 0) with session := 0 }, ready live 0x0101 { pk .sideband (List.replicate 9 0) with session := 0 } false, by decide +kernel⟩,
   ⟨pk .host [], ready (live) 0x0102 (pk .host []), by decide +kernel⟩,
   ⟨pk .host [], ready (live) 0x0103 (pk .host []), by decide +kernel⟩,
   ⟨pk .scan [], ready (live) 0x0104 (pk .scan []), by decide +kernel⟩,
   ⟨pk .host [0, 0], ready (live) 0x0105 (pk .host [0, 0]), by decide +kernel⟩,
   ⟨pk .host [1, 0], ready (live) 0x0105 (pk .host [1, 0]), by decide +kernel⟩,
   ⟨pk .host [262146, 0], ready (live) 0x0105 (pk .host [262146, 0]), 4, 0, 0xFFFFFFFF, 0, by decide +kernel⟩⟩

theorem witness_RunControlCommandsComplete :
    (∃ (p : Pkt) (s : State),
      hostFront 0x0201 p s.m = true ∧
      let m := hostTaken s.m p
      let sc := scopeAt m p.body 0
      let flags := (wAt p.body 6).toNat
      let imm := nbit flags 0
      p.body.length = 7 ∧
      scopeOk m p.body 0 = true ∧
      flags < 8 ∧
      (imm = true → sc.kind ≠ 6) ∧
      (waypointStatus m (hostIssuer p) sc 2 (leadOf sc.kind) (if imm then 0 else w64At p.body 4) (if imm then 0 else 1) false false = 0)) ∧
    (∃ (p : Pkt) (s : State),
      hostFront 0x0202 p s.m = true ∧
      let m := hostTaken s.m p
      let sc := scopeAt m p.body 0
      let flags := (wAt p.body 6).toNat
      let imm := nbit flags 0
      let at_ := if imm then 0 else resolveT m (leadOf sc.kind) (w64At p.body 4)
      p.body.length = 7 ∧
      scopeOk m p.body 0 = true ∧
      flags < 2 ∧
      (imm = true → sc.kind ≠ 6) ∧
      stitchOverlaps m sc = false ∧
      (imm = false → haltOverlaps m sc at_ = false) ∧
      (waypointStatus m (hostIssuer p) sc 2 (leadOf sc.kind) (if imm then 0 else w64At p.body 4) (if imm then 0 else 1) false false = 0)) ∧
    (∃ (p : Pkt) (s : State),
      hostFront 0x0203 p s.m = true ∧
      let m := hostTaken s.m p
      let sc := scopeAt m p.body 0
      let w := wAt p.body 6
      let mode := wfld w 0 2
      let limit := wfld w 16 16
      let at_ := resolveT m (leadOf sc.kind) (w64At p.body 4)
      p.body.length = 8 ∧
      scopeOk m p.body 0 = true ∧
      wfld w 2 14 = 0 ∧
      ((mode = 0 ∧ sc.kind = 0 ∧ limit ≠ 0 ∨ mode = 1 ∧ sc.kind = 1 ∧ limit ≠ 0 ∨ mode = 2 ∧ (wAt p.body 7).toNat ≠ 0)) ∧
      stitchOverlaps m sc = false ∧
      haltOverlaps m sc at_ = false ∧
      (waypointStatus m (hostIssuer p) sc 2 (leadOf sc.kind) (w64At p.body 4) (if mode = 2 then 2 else 1) false false = 0)) ∧
    (∃ (p : Pkt) (s : State),
      hostFront 0x0209 p s.m = true ∧
      let m := hostTaken s.m p
      let sc := scopeAt m p.body 0
      let q := (wAt p.body 4).toNat
      p.body.length = 5 ∧
      scopeOk m p.body 0 = true ∧
      headcountQuery q = true ∧
      scopeDark m sc = false ∧
      ((if 0x32 ≤ q then ∃ k < 256, 1 ≤ issLevel m (hostIssuer p) k else scopeLevel m (hostIssuer p) sc 1 = true)) ∧
      scopeMoved m sc = false) :=
  ⟨⟨pk .host [5, 0, 0, 0, 0, 0, 7], ready (live) 0x0201 (pk .host [5, 0, 0, 0, 0, 0, 7]), by dsimp only; decide +kernel⟩,
   ⟨pk .host [4, 0, 0, 0, 0, 0, 1], ready (live) 0x0202 (pk .host [4, 0, 0, 0, 0, 0, 1]), by dsimp only; decide +kernel⟩,
   ⟨pk .host [1, 0x20, 0, 0, 0, 0, 0xFFFF0001, 0], ready (live) 0x0203 (pk .host [1, 0x20, 0, 0, 0, 0, 0xFFFF0001, 0]), by dsimp only; decide +kernel⟩,
   ⟨pk .host [1, 0x20, 0, 0, 0x35], ready (live) 0x0209 (pk .host [1, 0x20, 0, 0, 0x35]), by dsimp only; decide +kernel⟩⟩

theorem witness_InspectCommandsComplete :
    (∃ (p : Pkt) (s : State),
      hostFront 0x0204 p s.m = true ∧
      peekStatus (hostTaken s.m p) (hostIssuer p) p.body false 8 = 0) ∧
    (∃ (p : Pkt) (s : State),
      hostFront 0x0205 p s.m = true ∧
      peekStatus (hostTaken s.m p) (hostIssuer p) p.body true (8 + peekLength p.body / 4) = 0) ∧
    (∃ (p : Pkt) (s : State) (slot : Nat),
      hostFront 0x0206 p s.m = true ∧
      slot < 12 ∧
      wAt p.body 3 = BitVec.ofNat 32 slot ∧
      p.body.length = 10 ∧
      imagesOk slot p.body = true ∧
      breakStatus (hostTaken s.m p) (hostIssuer p) p.body false = 0) ∧
    (∃ (p : Pkt) (s : State),
      hostFront 0x0207 p s.m = true ∧
      p.body.length = 4 ∧
      (wAt p.body 3).toNat < 2 ^ 12 ∧
      breakStatus (hostTaken s.m p) (hostIssuer p) p.body false = 0) ∧
    (∃ (p : Pkt) (s : State) (part mask value : Nat),
      hostFront 0x0208 p s.m = true ∧
      part < 256 ∧
      mask < 32 ∧
      value < 32 ∧
      p.body = [BitVec.ofNat 32 part, BitVec.ofNat 32 (epochOf (hostTaken s.m p) part), BitVec.ofNat 32 (mask + value * 2 ^ 8)] ∧
      epochOf (hostTaken s.m p) part < 2 ^ 32 ∧
      2 ≤ issLevel (hostTaken s.m p) (hostIssuer p) part) :=
  ⟨⟨pk .host [2, 0xC0, 0, 0, 0, 0, 0, 8], ready (live) 0x0204 (pk .host [2, 0xC0, 0, 0, 0, 0, 0, 8]), by decide +kernel⟩,
   ⟨pk .host [1, 0, 0, 0, 0, 0, 0, 0], ready (live) 0x0205 (pk .host [1, 0, 0, 0, 0, 0, 0, 0]), by decide +kernel⟩,
   ⟨pk .host [0x20, 0, 0, 11, 0, 0, 0, 0, 0, 0], ready (live) 0x0206 (pk .host [0x20, 0, 0, 11, 0, 0, 0, 0, 0, 0]), 11, by decide +kernel⟩,
   ⟨pk .host [0x20, 0, 0, 0xFFF], ready (live) 0x0207 (pk .host [0x20, 0, 0, 0xFFF]), by decide +kernel⟩,
   ⟨pk .host [255, 0, 0x1F1F], ready (live) 0x0208 (pk .host [255, 0, 0x1F1F]), 255, 31, 31, by decide +kernel⟩⟩

theorem witness_DumpCommandsComplete :
    (∃ (p : Pkt) (s : State) (k : Nat),
      hostFront 0x0306 p s.m = true ∧
      nbit (wAt p.body 5).toNat 0 = true ∧
      dumpPlanPlan (hostTaken s.m p) (hostIssuer p) p.body = (0, [], some k)) ∧
    (∃ (p : Pkt) (s : State) (k : Option Nat),
      hostFront 0x0306 p s.m = true ∧
      nbit (wAt p.body 5).toNat 0 = false ∧
      dumpPlanPlan (hostTaken s.m p) (hostIssuer p) p.body = (0, [], k)) ∧
    (∃ (p : Pkt) (s : State) (k : Nat) (l : List W32),
      hostFront 0x0301 p s.m = true ∧
      stitchCheck (hostTaken s.m p) (hostIssuer p) p.body = (0, l, some k)) ∧
    (∃ (p : Pkt) (s : State) (k : Nat) (x : Dump) (l : List W32),
      hostFront 0x0302 p s.m = true ∧
      pressCheck (hostTaken s.m p) (hostIssuer p) p.body = (0, l) ∧
      (dumpName (hostTaken s.m p) (hostIssuer p) (wAt p.body 0)).slot = some k ∧
      dump (hostTaken s.m p) k = some x) ∧
    (∃ (p : Pkt) (s : State) (l : List W32),
      hostFront 0x0303 p s.m = true ∧
      p.port = .host ∧
      exportCheck (hostTaken s.m p) (hostIssuer p) p.body = (0, l)) ∧
    (∃ (p : Pkt) (s : State) (l : List W32),
      hostFront 0x0303 p s.m = true ∧
      p.port = .scan ∧
      exportCheck (hostTaken s.m p) (hostIssuer p) p.body = (0, l)) ∧
    (∃ (p : Pkt) (s : State) (u : DumpName),
      hostFront 0x0304 p s.m = true ∧
      p.body.length = 1 ∧
      dumpName (hostTaken s.m p) (hostIssuer p) (wAt p.body 0) = u ∧
      u.bad = false ∧
      u.stale = false ∧
      u.denied = false ∧
      ((∀ x, u.slot.bind (dump s.m) = some x → dumpLevel (hostTaken s.m p) (hostIssuer p) x 2 = true ∧ dumpBusy x = false))) ∧
    (∃ (p : Pkt) (s : State) (x : Dump) (q : Quire) (r : Mach × Nat × Nat),
      hostFront 0x0305 p s.m = true ∧
      migrateStatus (hostTaken s.m p) (hostIssuer p) p.body = 0 ∧
      (dumpName (hostTaken s.m p) (hostIssuer p) (wAt p.body 0)).slot.bind (dump (hostTaken s.m p)) = some x ∧
      quireOf x (wAt p.body 1) = some q ∧
      upLevel (wAt p.body 1) = 1 ∧
      migrateCore (hostTaken s.m p) q (wAt p.body 1) (wAt p.body 2) ((wAt p.body 5).toNat == 1) = some r) ∧
    (∃ (p : Pkt) (s : State) (x : Dump) (q : Quire) (r : Mach × Nat × Nat),
      hostFront 0x0305 p s.m = true ∧
      migrateStatus (hostTaken s.m p) (hostIssuer p) p.body = 0 ∧
      (dumpName (hostTaken s.m p) (hostIssuer p) (wAt p.body 0)).slot.bind (dump (hostTaken s.m p)) = some x ∧
      quireOf x (wAt p.body 1) = some q ∧
      upLevel (wAt p.body 1) ≠ 1 ∧
      migratePort (hostTaken s.m p) q (wAt p.body 1) (wAt p.body 2) = some r) :=
  ⟨⟨pk .firmware [260, 0, 0, 0, 0, 1], st live, 0, by decide +kernel⟩,
   ⟨pk .firmware [5, 0, 0, 0, 0, 0], st live, some 0, by decide +kernel⟩,
   ⟨pk .firmware [260, 0, 0, 0, 0, 0, 0, 0], st live, 0, [], by decide +kernel⟩,
   ⟨pk .scan [0xFFFFF000, 8], ready (withDump { state := 5, quires := [quire0] }) 0x0302 (pk .scan [0xFFFFF000, 8]), 0, { state := 5, quires := [quire0] }, [], by decide +kernel⟩,
   ⟨pk .host [0x1001, 0x1001, 0, 0, 0x100000, 8], ready (withDump { state := 5, quires := [quire0], handle := 0x1001, sid := 1 }) 0x0303 (pk .host [0x1001, 0x1001, 0, 0, 0x100000, 8]), [], by decide +kernel⟩,
   ⟨pk .scan [0xFFFFF000, 0xFFFFFFFF, 0, 0, 0x1000, 8], ready (withDump { state := 5, quires := [quire0] }) 0x0303 (pk .scan [0xFFFFF000, 0xFFFFFFFF, 0, 0, 0x1000, 8]), [], by decide +kernel⟩,
   ⟨pk .scan [0xFFFFF000], ready (withDump { state := 5, quires := [quire0] }) 0x0304 (pk .scan [0xFFFFF000]), { slot := some 0 }, by refine ⟨by decide +kernel, by decide, by decide +kernel, rfl, rfl, rfl, fun x hx => ?_⟩; obtain rfl : { state := 5, quires := [quire0] } = x := Option.some.inj hx; decide +kernel⟩,
   ⟨pk .scan [0xFFFFF000, 0x20, 0x20, 0, 0, 0], ready (halted (withDump { state := 5, quires := [quire0] })) 0x0305 (pk .scan [0xFFFFF000, 0x20, 0x20, 0, 0, 0]), { state := 5, quires := [quire0] }, quire0, (placeEngines (hostTaken (ready (halted (withDump { state := 5, quires := [quire0] })) 0x0305 (pk .scan [0xFFFFF000, 0x20, 0x20, 0, 0, 0])).m (pk .scan [0xFFFFF000, 0x20, 0x20, 0, 0, 0])) quire0 0x20 0x20, 0, 0), by decide +kernel⟩,
   ⟨pk .scan [0xFFFFF000, 0xA0, 0xA0, 0, 0, 0], ready (halted (withDump { state := 5, quires := [quire0] })) 0x0305 (pk .scan [0xFFFFF000, 0xA0, 0xA0, 0, 0, 0]), { state := 5, quires := [quire0] }, quire0, (setCut (cutDiscard (hostTaken (ready (halted (withDump { state := 5, quires := [quire0] })) 0x0305 (pk .scan [0xFFFFF000, 0xA0, 0xA0, 0, 0, 0])).m (pk .scan [0xFFFFF000, 0xA0, 0xA0, 0, 0, 0])) 0 0) 0 0 4 { frozen := true }, 0, 0), by decide +kernel⟩⟩

theorem witness_CodecCommandsComplete :
    (∃ (p : Pkt) (s : State) (l : List W32),
      hostFront 0x0401 p s.m = true ∧
      p.body.length = 10 ∧
      wfld (wAt p.body 8) 0 4 ≠ 15 ∧
      wfld (wAt p.body 8) 8 2 ≠ 3 ∧
      wfld (wAt p.body 8) 10 2 ≠ 3 ∧
      wfld (wAt p.body 8) 12 20 = 0 ∧
      codecStatus (hostTaken s.m p) (hostIssuer p) (encodeArgs p.body) false = (0, l) ∧
      (encodeArgs p.body).blocks = 0) ∧
    (∃ (p : Pkt) (s : State) (l : List W32),
      hostFront 0x0401 p s.m = true ∧
      p.body.length = 10 ∧
      wfld (wAt p.body 8) 0 4 ≠ 15 ∧
      wfld (wAt p.body 8) 8 2 ≠ 3 ∧
      wfld (wAt p.body 8) 10 2 ≠ 3 ∧
      wfld (wAt p.body 8) 12 20 = 0 ∧
      codecStatus (hostTaken s.m p) (hostIssuer p) (encodeArgs p.body) false = (0, l) ∧
      (encodeArgs p.body).blocks ≠ 0) ∧
    (∃ (p : Pkt) (s : State) (l : List W32),
      hostFront 0x0402 p s.m = true ∧
      p.body.length = 10 ∧
      wfld (wAt p.body 8) 0 4 = 0 ∧
      wfld (wAt p.body 8) 8 8 = 0 ∧
      wfld (wAt p.body 8) 17 15 = 0 ∧
      codecStatus (hostTaken s.m p) (hostIssuer p) (decodeArgs p.body) false = (0, l) ∧
      (decodeArgs p.body).blocks = 0) ∧
    (∃ (p : Pkt) (s : State) (l : List W32),
      hostFront 0x0402 p s.m = true ∧
      p.body.length = 10 ∧
      wfld (wAt p.body 8) 0 4 = 0 ∧
      wfld (wAt p.body 8) 8 8 = 0 ∧
      wfld (wAt p.body 8) 17 15 = 0 ∧
      codecStatus (hostTaken s.m p) (hostIssuer p) (decodeArgs p.body) false = (0, l) ∧
      (decodeArgs p.body).blocks ≠ 0) ∧
    (∃ (m : Mach) (c : Cmd),
      codecNext m = some c ∧
      (c.op = 0x0401 ∨ c.op = 0x0402) ∧
      let a := if c.op = 0x0401 then encodeArgs c.body else decodeArgs c.body
      let r := if c.op = 0x0401 then encodeStep m c c.phase else decodeStep m c c.phase
      let c' := { r.2 with phase := r.2.phase + 1, retired := r.2.retired + 1 }
      let m' := updCmd r.1 c'.id (fun _ => c')
      let st := if c.op = 0x0401 then encodeStatus c' else decodeStatus c'
      let detail (x : Cmd) : List W32 := if c.op = 0x0401 then encodeDetail x else decodeDetail x
      (bufStale m (issuerOf c) a.src = true ∨ bufStale m (issuerOf c) a.dst = true)) ∧
    (∃ (m : Mach) (c : Cmd),
      codecNext m = some c ∧
      (c.op = 0x0401 ∨ c.op = 0x0402) ∧
      let a := if c.op = 0x0401 then encodeArgs c.body else decodeArgs c.body
      let r := if c.op = 0x0401 then encodeStep m c c.phase else decodeStep m c c.phase
      let c' := { r.2 with phase := r.2.phase + 1, retired := r.2.retired + 1 }
      let m' := updCmd r.1 c'.id (fun _ => c')
      let st := if c.op = 0x0401 then encodeStatus c' else decodeStatus c'
      let detail (x : Cmd) : List W32 := if c.op = 0x0401 then encodeDetail x else decodeDetail x
      bufStale m (issuerOf c) a.src = false ∧
      bufStale m (issuerOf c) a.dst = false) :=
  ⟨⟨pk .host [0x1001, 0, 0, 0, 0x1001, 0x2000, 0, 0x1000, 0x82, 0], ready (rooted live) 0x0401 (pk .host [0x1001, 0, 0, 0, 0x1001, 0x2000, 0, 0x1000, 0x82, 0]), [], by decide +kernel⟩,
   ⟨pk .host [0x1001, 0, 0, 4097, 0x1001, 0x2000, 0, 0x1000, 0x82, 0], ready (rooted live) 0x0401 (pk .host [0x1001, 0, 0, 4097, 0x1001, 0x2000, 0, 0x1000, 0x82, 0]), [], by decide +kernel⟩,
   ⟨pk .host [0x1001, 0, 0, 0, 0x1001, 0x2000, 0, 0x2000, 0x80, 0], ready (rooted live) 0x0402 (pk .host [0x1001, 0, 0, 0, 0x1001, 0x2000, 0, 0x2000, 0x80, 0]), [], by decide +kernel⟩,
   ⟨pk .host [0x1001, 0, 0, 2, 0x1001, 0x2000, 0, 0x2000, 0x80, 0], ready (rooted live) 0x0402 (pk .host [0x1001, 0, 0, 2, 0x1001, 0x2000, 0, 0x2000, 0x80, 0]), [], by decide +kernel⟩,
   ⟨withCmd 0 (cmd0 0x0401 [0x1001, 0, 0, 4097, 0x1001, 0x2000, 0, 0x1000, 0x82, 0]), cmd0 0x0401 [0x1001, 0, 0, 4097, 0x1001, 0x2000, 0, 0x1000, 0x82, 0], by dsimp only; decide +kernel⟩,
   ⟨{ rooted live with cmds := [cmd0 0x0401 [0x1001, 0, 0, 4097, 0x1001, 0x2000, 0, 0x1000, 0x82, 0]] }, cmd0 0x0401 [0x1001, 0, 0, 4097, 0x1001, 0x2000, 0, 0x1000, 0x82, 0], by dsimp only; decide +kernel⟩⟩

theorem witness_TallyCommandsComplete :
    (∃ (p : Pkt) (s : State) (l : List W32) (parts : List TallyPart),
      hostFront 0x0501 p s.m = true ∧
      tallyPlan (hostTaken s.m p) (hostIssuer p) p.body = (0, l, parts)) ∧
    (∃ (p : Pkt) (s : State) (l : List W32) (parts : List TallyPart),
      hostFront 0x0502 p s.m = true ∧
      comparePlan (hostTaken s.m p) (hostIssuer p) p.body = (0, l, parts)) ∧
    (∃ (p : Pkt) (s : State) (part mx vx flags : Nat),
      hostFront 0x0503 p s.m = true ∧
      part < 256 ∧
      mx < 2 ^ 21 ∧
      vx < 2 ^ 21 ∧
      flags < 2 ∧
      epochOf (hostTaken s.m p) part < 2 ^ 32 ∧
      p.body = [BitVec.ofNat 32 part, BitVec.ofNat 32 (epochOf (hostTaken s.m p) part), BitVec.ofNat 32 mx, BitVec.ofNat 32 vx,
                BitVec.ofNat 32 flags] ∧
      2 ≤ issLevel (hostTaken s.m p) (hostIssuer p) part) ∧
    (∃ (p : Pkt) (s : State),
      hostFront 0x0504 p s.m = true ∧
      let m := hostTaken s.m p
      let u := hostIssuer p
      let sc := scopeAt m p.body 0
      let flags := (wAt p.body 9).toNat
      let h := wAt p.body 6
      p.body.length = 11 ∧
      scopeOk m p.body 0 = true ∧
      flags < 32 ∧
      (wAt p.body 10).toNat ≤ 64 ∧
      w64At p.body 7 % 8 = 0 ∧
      bufMalformed u h (w64At p.body 7) = false ∧
      bufStale m u h = false ∧
      bufDenied m u h false true = false ∧
      resultShort m u h (w64At p.body 7) (16 + 32 * (wAt p.body 10).toNat) = 0 ∧
      waypointStatus m u sc 1 (leadOf sc.kind) (w64At p.body 4) 1 false false = 0) :=
  ⟨⟨pk .host [0x11, 0, 0, 0, 0, 0, 0, 0, 0, 0, 0, 0x1001, 0, 0, 0, 0], ready (rooted live) 0x0501 (pk .host [0x11, 0, 0, 0, 0, 0, 0, 0, 0, 0, 0, 0x1001, 0, 0, 0, 0]), [], [], by decide +kernel⟩,
   ⟨pk .host [0x10, 0, 0x1001, 0, 0, 0, 0, 0, 0], ready (rooted live) 0x0502 (pk .host [0x10, 0, 0x1001, 0, 0, 0, 0, 0, 0]), [], [], by decide +kernel⟩,
   ⟨pk .host [255, 0, 0x1FFFFF, 0x1FFFFF, 1], ready (live) 0x0503 (pk .host [255, 0, 0x1FFFFF, 0x1FFFFF, 1]), 255, 0x1FFFFF, 0x1FFFFF, 1, by decide +kernel⟩,
   ⟨pk .host [4, 0, 0, 0, 0, 0, 0x1001, 0, 0, 31, 64], ready (rooted live) 0x0504 (pk .host [4, 0, 0, 0, 0, 0, 0x1001, 0, 0, 31, 64]), by dsimp only; decide +kernel⟩⟩

theorem witness_TraceCommandsComplete :
    (∃ (p : Pkt) (s : State) (l : List W32) (k : Nat),
      hostFront 0x0601 p s.m = true ∧
      traceConfigCheck (hostTaken s.m p) (hostIssuer p) p.body = (0, l, some k)) ∧
    (∃ (p : Pkt) (s : State) (k : Nat) (x : Stream),
      hostFront 0x0602 p s.m = true ∧
      p.body.length = 3 ∧
      streamNamed (hostTaken s.m p) (hostIssuer p) (wAt p.body 0) = some (k, x) ∧
      (traceStatus (hostTaken s.m p) (hostIssuer p) (wAt p.body 0) false (fun y => !(y.state == 1 || y.state == 4)) (w64At p.body 1) = 0)) ∧
    (∃ (p : Pkt) (s : State) (k : Nat) (x : Stream),
      hostFront 0x0603 p s.m = true ∧
      p.body.length = 4 ∧
      (wAt p.body 3).toNat < 2 ∧
      streamNamed (hostTaken s.m p) (hostIssuer p) (wAt p.body 0) = some (k, x) ∧
      (traceStatus (hostTaken s.m p) (hostIssuer p) (wAt p.body 0) false (fun y => !(y.state == 2 || y.state == 3)) (w64At p.body 1) = 0) ∧
      x.state = 3) ∧
    (∃ (p : Pkt) (s : State) (k : Nat) (x : Stream),
      hostFront 0x0603 p s.m = true ∧
      p.body.length = 4 ∧
      (wAt p.body 3).toNat < 2 ∧
      streamNamed (hostTaken s.m p) (hostIssuer p) (wAt p.body 0) = some (k, x) ∧
      (traceStatus (hostTaken s.m p) (hostIssuer p) (wAt p.body 0) false (fun y => !(y.state == 2 || y.state == 3)) (w64At p.body 1) = 0) ∧
      x.state = 2) ∧
    (∃ (p : Pkt) (s : State) (l : List W32) (k : Nat) (x : Stream),
      hostFront 0x0604 p s.m = true ∧
      drainStatus (hostTaken s.m p) (hostIssuer p) p.body = (0, l) ∧
      streamNamed (hostTaken s.m p) (hostIssuer p) (wAt p.body 0) = some (k, x)) ∧
    (∃ (p : Pkt) (s : State) (l : List W32) (k : Nat) (x : Stream),
      hostFront 0x0604 p s.m = true ∧
      drainStatus (hostTaken s.m p) (hostIssuer p) p.body = (0xFFFF, l) ∧
      streamNamed (hostTaken s.m p) (hostIssuer p) (wAt p.body 0) = some (k, x)) :=
  ⟨⟨pk .host [0x1001, 4, 0, 0, 0, 0x110, 1, 0, 0, 0, 0, 0, 0, 0, 0, 0, 0, 0, 0, 0, 0, 0, 0, 0, 0, 0], ready (rooted live) 0x0601 (pk .host [0x1001, 4, 0, 0, 0, 0x110, 1, 0, 0, 0, 0, 0, 0, 0, 0, 0, 0, 0, 0, 0, 0, 0, 0, 0, 0, 0]), [], 0, by decide +kernel⟩,
   ⟨pk .host [0x1001, 0, 0], ready (withStream 1 0) 0x0602 (pk .host [0x1001, 0, 0]), 7, stream0 1 0, by decide +kernel⟩,
   ⟨pk .host [0x1001, 0, 0, 1], ready (withStream 3 16) 0x0603 (pk .host [0x1001, 0, 0, 1]), 7, stream0 3 16, by decide +kernel⟩,
   ⟨pk .host [0x1001, 0, 0, 1], ready (withStream 2 16) 0x0603 (pk .host [0x1001, 0, 0, 1]), 7, stream0 2 16, by decide +kernel⟩,
   ⟨pk .host [0x1001, 0x1001, 0, 0, 32, 0, 0, 0], ready (withStream 4 16) 0x0604 (pk .host [0x1001, 0x1001, 0, 0, 32, 0, 0, 0]), [], 7, stream0 4 16, by decide +kernel⟩,
   ⟨pk .host [0x1001, 0x1001, 0, 0, 0, 0, 0, 0], ready (withStream 4 16) 0x0604 (pk .host [0x1001, 0x1001, 0, 0, 0, 0, 0, 0]), [], 7, stream0 4 16, by decide +kernel⟩⟩

theorem witness_RoutineCommandsComplete :
    (∃ (p : Pkt) (s : State) (l : List W32) (y : Routine) (hd : ImageHead),
      hostFront 0x0701 p s.m = true ∧
      loadCheck (hostTaken s.m p) (hostIssuer p) p.body = (0, l, some (y, hd))) ∧
    (∃ (p : Pkt) (s : State) (h : W32) (y : Routine),
      hostFront 0x0702 p s.m = true ∧
      p.body = [h] ∧
      notOwner (hostTaken s.m p) (hostIssuer p) 2 h = false ∧
      routineStale (hostTaken s.m p) (hostIssuer p) h = false ∧
      routineOf (hostTaken s.m p) h (hostIssuer p).sess = some y ∧
      routinePinned (hostTaken s.m p) y = false) ∧
    (∃ (p : Pkt) (s : State),
      hostFront 0x0703 p s.m = true ∧
      armTriggerStatus (hostTaken s.m p) (hostIssuer p) p.body = 0) ∧
    (∃ (p : Pkt) (s : State) (n flags : Nat) (x : Trigger),
      hostFront 0x0704 p s.m = true ∧
      n < 64 ∧
      flags < 2 ∧
      p.body = [BitVec.ofNat 32 n, BitVec.ofNat 32 flags] ∧
      trigger (hostTaken s.m p) n = some x ∧
      x.sid = (hostIssuer p).sess) ∧
    (∃ (p : Pkt) (s : State) (h : W32),
      hostFront 0x0705 p s.m = true ∧
      p.body.length = 3 ∧
      wAt p.body 0 = h ∧
      notOwner (hostTaken s.m p) (hostIssuer p) 2 h = false ∧
      routineStale (hostTaken s.m p) (hostIssuer p) h = false ∧
      ((hostTaken s.m p).rtn.runs.any (fun r => r.routine == h && r.sid == (hostIssuer p).sess) = false) ∧
      queuedRuns (hostTaken s.m p) < 64) :=
  ⟨⟨pk .host [0x1001, 0x1001, 0, 0, 80, 0x1001, 0x1000, 0], ready ({ rooted live with hostMem := memWrite (rooted live).hostMem 0x10000 image }) 0x0701 (pk .host [0x1001, 0x1001, 0, 0, 80, 0x1001, 0x1000, 0]), [], imageRoutine image imageH 0x1001 1 0x1001 0 0x1001 0x1000, imageH, by decide +kernel⟩,
   ⟨pk .host [0x1001], ready (withRoutine) 0x0702 (pk .host [0x1001]), 0x1001, routine0, by decide +kernel⟩,
   ⟨pk .host [0xFFFFFFFF, 0x15, 0, 0, 0, 10000, 0, 9984, 0, 10000, 4, 0, 0, 0], ready (live) 0x0703 (pk .host [0xFFFFFFFF, 0x15, 0, 0, 0, 10000, 0, 9984, 0, 10000, 4, 0, 0, 0]), by decide +kernel⟩,
   ⟨pk .host [63, 1], ready ({ live with rtn := { live.rtn with triggers := [(63, some trigger0)] } }) 0x0704 (pk .host [63, 1]), 63, 1, trigger0, by decide +kernel⟩,
   ⟨pk .host [0x1001, 0, 0], ready (withRoutine) 0x0705 (pk .host [0x1001, 0, 0]), 0x1001, by decide +kernel⟩⟩

theorem witness_BringUpCommandsComplete :
    (∃ (p : Pkt) (s : State),
      hostFront 0x0801 p s.m = true ∧
      p.body.length = 5 ∧
      (wAt p.body 4).toNat < 2 ∧
      listBuf (hostTaken s.m p) (hostIssuer p) (wAt p.body 0) (w64At p.body 1) (wAt p.body 3).toNat false = 0) ∧
    (∃ (p : Pkt) (s : State),
      hostFront 0x0803 p s.m = true ∧
      p.body.length = 5 ∧
      listBuf (hostTaken s.m p) (hostIssuer p) (wAt p.body 0) (w64At p.body 1) (wAt p.body 3).toNat false = 0) ∧
    (∃ (p : Pkt) (s : State),
      hostFront 0x0802 p s.m = true ∧
      let m := hostTaken s.m p
      let u := hostIssuer p
      let l := bufRead m (wAt p.body 0) (w64At p.body 1) 224
      p.body.length = 3 ∧
      bufMalformed u (wAt p.body 0) (w64At p.body 1) = false ∧
      bufStale m u (wAt p.body 0) = false ∧
      bufDenied m u (wAt p.body 0) true false = false ∧
      w64At p.body 1 + 224 ≤ bufLen m u (wAt p.body 0) ∧
      l ≠ m.bup.lic ∧
      licValid m l = true ∧
      bytesAt (flashLicence m) 16 4 ≤ bytesAt l 16 4 ∧
      bytesAt m.bup.lic 16 4 ≤ bytesAt l 16 4) ∧
    (∃ (p : Pkt) (s : State),
      hostFront 0x0806 p s.m = true ∧
      let m := hostTaken s.m p
      let sc := scopeAt m p.body 0
      p.body.length = 5 ∧
      (wAt p.body 4).toNat < 2 ∧
      (sc.kind = 3 ∨ sc.kind = 5) ∧
      scopeOk m p.body 0 = true ∧
      scopeDark m sc = false ∧
      pkgLevel m (hostIssuer p) 2 = true ∧
      (sc.kind = 3 → scopeMoved m sc = false)) :=
  ⟨⟨pk .host [0x1001, 0, 0, 0x100000, 1], ready (rooted live) 0x0801 (pk .host [0x1001, 0, 0, 0x100000, 1]), by decide +kernel⟩,
   ⟨pk .host [0x1001, 0, 0, 0x100000, 0], ready (rooted live) 0x0803 (pk .host [0x1001, 0, 0, 0x100000, 0]), by decide +kernel⟩,
   ⟨pk .host [0x1001, 0, 0], ready (withLicence) 0x0802 (pk .host [0x1001, 0, 0]), by dsimp only; decide +kernel⟩,
   ⟨pk .host [3, 0x60, 0, 0, 1], ready (live) 0x0806 (pk .host [3, 0x60, 0, 0, 1]), by dsimp only; decide +kernel⟩⟩

theorem witness_ModeCommandsComplete :
    (∃ (p : Pkt) (s : State) (cls : Nat) (w0 w1' : W32) (flag : Nat),
      hostFront 0x0804 p s.m = true ∧
      cls < 4 ∧
      flag < 2 ∧
      p.body = [BitVec.ofNat 32 cls, w0, w1', BitVec.ofNat 32 flag] ∧
      pkgLevel (hostTaken s.m p) (hostIssuer p) 2 = true ∧
      modeBusy (hostTaken s.m p) cls = false) ∧
    (∃ (p : Pkt) (s : State),
      hostFront 0x0805 p s.m = true ∧
      let m := hostTaken s.m p
      let cls := (wAt p.body 0).toNat
      let t := w64At p.body 2
      p.body.length = 4 ∧
      cls < 4 ∧
      (modeStaged m cls).isSome = true ∧
      (wAt p.body 1).toNat = nextModeEpoch m cls ∧
      tooFar m t = false ∧
      pkgLevel m (hostIssuer p) 2 = true ∧
      modeBusy m cls = false ∧
      slotsFree m (presentDies m) 1 = true ∧
      tooEarly m (leadOf 5) t = false) ∧
    (∃ (cmd : Nat) (s : State) (c : Cmd),
      findCmd s.m cmd = some c ∧
      c.op = 0x0805 ∧
      c.t + 2000 ≤ gtcNow s.m ∧
      ((∀ a ∈ s.m.run.arms, a.cmd ≠ cmd))) :=
  ⟨⟨pk .host [3, 0xFFFFFFFF, 5, 1], ready (live) 0x0804 (pk .host [3, 0xFFFFFFFF, 5, 1]), 3, 0xFFFFFFFF, 5, 1, by decide +kernel⟩,
   ⟨pk .host [3, 1, 0, 0], ready ({ live with bup := { live.bup with modeStaged := [(3, some (0, 0))] } }) 0x0805 (pk .host [3, 1, 0, 0]), by dsimp only; decide +kernel⟩,
   ⟨1, st (withCmd 2000 (cmd0 0x0805)), cmd0 0x0805, by decide +kernel⟩⟩

theorem witness_RecoveryCommandsComplete :
    (∃ (p : Pkt) (s : State),
      hostFront 0x0901 p s.m = true ∧
      let m := hostTaken s.m p
      let u := hostIssuer p
      let sc := scopeAt m p.body 0
      let w := (wAt p.body 4).toNat
      let rung := nfld w 0 3
      p.body.length = 5 ∧
      scopeOk m p.body 0 = true ∧
      w < 16 ∧
      rungKindOk rung sc.kind = true ∧
      scopeDark m sc = false ∧
      ((scopeLevel m u sc 2 = true ∨ u.port = .sideband)) ∧
      scopeMoved m sc = false ∧
      (rung = 4 → esc m 256 = none)) ∧
    (∃ (p : Pkt) (s : State) (ps : PartMap),
      hostFront 0x0902 p s.m = true ∧
      let m := hostTaken s.m p
      let u := hostIssuer p
      let job := wAt p.body 0
      let t := w64At p.body 1
      p.body.length = 3 ∧
      hf m R.HUB_PKG_IN_JOB ≠ 0 ∧
      tooFar m t = false ∧
      jobParts m job = some ps ∧
      ((u.port = .sideband ∨ ∀ q ∈ partsList ps, 2 ≤ issLevel m u q)) ∧
      slotsFree m (presentDies m) 1 = true ∧
      tooEarly m (leadOf 6) t = false) ∧
    (∃ (p : Pkt) (s : State),
      hostFront 0x0902 p s.m = true ∧
      let m := hostTaken s.m p
      let t := w64At p.body 1
      p.body.length = 3 ∧
      hf m R.HUB_PKG_IN_JOB ≠ 0 ∧
      tooFar m t = false ∧
      jobParts m (wAt p.body 0) = none ∧
      p.port = .sideband ∧
      slotsFree m (presentDies m) 1 = true ∧
      tooEarly m (leadOf 6) t = false) ∧
    (∃ (p : Pkt) (s : State) (part : Nat),
      hostFront 0x0903 p s.m = true ∧
      p.body.length = 6 ∧
      (wAt p.body 0).toNat = part ∧
      part < 256 ∧
      2 ≤ issLevel (hostTaken s.m p) (hostIssuer p) part ∧
      (wAt p.body 1).toNat = epochOf (hostTaken s.m p) part) ∧
    (∃ (p : Pkt) (s : State),
      hostFront 0x0904 p s.m = true ∧
      p.body.length = 2 ∧
      wAt p.body 0 = 1 ∧
      ((pkgLevel (hostTaken s.m p) (hostIssuer p) 2 = true ∨ p.port = .sideband))) :=
  ⟨⟨pk .host [4, 0, 0, 0, 9], ready (live) 0x0901 (pk .host [4, 0, 0, 0, 9]), by dsimp only; decide +kernel⟩,
   ⟨pk .host [5, 0, 0], ready ({ setHf live R.HUB_PKG_IN_JOB 1 with comp := { live.comp with jobs := [(5, 1)] } }) 0x0902 (pk .host [5, 0, 0]), 1, by dsimp only; decide +kernel⟩,
   ⟨pk .sideband [6, 0, 0], ready ({ setHf live R.HUB_PKG_IN_JOB 1 with comp := { live.comp with jobs := [(5, 1)] } }) 0x0902 (pk .sideband [6, 0, 0]), by dsimp only; decide +kernel⟩,
   ⟨pk .host [255, 0, 0, 0, 0, 0], ready (live) 0x0903 (pk .host [255, 0, 0, 0, 0, 0]), 255, by decide +kernel⟩,
   ⟨pk .sideband [1, 0], ready (live) 0x0904 (pk .sideband [1, 0]), by decide +kernel⟩⟩

theorem witness_LifeCycleCommandsComplete :
    (∃ (p : Pkt) (s : State) (x : Session),
      hostFront 0x0A01 p s.m = true ∧
      let m := hostTaken s.m p
      let level := (wAt p.body 0).toNat
      let parts := partMapAt p.body 1
      p.body.length = 9 ∧
      1 ≤ level ∧
      level ≤ 4 ∧
      parts ≠ 0 ∧
      (level = 4 → parts = BitVec.allOnes 256) ∧
      lcState m < 6 ∧
      ((∃ r, 1 ≤ r ∧ r ≤ 3 ∧ level ≤ rootCeiling m r)) ∧
      sessOf m (hostIssuer p).sess = some x) ∧
    (∃ (p : Pkt) (s : State) (t : Nat) (blk : List Byte),
      hostFront 0x0A02 p s.m = true ∧
      ((sessOf (hostTaken s.m p) (hostIssuer p).sess).bind (fun x => x.challenge) = some (t, blk)) ∧
      respStatus (hostTaken s.m p) (some (t, blk)) p.body = 0) ∧
    (∃ (p : Pkt) (s : State),
      hostFront 0x0A03 p s.m = true ∧
      lcStatus (hostTaken s.m p) (hostIssuer p) p.body = 0) ∧
    (∃ (m : Mach) (x : LcMove),
      m.lcy.move = some x ∧
      x.due ≤ m.time.ns ∧
      x.phase = 4) ∧
    (∃ (m : Mach) (x : LcMove),
      m.lcy.move = some x ∧
      x.due ≤ m.time.ns ∧
      x.phase = 3) ∧
    (∃ (m : Mach) (x : LcMove),
      m.lcy.move = some x ∧
      x.due ≤ m.time.ns ∧
      x.phase = 2) ∧
    (∃ (m : Mach) (x : LcMove),
      m.lcy.move = some x ∧
      x.due ≤ m.time.ns ∧
      x.phase = 1 ∧
      x.target ≠ 8) ∧
    (∃ (m : Mach) (x : LcMove),
      m.lcy.move = some x ∧
      x.due ≤ m.time.ns ∧
      x.phase = 1 ∧
      x.target = 8) ∧
    (∃ (p : Pkt) (s : State),
      hostFront 0x0A04 p s.m = true ∧
      p.body.length = 13 ∧
      wAt p.body 0 = 0) ∧
    (∃ (p : Pkt) (s : State) (d : Nat),
      hostFront 0x0A04 p s.m = true ∧
      p.body.length = 13 ∧
      d ≤ 99 ∧
      wAt p.body 0 = BitVec.ofNat 32 (128 + d) ∧
      keyUsable (hostTaken s.m p) 5 = true ∧
      dieHidden (hostTaken s.m p) d = false ∧
      dieTakes (hostTaken s.m p) d = true) ∧
    (∃ (p : Pkt) (s : State),
      hostFront 0x0A05 p s.m = true ∧
      let m := hostTaken s.m p
      let unit := wAt p.body 0
      let w := (wAt p.body 1).toNat
      let cause := nfld w 0 8
      let all := nbit w 8
      p.body.length = 2 ∧
      w < 512 ∧
      pathFields unit = true ∧
      [1, 3, 5, 6].contains (upLevel unit) = true ∧
      upPkg unit = 0 ∧
      upDie unit ≤ 99 ∧
      (all = false → 1 ≤ cause ∧ cause ≤ 9) ∧
      lcState m = 5 ∧
      rootAuthority m (hostIssuer p) 3 = true) :=
  ⟨⟨pk .host (4 :: List.replicate 8 0xFFFFFFFF), ready live 0x0A01 (pk .host (4 :: List.replicate 8 0xFFFFFFFF)), { sid := 1, handle := 1, port := .host, open_ := true, levels := [(0, { level := 4 }), (255, { level := 4, root := 3, whole := true })] }, by dsimp only; exact ⟨by decide +kernel, by decide, by decide, by decide, by decide +kernel, by decide +kernel, by decide +kernel, ⟨1, by decide, by decide, by decide +kernel⟩, by decide +kernel⟩⟩,
   ⟨pk .host response, responding, 0, challenge, by decide +kernel⟩,
   ⟨pk .host (0x101 :: 1 :: List.replicate 35 0), ready (live) 0x0A03 (pk .host (0x101 :: 1 :: List.replicate 35 0)), by decide +kernel⟩,
   ⟨{ live with lcy := { live.lcy with move := some { target := 7, data := [], cmd := 1, phase := 4, due := 4, us := 1 } }, time := { live.time with ns := 4 } }, { target := 7, data := [], cmd := 1, phase := 4, due := 4, us := 1 }, by decide +kernel⟩,
   ⟨{ live with lcy := { live.lcy with move := some { target := 7, data := [], cmd := 1, phase := 3, due := 4, us := 1 } }, time := { live.time with ns := 4 } }, { target := 7, data := [], cmd := 1, phase := 3, due := 4, us := 1 }, by decide +kernel⟩,
   ⟨{ live with lcy := { live.lcy with move := some { target := 3, data := [], cmd := 1, phase := 2, due := 4, us := 1 } }, time := { live.time with ns := 4 } }, { target := 3, data := [], cmd := 1, phase := 2, due := 4, us := 1 }, by decide +kernel⟩,
   ⟨{ live with lcy := { live.lcy with move := some { target := 1, data := [], cmd := 1, phase := 1, due := 4, us := 1 } }, time := { live.time with ns := 4 } }, { target := 1, data := [], cmd := 1, phase := 1, due := 4, us := 1 }, by decide +kernel⟩,
   ⟨{ live with lcy := { live.lcy with move := some { target := 8, data := [], cmd := 1, phase := 1, due := 4, us := 1 } }, time := { live.time with ns := 4 } }, { target := 8, data := [], cmd := 1, phase := 1, due := 4, us := 1 }, by decide +kernel⟩,
   ⟨pk .host (List.replicate 13 0), ready (live) 0x0A04 (pk .host (List.replicate 13 0)), by decide +kernel⟩,
   ⟨pk .host (0xC0 :: List.replicate 12 0), ready (setHf live R.LCY_STATE_STATE 2) 0x0A04 (pk .host (0xC0 :: List.replicate 12 0)), 64, by decide +kernel⟩,
   ⟨pk .host [0xC0, 0x109], ready (setHf live R.LCY_STATE_STATE 5) 0x0A05 (pk .host [0xC0, 0x109]), by dsimp only; decide +kernel⟩⟩

theorem witness_HealthCommandsComplete :
    (∃ (p : Pkt) (s : State),
      hostFront 0x0B01 p s.m = true ∧
      p.body.length = 5 ∧
      (wAt p.body 4).toNat ≤ 99 ∧
      listBuf (hostTaken s.m p) (hostIssuer p) (wAt p.body 0) (w64At p.body 1) (wAt p.body 3).toNat false = 0 ∧
      observesAny (hostTaken s.m p) (hostIssuer p) = true) ∧
    (∃ (p : Pkt) (s : State),
      hostFront 0x0B02 p s.m = true ∧
      p.body.length = 5 ∧
      (wAt p.body 4).toNat ≤ 99 ∧
      listBuf (hostTaken s.m p) (hostIssuer p) (wAt p.body 0) (w64At p.body 1) (wAt p.body 3).toNat false = 0 ∧
      observesAny (hostTaken s.m p) (hostIssuer p) = true) :=
  ⟨⟨pk .host [0x1001, 0, 0, 0x100000, 99], ready (rooted live) 0x0B01 (pk .host [0x1001, 0, 0, 0x100000, 99]), by decide +kernel⟩,
   ⟨pk .host [0x1001, 0, 0, 0x100000, 99], ready (rooted live) 0x0B02 (pk .host [0x1001, 0, 0, 0x100000, 99]), by decide +kernel⟩⟩

theorem witness_RegisterAccessesComplete :
    (∃ (off size : Nat) (v : W64) (s : State) (i : _),
      s.m.peer.isolated = true ∧
      i ∈ [Instr.rcRead off size, .registerWrite off size v, .doorbell size v, .ifCtlEnable v, .todArm v, .rtnDoorbell v]) ∧
    (∃ (off size : Nat) (s : State),
      s.m.peer.isolated = false ∧
      accessWidthOk off size = true) ∧
    (∃ (off size : Nat) (s : State),
      s.m.peer.isolated = false ∧
      accessWidthOk off size = false) ∧
    (∃ (off size : Nat) (v : W64) (s : State),
      s.m.peer.isolated = false ∧
      accessWidthOk off size = false) ∧
    (∃ (off : Nat) (v : W64) (s : State),
      s.m.peer.isolated = false ∧
      off < 65536 ∧
      off % 8 = 0 ∧
      off ≠ 0x0418 ∧
      off ≠ 0x0458 ∧
      off ≠ 0x0D18) ∧
    (∃ (v : W64) (s : State),
      s.m.peer.isolated = false) ∧
    (∃ (v : W64) (s : State),
      s.m.peer.isolated = false ∧
      hf s.m R.IF_STATUS_ENABLED = 0) ∧
    (∃ (v : W64) (s : State),
      s.m.peer.isolated = false ∧
      hf s.m R.IF_STATUS_ENABLED ≠ 0 ∧
      handleCurrent s.m 0 (BitVec.ofNat 32 (fld v 0 32)) = false) ∧
    (∃ (size : Nat) (v : W64) (s : State),
      s.m.peer.isolated = false ∧
      size ≠ 8) ∧
    (∃ (v : W64) (s : State) (x : Session),
      s.m.peer.isolated = false ∧
      hf s.m R.IF_STATUS_ENABLED ≠ 0 ∧
      let h : W32 := BitVec.ofNat 32 (fld v 0 32)
      handleCurrent s.m 0 h = true ∧
      (s.m.host.sessions.find? (fun y => y.sid == sidOf .host h) = some x)) ∧
    (∃ (v : W64) (s : State),
      s.m.peer.isolated = false ∧
      hf s.m R.IF_STATUS_ENABLED ≠ 0 ∧
      let h : W32 := BitVec.ofNat 32 (fld v 0 32)
      handleCurrent s.m 0 h = true ∧
      (s.m.host.sessions.find? (fun y => y.sid == sidOf .host h) = none)) ∧
    (∃ (v : W64) (s : State),
      s.m.peer.isolated = false ∧
      hf s.m R.IF_CTL_ENABLE = 0 ∧
      fld v 0 1 = 1 ∧
      v.toNat &&& 0xFFFFFFFFFFFF80FE = 0 ∧
      let m := setHf (setHf (setHf s.m R.IF_CTL_ENABLE 1) R.IF_CTL_VECTOR (fld v 8 6)) R.IF_CTL_VEC_EN (fld v 14 1)
      let a := hf m R.IF_ROOT_BASE * 4096
      let r : Root := { bases := (List.range 5).map (fun k => memNat m.hostMem (a + 16 + 16 * k) 8),
                        counts := (List.range 5).map (fun k => memNat m.hostMem (a + 24 + 16 * k) 4) }
      rootOk m.hostMem a = true) ∧
    (∃ (v : W64) (s : State),
      s.m.peer.isolated = false ∧
      hf s.m R.IF_CTL_ENABLE = 1 ∧
      fld v 0 1 = 0 ∧
      v.toNat &&& 0xFFFFFFFFFFFF80FE = 0) ∧
    (∃ (v : W64) (s : State),
      s.m.peer.isolated = false) ∧
    (∃ (v : W64) (s : State),
      s.m.peer.isolated = false) ∧
    (∃ (die tap j : Nat) (v : W64) (s : State),
      tapOk die tap = true ∧
      j < 2 ∧
      fld v 0 1 = 1) ∧
    (∃ (die tap j : Nat) (v : W64) (s : State),
      tapOk die tap = true ∧
      j < 2 ∧
      fld v 0 1 = 0) ∧
    (∃ (die tap : Nat) (v : W64) (s : State),
      tapOk die tap = true) :=
  ⟨⟨0xFFFC, 4, 0, st { live with peer := { live.peer with isolated := true } }, .rtnDoorbell 0, by decide +kernel⟩,
   ⟨0xFFFC, 4, st live, by decide +kernel⟩,
   ⟨0xFFFC, 8, st live, by decide +kernel⟩,
   ⟨0x10000, 8, 0, st live, by decide +kernel⟩,
   ⟨0xFFF8, 0, st live, by decide +kernel⟩,
   ⟨0, st live, by decide +kernel⟩,
   ⟨0, st live, by decide +kernel⟩,
   ⟨0x1001, st (setHf live R.IF_STATUS_ENABLED 1), by decide +kernel⟩,
   ⟨0xFFFC, 4, st live, by decide +kernel⟩,
   ⟨0x1001, st { setHf (rooted live) R.IF_STATUS_ENABLED 1 with host := { (rooted live).host with sessions := [{ sid := 0x1001, handle := 0x1001, port := .host }] } }, { sid := 0x1001, handle := 0x1001, port := .host }, by dsimp only; decide +kernel⟩,
   ⟨0x1001, st (setHf (rooted live) R.IF_STATUS_ENABLED 1), by dsimp only; decide +kernel⟩,
   ⟨0x7F01, st { live with hostMem := memWrite [] 0 [0x52, 0x4F, 0x4F, 0x54, 1] }, by dsimp only; decide +kernel⟩,
   ⟨0x7F00, st (setHf live R.IF_CTL_ENABLE 1), by decide +kernel⟩,
   ⟨0, st live, by decide +kernel⟩,
   ⟨0, st live, by decide +kernel⟩,
   ⟨63, 127, 1, 1, st live, by decide +kernel⟩,
   ⟨63, 127, 1, 0xFFFFFFFFFFFFFFFE, st live, by decide +kernel⟩,
   ⟨63, 127, 1, st live, by decide +kernel⟩⟩

theorem witness_TimeRowsComplete :
    (∃ (s : State),
      hf s.m R.GTC_STATUS_REF_OK = 1) ∧
    (∃ (s : State),
      hf s.m R.GTC_STATUS_REF_OK = 0) ∧
    (∃ (s : State),
      (s.m.time.ns < s.m.time.lastPps + ppsWindow ∨ hf s.m R.GTC_STATUS_PPS_OK = 0)) ∧
    (∃ (s : State),
      s.m.time.lastPps + ppsWindow ≤ s.m.time.ns ∧
      hf s.m R.GTC_STATUS_PPS_OK = 1 ∧
      let m := setHf (setHf s.m R.GTC_STATUS_PPS_OK 0) R.GTC_STATUS_LOCKED 0
      let m := { m with time := { m.time with ppsGood := 0 } }
      hf m R.GTC_STATUS_HOLDOVER = 1) ∧
    (∃ (s : State),
      s.m.time.lastPps + ppsWindow ≤ s.m.time.ns ∧
      hf s.m R.GTC_STATUS_PPS_OK = 1 ∧
      let m := setHf (setHf s.m R.GTC_STATUS_PPS_OK 0) R.GTC_STATUS_LOCKED 0
      let m := { m with time := { m.time with ppsGood := 0 } }
      hf m R.GTC_STATUS_HOLDOVER = 0) ∧
    (∃ (s : State),
      hf s.m R.GTC_STATUS_HOLDOVER = 1 ∧
      10000 < hf s.m R.GTC_STATUS_HOLD_MS ∧
      hf s.m R.GTC_STATUS_VOID = 0) ∧
    (∃ (s : State),
      ((hf s.m R.GTC_STATUS_HOLDOVER = 0 ∨ hf s.m R.GTC_STATUS_HOLD_MS ≤ 10000 ∨ hf s.m R.GTC_STATUS_VOID = 1))) ∧
    (∃ (s : State),
      s.m.time.nextSync ≤ gtcNow s.m) ∧
    (∃ (s : State),
      gtcNow s.m < s.m.time.nextSync) ∧
    (∃ (die : Nat) (f : Frame) (x : W64) (s : State),
      rxGood s.m die f 7 = true) ∧
    (∃ (die : Nat) (f : Frame) (n : Nat) (s : State),
      die < 100 ∧
      stnUp s.m die = true ∧
      f.ftype = 7 ∧
      payByte f 8 = 2) ∧
    (∃ (die : Nat) (f : Frame) (t4 : W64) (s : State),
      die < 100 ∧
      stnUp s.m die = true ∧
      f.ftype = 7 ∧
      payByte f 8 = 3 ∧
      f.dest = die ∧
      let m := doEchoRsp s.m die f t4.toNat
      (Store.get 0 s.m.time.calOpen (ringOf die) = 0 ∨ Store.get 0 m.time.calOpen (ringOf die) ≠ 0)) ∧
    (∃ (die : Nat) (f : Frame) (t4 : W64) (s : State),
      die < 100 ∧
      stnUp s.m die = true ∧
      f.ftype = 7 ∧
      payByte f 8 = 3 ∧
      f.dest = die ∧
      let m := doEchoRsp s.m die f t4.toNat
      Store.get 0 s.m.time.calOpen (ringOf die) ≠ 0 ∧
      Store.get 0 m.time.calOpen (ringOf die) = 0) ∧
    (∃ (ring : Nat) (s : State),
      ring < 4 ∧
      nbit (hf s.m R.SPN_STATUS_RING_UP) ring = true ∧
      let last := Nat.max (Store.get 0 s.m.time.calStart ring) (Store.get 0 s.m.time.calAt ring)
      (last = 0 ∨ last - 1 + second ≤ gtcNow s.m)) ∧
    (∃ (ring : Nat) (s : State),
      ring < 4 ∧
      nbit (hf s.m R.SPN_STATUS_RING_UP) ring = true ∧
      let last := Nat.max (Store.get 0 s.m.time.calStart ring) (Store.get 0 s.m.time.calAt ring)
      last ≠ 0 ∧
      gtcNow s.m < last - 1 + second) :=
  ⟨⟨st (setHf live R.GTC_STATUS_REF_OK 1), by decide +kernel⟩,
   ⟨State.reset, by decide +kernel⟩,
   ⟨st (setHf live R.GTC_STATUS_PPS_OK 1), by decide +kernel⟩,
   ⟨st (let m := setHf (setHf live R.GTC_STATUS_PPS_OK 1) R.GTC_STATUS_HOLDOVER 1; { m with time := { m.time with ns := ppsWindow } }), by dsimp only; decide +kernel⟩,
   ⟨st (let m := setHf live R.GTC_STATUS_PPS_OK 1; { m with time := { m.time with ns := ppsWindow } }), by dsimp only; decide +kernel⟩,
   ⟨st (setHf (setHf live R.GTC_STATUS_HOLDOVER 1) R.GTC_STATUS_HOLD_MS 10001), by decide +kernel⟩,
   ⟨State.reset, by decide +kernel⟩,
   ⟨State.reset, by decide +kernel⟩,
   ⟨st { live with time := { live.time with nextSync := 1 } }, by decide +kernel⟩,
   ⟨99, frame 7 99 (zeros 8 ++ [2]), 5, st live, by decide +kernel⟩,
   ⟨99, frame 7 99 (zeros 8 ++ [2]), 5, st live, by decide +kernel⟩,
   ⟨99, frame 7 99 (zeros 8 ++ [3]), 5, st live, by dsimp only; decide +kernel⟩,
   ⟨99, frame 7 99 (zeros 8 ++ [3]), 0, st { updStn live 99 (fun x => { x with echo := [(echoKey 99 99, (255, 0))] }) with time := { live.time with calOpen := [(3, 1)] } }, by dsimp only; decide +kernel⟩,
   ⟨3, st live, by dsimp only; decide +kernel⟩,
   ⟨3, st { live with time := { live.time with calStart := [(3, 1)] } }, by dsimp only; decide +kernel⟩⟩

theorem witness_DamagedFramesOnlyCount :
    (∃ (die : Nat) (f : Frame) (x : W64) (s : State) (g : FrameEnd → Instr × Nat),
      die < 100 ∧
      stnLive s.m die = true ∧
      ((g = (fun e => (.rdReq die f e, 1)) ∨ g = (fun e => (.wrReq die f e, 2)) ∨ g = (fun e => (.bcastWr die f e, 5)) ∨
       g = (fun e => (.gather die f e, 6)) ∨ g = (fun e => (.syncFrame die f e x, 7)) ∨ g = (fun e => (.armFrame die f e, 9)) ∨
       g = (fun e => (.armStitch die f e, 9)) ∨ g = (fun e => (.cancel die f e, 9)) ∨ g = (fun e => (.bulkFrame die f e, 11)))) ∧
      f.ftype = (g .good).2) ∧
    (∃ (die : Nat) (f : Frame) (x : W64) (s : State) (g : FrameEnd → Instr × Nat),
      die < 100 ∧
      stnLive s.m die = true ∧
      ((g = (fun e => (.rdReq die f e, 1)) ∨ g = (fun e => (.wrReq die f e, 2)) ∨ g = (fun e => (.bcastWr die f e, 5)) ∨
       g = (fun e => (.gather die f e, 6)) ∨ g = (fun e => (.syncFrame die f e x, 7)) ∨ g = (fun e => (.armFrame die f e, 9)) ∨
       g = (fun e => (.armStitch die f e, 9)) ∨ g = (fun e => (.cancel die f e, 9)) ∨ g = (fun e => (.bulkFrame die f e, 11)))) ∧
      f.ftype = (g .good).2 ∧
      destReserved f = true) ∧
    (∃ (die : Nat) (f : Frame) (x : W64) (s : State) (g : FrameEnd → Instr × Nat),
      die < 100 ∧
      stnLive s.m die = true ∧
      ((g = (fun e => (.rdReq die f e, 1)) ∨ g = (fun e => (.wrReq die f e, 2)) ∨ g = (fun e => (.bcastWr die f e, 5)) ∨
       g = (fun e => (.gather die f e, 6)) ∨ g = (fun e => (.syncFrame die f e x, 7)) ∨ g = (fun e => (.armFrame die f e, 9)) ∨
       g = (fun e => (.armStitch die f e, 9)) ∨ g = (fun e => (.cancel die f e, 9)) ∨ g = (fun e => (.bulkFrame die f e, 11)))) ∧
      f.ftype = (g .good).2 ∧
      destReserved f = false ∧
      posOf die = 0 ∧
      f.wrapped = true ∧
      isGather f = false) ∧
    (∃ (die : Nat) (f : Frame) (x : W64) (s : State) (g : FrameEnd → Instr × Nat),
      die < 100 ∧
      stnLive s.m die = true ∧
      ((g = (fun e => (.rdReq die f e, 1)) ∨ g = (fun e => (.wrReq die f e, 2)) ∨ g = (fun e => (.bcastWr die f e, 5)) ∨
       g = (fun e => (.gather die f e, 6)) ∨ g = (fun e => (.syncFrame die f e x, 7)) ∨ g = (fun e => (.armFrame die f e, 9)) ∨
       g = (fun e => (.armStitch die f e, 9)) ∨ g = (fun e => (.cancel die f e, 9)) ∨ g = (fun e => (.bulkFrame die f e, 11)))) ∧
      f.ftype = (g .good).2 ∧
      destReserved f = false ∧
      (posOf die ≠ 0 ∨ f.wrapped = false ∨ isGather f = true) ∧
      addressed (noteEnd s.m die f .good) die f = false) :=
  ⟨⟨99, frame 11 99, 0, st live, fun e => (.bulkFrame 99 (frame 11 99) e, 11), by exact ⟨by decide, by decide +kernel, by simp, rfl⟩⟩,
   ⟨99, { frame 11 99 with dest := 101 }, 0, st live, fun e => (.bulkFrame 99 ({ frame 11 99 with dest := 101 }) e, 11), by exact ⟨by decide, by decide +kernel, by simp, rfl, by decide +kernel⟩⟩,
   ⟨99, { frame 11 99 with wrapped := true }, 0, st live, fun e => (.bulkFrame 99 ({ frame 11 99 with wrapped := true }) e, 11), by exact ⟨by decide, by decide +kernel, by simp, rfl, by decide +kernel, by decide +kernel, rfl, rfl⟩⟩,
   ⟨0, frame 11 1, 0, st live, fun e => (.bulkFrame 0 (frame 11 1) e, 11), by exact ⟨by decide, by decide +kernel, by simp, rfl, by decide +kernel, by decide +kernel, by decide +kernel⟩⟩⟩

theorem witness_RequestsComplete :
    (∃ (die : Nat) (f : Frame) (x : Dup) (s : State),
      rxGood s.m die f 1 = true ∧
      let m := rxTaken s.m die f
      lostSilent m die f = false ∧
      ((stn m die).dups.find? (fun y => y.src == f.src && y.tag == f.tag) = some x)) ∧
    (∃ (die : Nat) (f : Frame) (x : Dup) (s : State),
      rxGood s.m die f 2 = true ∧
      let m := rxTaken s.m die f
      lostSilent m die f = false ∧
      ((stn m die).dups.find? (fun y => y.src == f.src && y.tag == f.tag) = some x)) ∧
    (∃ (die : Nat) (f : Frame) (s : State),
      rxGood s.m die f 1 = true ∧
      let m := rxTaken s.m die f
      let st := requestStatus m die f (targetOf m die f) false
      let r := stationRead m die f (targetOf m die f)
      lostSilent m die f = false ∧
      ((stn m die).dups.find? (fun y => y.src == f.src && y.tag == f.tag) = none)) ∧
    (∃ (die : Nat) (f : Frame) (s : State),
      rxGood s.m die f 2 = true ∧
      let m := rxTaken s.m die f
      let st := requestStatus m die f (targetOf m die f) true
      let r := stationWrite m die f (targetOf m die f)
      let rsp := responseFrame die f 4 (if r.2 then 5 else 0) []
      lostSilent m die f = false ∧
      ((stn m die).dups.find? (fun y => y.src == f.src && y.tag == f.tag) = none)) :=
  ⟨⟨99, frame 1 99, { src := 99, tag := 0, rsp := frame 3 99 }, st (updStn live 99 (fun x => { x with dups := [{ src := 99, tag := 0, rsp := frame 3 99 }] })), by dsimp only; decide +kernel⟩,
   ⟨99, frame 2 99, { src := 99, tag := 0, rsp := frame 3 99 }, st (updStn live 99 (fun x => { x with dups := [{ src := 99, tag := 0, rsp := frame 3 99 }] })), by dsimp only; decide +kernel⟩,
   ⟨99, frame 1 99, st live, by dsimp only; decide +kernel⟩,
   ⟨99, frame 2 99, st live, by dsimp only; decide +kernel⟩⟩

theorem witness_StationFramesComplete :
    (∃ (die : Nat) (f : Frame) (s : State),
      rxGood s.m die f 5 = true ∧
      let m := rxTaken s.m die f
      let r := castWords die f (f.payload.length / 8) (fld f.word1 0 24) f.payload m
      nbit (fld f.word1 24 3) (dieKind die) = true ∧
      fld f.word1 0 24 % 8 = 0 ∧
      lostSilent m die f = false) ∧
    (∃ (die : Nat) (f : Frame) (s : State),
      rxGood s.m die f 5 = true ∧
      let m := rxTaken s.m die f
      ((nbit (fld f.word1 24 3) (dieKind die) = false ∨ fld f.word1 0 24 % 8 ≠ 0 ∨ lostSilent m die f = true))) ∧
    (∃ (die : Nat) (f : Frame) (s : State),
      rxGood s.m die f 6 = true ∧
      gatherBad (fld f.word1 32 4) f.len = false ∧
      f.wrapped = false) ∧
    (∃ (die : Nat) (f : Frame) (s : State),
      rxGood s.m die f 6 = true ∧
      gatherBad (fld f.word1 32 4) f.len = false ∧
      f.wrapped = true) ∧
    (∃ (die : Nat) (f : Frame) (s : State),
      rxGood s.m die f 6 = true ∧
      gatherBad (fld f.word1 32 4) f.len = true) ∧
    (∃ (die : Nat) (f : Frame) (s : State),
      rxGood s.m die f 11 = true ∧
      0x800000 ≤ fld f.word1 0 24 ∧
      fld f.word1 0 24 < 0x810000) ∧
    (∃ (die : Nat) (f : Frame) (s : State),
      rxGood s.m die f 11 = true ∧
      (fld f.word1 0 24 < 0x800000 ∨ 0x810000 ≤ fld f.word1 0 24) ∧
      let seq := fld f.word1 32 32
      let a := fld f.word1 0 24
      let m := updStn (rxTaken s.m die f) die (fun x => { x with bulk := Store.put [] x.bulk seq f.payload })
      let parts := (List.range 16).map (fun j => Store.get [] (stn m die).bulk (16 * (seq / 16) + j))
      let gone (l : Store (List Byte)) := (List.range 16).foldl (fun l j => Store.put [] l (16 * (seq / 16) + j) []) l
      die < 64 ∧
      seq / 16 < 512 ∧
      f.payload.length = 256) ∧
    (∃ (die : Nat) (f : Frame) (s : State),
      die < 100 ∧
      stnLive s.m die = true ∧
      reservedFrame f = true) :=
  ⟨⟨63, frame 5 63 [] 0x1000008, st live, by dsimp only; decide +kernel⟩,
   ⟨63, frame 5 63 [] 0x1000001, st live, by dsimp only; decide +kernel⟩,
   ⟨99, frame 6 99 [] 0x300000000 200, st live, by decide +kernel⟩,
   ⟨63, { frame 6 63 [] 0x300000000 200 with wrapped := true }, st live, by decide +kernel⟩,
   ⟨99, frame 6 99 [] 0x400000000 200, st live, by decide +kernel⟩,
   ⟨63, frame 11 63 (List.replicate 256 1) 0x80FF00, st live, by decide +kernel⟩,
   ⟨63, frame 11 63 (List.replicate 256 1) 0x1FFF00000000, st live, by dsimp only; decide +kernel⟩,
   ⟨99, frame 6 99 [] 0x400000000 200, st live, by decide +kernel⟩⟩

theorem witness_WaypointFramesComplete :
    (∃ (die : Nat) (f : Frame) (s : State),
      rxGood s.m die f 9 = true ∧
      payByte f 0 = 3 ∧
      f.payload.length = 64 ∧
      let m := rxTaken s.m die f
      let a := armOfPayload f.word1.toNat f.payload
      1 ≤ a.action ∧
      a.action < 13 ∧
      armHeld m die a = false) ∧
    (∃ (die : Nat) (f : Frame) (s : State),
      rxGood s.m die f 9 = true ∧
      payByte f 0 = 3 ∧
      f.payload.length = 64 ∧
      let m := rxTaken s.m die f
      let a := armOfPayload f.word1.toNat f.payload
      1 ≤ a.action ∧
      a.action < 13 ∧
      armHeld m die a = true) ∧
    (∃ (die : Nat) (f : Frame) (a : Arm) (s : State),
      rxGood s.m die f 9 = true ∧
      payByte f 0 = 1 ∧
      let m := rxTaken s.m die f
      ((stn m die).wpts.find? (fun x => x.armId == bytesAt f.payload 8 8) = some a) ∧
      repNow m die < a.t ∧
      a.stitch = false) ∧
    (∃ (die : Nat) (f : Frame) (a : Arm) (s : State),
      rxGood s.m die f 9 = true ∧
      payByte f 0 = 1 ∧
      let m := rxTaken s.m die f
      ((stn m die).wpts.find? (fun x => x.armId == bytesAt f.payload 8 8) = some a) ∧
      repNow m die < a.t ∧
      a.stitch = true) ∧
    (∃ (die : Nat) (f : Frame) (s : State),
      rxGood s.m die f 9 = true ∧
      payByte f 0 = 1 ∧
      let m := rxTaken s.m die f
      ((∀ a, (stn m die).wpts.find? (fun x => x.armId == bytesAt f.payload 8 8) = some a → a.t ≤ repNow m die))) ∧
    (∃ (die : Nat) (f : Frame) (s : State),
      rxGood s.m die f 9 = true ∧
      f.payload.length = 48 ∧
      let m := rxTaken s.m die f
      let a := armOfPayload f.word1.toNat f.payload
      a.stitch = true ∧
      a.action < 8 ∧
      armHeld m die a = false ∧
      repNow m die < a.t) ∧
    (∃ (die : Nat) (f : Frame) (s : State),
      rxGood s.m die f 9 = true ∧
      f.payload.length = 48 ∧
      let m := rxTaken s.m die f
      let a := armOfPayload f.word1.toNat f.payload
      a.stitch = true ∧
      a.action < 8 ∧
      armHeld m die a = false ∧
      a.t ≤ repNow m die) ∧
    (∃ (die : Nat) (s : State) (a : Arm),
      die < 100 ∧
      stnUp s.m die = true ∧
      ((stn s.m die).wpts.find? (fun x => x.armId == a.armId && armHalts x) = some a) ∧
      repNow s.m die < a.t ∧
      a.t ≤ repNow s.m die + 8) ∧
    (∃ (die tap : Nat) (s : State) (a : Arm),
      tapOk die tap = true ∧
      stnUp s.m die = true ∧
      ((stn s.m die).wpts.find? (fun x => x.armId == a.armId && armHalts x) = some a) ∧
      a.t < repNow s.m die + 4) ∧
    (∃ (die : Nat) (s : State),
      die < 100 ∧
      stnUp s.m die = true ∧
      ((stn s.m die).wpts.any (fun a => decide (a.t ≤ repNow s.m die)) = true)) :=
  ⟨⟨0, frame 9 0 (3 :: 12 :: zeros 62) 16, st live, by dsimp only; decide +kernel⟩,
   ⟨0, frame 9 0 ([3, 12] ++ zeros 6 ++ [9] ++ zeros 55) 16, st (armed (arm0 16)), by dsimp only; decide +kernel⟩,
   ⟨0, frame 9 0 (1 :: zeros 7 ++ [9]) 0, arm0 1, st (armed (arm0 1)), by dsimp only; decide +kernel⟩,
   ⟨0, frame 9 0 (1 :: zeros 7 ++ [9]) 0, arm0 1 true, st (armed (arm0 1 true)), by dsimp only; decide +kernel⟩,
   ⟨0, frame 9 0 (1 :: zeros 7 ++ [9]) 0, st (armed (arm0 0)), by dsimp only; decide +kernel⟩,
   ⟨0, frame 9 0 (2 :: 7 :: zeros 46) 1, st live, by dsimp only; decide +kernel⟩,
   ⟨0, frame 9 0 (2 :: 7 :: zeros 46) 0, st live, by dsimp only; decide +kernel⟩,
   ⟨0, st (armed (arm0 8)), arm0 8, by decide +kernel⟩,
   ⟨0, 127, st (armed (arm0 3)), arm0 3, by decide +kernel⟩,
   ⟨0, st (armed (arm0 0)), by decide +kernel⟩⟩

theorem witness_HubFramesComplete :
    (∃ (die : Nat) (f : Frame) (s : State),
      die < 100 ∧
      f.ftype = 3 ∧
      f.src = die) ∧
    (∃ (die : Nat) (f : Frame) (s : State),
      die < 100 ∧
      f.ftype = 4 ∧
      f.src = die) ∧
    (∃ (die : Nat) (f : Frame) (e : FrameEnd) (s : State),
      die < 100 ∧
      f.src = die ∧
      e ≠ .good ∧
      f.ftype = 3) ∧
    (∃ (die : Nat) (f : Frame) (e : FrameEnd) (s : State),
      die < 100 ∧
      f.src = die ∧
      e ≠ .good ∧
      f.ftype = 4) ∧
    (∃ (ring : Nat) (f : Frame) (s : State),
      ring < 4 ∧
      f.ftype = 6) ∧
    (∃ (ring : Nat) (f : Frame) (e : FrameEnd) (s : State),
      ring < 4 ∧
      f.ftype = 6 ∧
      e ≠ .good) ∧
    (∃ (ring tag : Nat) (s : State) (r : OutReq),
      ring < 4 ∧
      (s.m.spine.reqs.find? (fun r => r.ring == ring && r.tag == tag) = some r) ∧
      r.due ≤ gtcNow s.m ∧
      waitsAtHub s.m ring tag true = false) ∧
    (∃ (ring tag : Nat) (s : State) (g : OutGather),
      ring < 4 ∧
      (s.m.spine.reqs.find? (fun r => r.ring == ring && r.tag == tag) = none) ∧
      (s.m.spine.gathers.find? (fun g => g.ring == ring && g.tag == tag) = some g) ∧
      g.due ≤ gtcNow s.m ∧
      waitsAtHub s.m ring tag false = false) ∧
    (∃ (ring alive : Nat) (s : State),
      ring < 4 ∧
      nbit (hf s.m R.SPN_STATUS_RING_UP) ring = true ∧
      nbit s.m.spine.hold ring = false ∧
      Store.get 0 s.m.spine.beats ring ≤ gtcNow s.m) ∧
    (∃ (die : Nat) (s : State) (e : Ev) (r : List Ev),
      die < 100 ∧
      (stn s.m die).events = e :: r ∧
      frameArrives s.m die = true) ∧
    (∃ (ring dir : Nat) (s : State),
      ring < 4 ∧
      dir < 2 ∧
      (s.m.spine.heldFrames.any (fun h => h.1 == ring && h.2.1 == dir) = true) ∧
      nbit s.m.spine.hold ring = false ∧
      shareUsed s.m ring dir < shareNs s.m) :=
  ⟨⟨99, frame 3 99, st live, by decide +kernel⟩,
   ⟨99, frame 4 99, st live, by decide +kernel⟩,
   ⟨99, frame 3 99, .eofBad, st live, by exact ⟨by decide, rfl, by decide⟩⟩,
   ⟨99, frame 4 99, .eofBad, st live, by decide +kernel⟩,
   ⟨3, frame 6 99, st live, by decide +kernel⟩,
   ⟨3, frame 6 99, .crcBad, st live, by decide +kernel⟩,
   ⟨3, 5, st { live with spine := { live.spine with reqs := [req0] } }, req0, by decide +kernel⟩,
   ⟨3, 5, st { live with spine := { live.spine with gathers := [gather0] } }, gather0, by decide +kernel⟩,
   ⟨3, 1, st live, by decide +kernel⟩,
   ⟨63, st (updStn live 63 (fun x => { x with events := [event0] })), event0, [], by decide +kernel⟩,
   ⟨3, 1, st { live with spine := { live.spine with heldFrames := [(3, 1, frame 1 99)] } }, by decide +kernel⟩⟩

theorem witness_RingEventsComplete :
    (∃ (ring pos lo hi : Nat) (s : State),
      ring < 4 ∧
      pos < 25 ∧
      s.m.spine.down.contains (ring, pos) = false) ∧
    (∃ (ring pos lo hi : Nat) (s : State),
      ring < 4 ∧
      pos < 25 ∧
      s.m.spine.down.contains (ring, pos) = true) ∧
    (∃ (m : Mach) (d : Nat) (f : Frame),
      Store.get 0 (stn m d).badRun (travelDir f) = 3) ∧
    (∃ (trunk : Nat) (s : State),
      trunk < 4 ∧
      trunkUp s.m trunk = true) ∧
    (∃ (trunk : Nat) (s : State),
      trunk < 4 ∧
      trunkUp s.m trunk = false ∧
      s.m.bup.env.isSome = true) ∧
    (∃ (ring pos : Nat) (s : State),
      ring < 4 ∧
      pos < 25 ∧
      s.m.spine.down.contains (ring, pos) = true ∧
      s.m.spine.retrained.contains (ring, pos) = false ∧
      ((∀ p ∈ [pos, (pos + 1) % 25], posPresent s.m ring p = true ∧ nbit s.m.hth.faulted (dieAt ring p) = false))) ∧
    (∃ (ring pos : Nat) (s : State),
      ring < 4 ∧
      pos < 25) :=
  ⟨⟨3, 24, 0, 0, st live, by decide +kernel⟩,
   ⟨3, 24, 0, 0, st { live with spine := { live.spine with down := [(3, 24)], known := [(3, 24)] } }, by decide +kernel⟩,
   ⟨updStn live 63 (fun x => { x with badRun := [(0, 3)] }), 63, frame 1 63, by decide +kernel⟩,
   ⟨3, st live, by decide +kernel⟩,
   ⟨3, st (setHf live R.SPN_TRUNK_TRUNK_UP 0), by decide +kernel⟩,
   ⟨3, 24, st { live with spine := { live.spine with down := [(3, 24)], known := [(3, 24)] } }, by decide +kernel⟩,
   ⟨3, 24, st { live with spine := { live.spine with down := [(3, 24)], known := [(3, 24)] } }, by decide +kernel⟩⟩

theorem witness_EngineRowsComplete :
    (∃ (die tap e : Nat) (b : Boundary) (s : State),
      engOk die tap e = true ∧
      (eng s.m die tap e).stopping = false ∧
      let x := eng s.m die tap e
      engState s.m die tap e = 1 ∧
      boundaryEligible x b = true) ∧
    (∃ (die tap e : Nat) (b : Boundary) (s : State),
      engOk die tap e = true ∧
      (eng s.m die tap e).stopping = false ∧
      let x := eng s.m die tap e
      engState s.m die tap e = 1 ∧
      boundaryEligible x b = false) ∧
    (∃ (die tap e : Nat) (b : Boundary) (s : State),
      engOk die tap e = true ∧
      (eng s.m die tap e).stopping = false ∧
      let x := eng s.m die tap e
      engState s.m die tap e = 4 ∧
      x.stepMode ≠ 3 ∧
      x.stopNext = true) ∧
    (∃ (die tap e : Nat) (b : Boundary) (s : State),
      engOk die tap e = true ∧
      (eng s.m die tap e).stopping = false ∧
      let x := eng s.m die tap e
      engState s.m die tap e = 4 ∧
      (x.stepMode = 3 ∨ x.stopNext = false)) ∧
    (∃ (die tap e : Nat) (b : Boundary) (s : State),
      engOk die tap e = true ∧
      (eng s.m die tap e).stopping = false ∧
      let x := eng s.m die tap e
      engState s.m die tap e = 0) ∧
    (∃ (die tap e : Nat) (b : Boundary) (s : State),
      engOk die tap e = true ∧
      (eng s.m die tap e).stopping = false ∧
      let x := eng s.m die tap e
      engState s.m die tap e ∈ [2, 3, 5, 6]) ∧
    (∃ (die tap e : Nat) (b : Boundary) (s : State),
      engOk die tap e = true ∧
      (eng s.m die tap e).stopping = true) ∧
    (∃ (die tap e : Nat) (s : State),
      engOk die tap e = true ∧
      engState s.m die tap e = 1 ∧
      (eng s.m die tap e).deferFrom + 2048 ≤ repNow s.m die) ∧
    (∃ (die tap e : Nat) (s : State),
      engOk die tap e = true ∧
      engState s.m die tap e = 1 ∧
      repNow s.m die < (eng s.m die tap e).deferFrom + 2048) ∧
    (∃ (die tap e : Nat) (s : State),
      engOk die tap e = true ∧
      engState s.m die tap e = 4 ∧
      ((eng s.m die tap e).stepMode = 1 ∨ (eng s.m die tap e).stepMode = 2) ∧
      (eng s.m die tap e).stopNext = false ∧
      (eng s.m die tap e).stepUntil ≤ repNow s.m die) ∧
    (∃ (die tap e : Nat) (more : Bool) (s : State),
      engOk die tap e = true ∧
      engState s.m die tap e ∈ [0, 1, 4]) ∧
    (∃ (die tap e : Nat) (more : Bool) (s : State),
      engOk die tap e = true ∧
      engState s.m die tap e ∈ [2, 3, 5, 6]) ∧
    (∃ (die tap : Nat) (s : State),
      tapOk die tap = true ∧
      ((∀ e < 4, engState s.m die tap e = 0)) ∧
      haltHere s.m die tap = false) ∧
    (∃ (die tap : Nat) (s : State),
      tapOk die tap = true ∧
      ((∃ e < 4, 1 ≤ engState s.m die tap e ∧ engState s.m die tap e ≤ 4) ∨ haltHere s.m die tap = true)) ∧
    (∃ (die tap : Nat) (s : State),
      tapOk die tap = true ∧
      ((∃ e < 4, engState s.m die tap e = 5 ∨ engState s.m die tap e = 6))) :=
  ⟨⟨63, 127, 3, { clid := 0, entry := 0, midEntry := false, inSequence := false, lockHeld := false }, st (setTf live 63 127 R.TAP_RUN_STATE_STATE 0x1000), by dsimp only; decide +kernel⟩,
   ⟨63, 127, 3, { clid := 0, entry := 0, midEntry := false, inSequence := true, lockHeld := false }, st (setTf live 63 127 R.TAP_RUN_STATE_STATE 0x1000), by dsimp only; decide +kernel⟩,
   ⟨63, 127, 3, { clid := 0, entry := 0, midEntry := false, inSequence := false, lockHeld := false }, st (updEng (setTf live 63 127 R.TAP_RUN_STATE_STATE 0x4000) 63 127 3 (fun x => { x with stopNext := true })), by dsimp only; decide +kernel⟩,
   ⟨63, 127, 3, { clid := 0, entry := 0, midEntry := false, inSequence := false, lockHeld := false }, st (updEng (setTf live 63 127 R.TAP_RUN_STATE_STATE 0x4000) 63 127 3 (fun x => { x with stopNext := true, stepMode := 3 })), by dsimp only; decide +kernel⟩,
   ⟨63, 127, 3, { clid := 0, entry := 0, midEntry := false, inSequence := false, lockHeld := false }, st (setTf live 63 127 R.TAP_RUN_STATE_STATE 0), by dsimp only; decide +kernel⟩,
   ⟨63, 127, 3, { clid := 0, entry := 0, midEntry := false, inSequence := false, lockHeld := false }, st (setTf live 63 127 R.TAP_RUN_STATE_STATE 0x2000), by dsimp only; decide +kernel⟩,
   ⟨63, 127, 3, { clid := 0, entry := 0, midEntry := false, inSequence := false, lockHeld := false }, st (updEng (setTf live 63 127 R.TAP_RUN_STATE_STATE 0x4000) 63 127 3 (fun x => { x with stopping := true })), by decide +kernel⟩,
   ⟨63, 127, 3, st (updStn (setTf live 63 127 R.TAP_RUN_STATE_STATE 0x1000) 63 (fun x => { x with replica := 2048 })), by decide +kernel⟩,
   ⟨63, 127, 3, st (updStn (setTf live 63 127 R.TAP_RUN_STATE_STATE 0x1000) 63 (fun x => { x with replica := 2047 })), by decide +kernel⟩,
   ⟨63, 127, 3, st (updEng (setTf live 63 127 R.TAP_RUN_STATE_STATE 0x4000) 63 127 3 (fun x => { x with stepMode := 2 })), by decide +kernel⟩,
   ⟨63, 127, 3, true, st (setTf live 63 127 R.TAP_RUN_STATE_STATE 0), by decide +kernel⟩,
   ⟨63, 127, 3, true, st (setTf live 63 127 R.TAP_RUN_STATE_STATE 0x6000), by decide +kernel⟩,
   ⟨63, 127, st (setTf live 63 127 R.TAP_RUN_STATE_STATE 0), by decide +kernel⟩,
   ⟨63, 127, st (setTf live 63 127 R.TAP_RUN_STATE_STATE 0x4000), by exact ⟨by decide, .inl ⟨3, by decide, by decide +kernel, by decide +kernel⟩⟩⟩,
   ⟨63, 127, st (setTf live 63 127 R.TAP_RUN_STATE_STATE 0x5000), by exact ⟨by decide, 3, by decide, .inl (by decide +kernel)⟩⟩⟩

theorem witness_BreakRowsComplete :
    (∃ (die tap e clid entry : Nat) (s : State),
      engOk die tap e = true ∧
      (eng s.m die tap e).passBreak = true ∧
      tf s.m die tap R.TAP_RUN_HREC_CLID e = clid ∧
      tf s.m die tap R.TAP_RUN_HREC_ENTRY e = entry ∧
      tf s.m die tap R.TAP_RUN_HREC_MID_ENTRY e = 0) ∧
    (∃ (die tap e clid entry : Nat) (s : State),
      engOk die tap e = true ∧
      standsBefore s.m die tap e clid entry = false) ∧
    (∃ (die tap e clid entry : Nat) (s : State),
      engOk die tap e = true ∧
      (eng s.m die tap e).passBreak = false ∧
      ((∀ b < 8, tf s.m die tap R.TAP_BRK_CTL_EN b = 0))) ∧
    (∃ (m : Mach) (die tap e clid entry b : Nat),
      Store.get 0 (core_ m die tap).brkSkip b < tf m die tap R.TAP_BRK_CTL_SKIP b) ∧
    (∃ (m : Mach) (die tap e clid entry b : Nat),
      tf m die tap R.TAP_BRK_CTL_SKIP b ≤ Store.get 0 (core_ m die tap).brkSkip b ∧
      let trig := slotTrigger m die tap R.TAP_BRK_CTL_TRIG_EN R.TAP_BRK_CTL_TRIGGER b
      tf m die tap R.TAP_BRK_CTL_ACTION b = 0) ∧
    (∃ (m : Mach) (die tap e clid entry b : Nat),
      tf m die tap R.TAP_BRK_CTL_SKIP b ≤ Store.get 0 (core_ m die tap).brkSkip b ∧
      let trig := slotTrigger m die tap R.TAP_BRK_CTL_TRIG_EN R.TAP_BRK_CTL_TRIGGER b
      tf m die tap R.TAP_BRK_CTL_ACTION b = 1) ∧
    (∃ (m : Mach) (die tap e clid entry b : Nat),
      tf m die tap R.TAP_BRK_CTL_SKIP b ≤ Store.get 0 (core_ m die tap).brkSkip b ∧
      let trig := slotTrigger m die tap R.TAP_BRK_CTL_TRIG_EN R.TAP_BRK_CTL_TRIGGER b
      2 ≤ tf m die tap R.TAP_BRK_CTL_ACTION b) ∧
    (∃ (die tap e : Nat) (addr : W64) (ty : Nat) (priv : Bool) (s : State),
      engOk die tap e = true) ∧
    (∃ (m0 : Mach) (die tap e addr w : Nat),
      let m := setTf m0 die tap R.TAP_WP_LAST_ADDR addr
      let n := Store.get 0 (core_ m die tap).brkSkip (8 + w)
      let h := slotHalter m die tap (8 + w)
      let trig := slotTrigger m die tap R.TAP_WP_CTL_TRIG_EN R.TAP_WP_CTL_TRIGGER w
      n < tf m die tap R.TAP_WP_CTL_SKIP w) ∧
    (∃ (m0 : Mach) (die tap e addr w : Nat),
      let m := setTf m0 die tap R.TAP_WP_LAST_ADDR addr
      let n := Store.get 0 (core_ m die tap).brkSkip (8 + w)
      let h := slotHalter m die tap (8 + w)
      let trig := slotTrigger m die tap R.TAP_WP_CTL_TRIG_EN R.TAP_WP_CTL_TRIGGER w
      tf m die tap R.TAP_WP_CTL_SKIP w ≤ n ∧
      tf m die tap R.TAP_WP_CTL_ACTION w = 0) ∧
    (∃ (m0 : Mach) (die tap e addr w : Nat),
      let m := setTf m0 die tap R.TAP_WP_LAST_ADDR addr
      let n := Store.get 0 (core_ m die tap).brkSkip (8 + w)
      let h := slotHalter m die tap (8 + w)
      let trig := slotTrigger m die tap R.TAP_WP_CTL_TRIG_EN R.TAP_WP_CTL_TRIGGER w
      tf m die tap R.TAP_WP_CTL_SKIP w ≤ n ∧
      tf m die tap R.TAP_WP_CTL_ACTION w = 1) ∧
    (∃ (m0 : Mach) (die tap e addr w : Nat),
      let m := setTf m0 die tap R.TAP_WP_LAST_ADDR addr
      let n := Store.get 0 (core_ m die tap).brkSkip (8 + w)
      let h := slotHalter m die tap (8 + w)
      let trig := slotTrigger m die tap R.TAP_WP_CTL_TRIG_EN R.TAP_WP_CTL_TRIGGER w
      tf m die tap R.TAP_WP_CTL_SKIP w ≤ n ∧
      2 ≤ tf m die tap R.TAP_WP_CTL_ACTION w) :=
  ⟨⟨63, 127, 3, 0, 0, st (updEng live 63 127 3 (fun x => { x with passBreak := true })), by decide +kernel⟩,
   ⟨63, 127, 3, 0, 0, st live, by decide +kernel⟩,
   ⟨63, 127, 3, 0, 0, st live, by decide +kernel⟩,
   ⟨setTf live 63 127 R.TAP_BRK_CTL_SKIP 1 7, 63, 127, 3, 0, 0, 7, by decide +kernel⟩,
   ⟨setTf live 63 127 R.TAP_BRK_CTL_ACTION 0 7, 63, 127, 3, 0, 0, 7, by dsimp only; decide +kernel⟩,
   ⟨setTf live 63 127 R.TAP_BRK_CTL_ACTION 1 7, 63, 127, 3, 0, 0, 7, by dsimp only; decide +kernel⟩,
   ⟨setTf live 63 127 R.TAP_BRK_CTL_ACTION 2 7, 63, 127, 3, 0, 0, 7, by dsimp only; decide +kernel⟩,
   ⟨63, 127, 3, 0, 0, 7, st (setTf (setTf live 63 127 R.TAP_BRK_CTL_EN 1 7) 63 127 R.TAP_BRK_CTL_ENGINE 3 7), by decide +kernel⟩,
   ⟨setTf live 63 127 R.TAP_WP_CTL_SKIP 1 3, 63, 127, 3, 16, 3, by dsimp only; decide +kernel⟩,
   ⟨setTf live 63 127 R.TAP_WP_CTL_ACTION 0 3, 63, 127, 3, 16, 3, by dsimp only; decide +kernel⟩,
   ⟨setTf live 63 127 R.TAP_WP_CTL_ACTION 1 3, 63, 127, 3, 16, 3, by dsimp only; decide +kernel⟩,
   ⟨setTf live 63 127 R.TAP_WP_CTL_ACTION 2 3, 63, 127, 3, 16, 3, by dsimp only; decide +kernel⟩⟩

theorem witness_RunCompletionsComplete :
    (∃ (cmd : Nat) (s : State) (c : Cmd),
      findCmd s.m cmd = some c ∧
      c.op = 0x0201 ∧
      c.t + 2200 ≤ gtcNow s.m ∧
      ((∀ a ∈ s.m.run.arms, a.cmd ≠ cmd))) ∧
    (∃ (cmd : Nat) (s : State) (c : Cmd),
      findCmd s.m cmd = some c ∧
      c.op = 0x0203 ∧
      wfld (wAt c.body 6) 0 2 ≠ 2 ∧
      c.t + wfld (wAt c.body 6) 16 16 * 1000 + 1000 ≤ gtcNow s.m ∧
      ((s.m.engs.any (fun x => x.2.stepCmd == cmd)) = true) ∧
      ((∀ a ∈ s.m.run.arms, a.cmd ≠ cmd))) ∧
    (∃ (k : Nat) (s : State) (o : Orphan),
      s.m.run.orphans[k]? = some o ∧
      o.due ≤ gtcNow s.m ∧
      ((hf s.m R.RUN_ORPHAN_POLICY = 1 → ∀ c ∈ o.cores, stitchOverlaps s.m (orphanScope s.m o c) = false))) ∧
    (∃ (k : Nat) (s : State) (o : Orphan),
      s.m.run.orphans[k]? = some o ∧
      gtcNow s.m < o.due) :=
  ⟨⟨1, st (withCmd 2200 (cmd0 0x0201)), cmd0 0x0201, by decide +kernel⟩,
   ⟨1, st (updEng (withCmd 65536000 (cmd0 0x0203 [1, 0, 0, 0, 0, 0, 0xFFFF0001, 0])) 63 127 3 (fun x => { x with stepCmd := 1 })), cmd0 0x0203 [1, 0, 0, 0, 0, 0, 0xFFFF0001, 0], by decide +kernel⟩,
   ⟨0, st { live with run := { live.run with orphans := [{ now := 256, was := 0, cores := [], due := 0 }] } }, { now := 256, was := 0, cores := [], due := 0 }, by decide +kernel⟩,
   ⟨0, st { live with run := { live.run with orphans := [{ now := 256, was := 0, cores := [], due := 1 }] } }, { now := 256, was := 0, cores := [], due := 1 }, by decide +kernel⟩⟩

theorem witness_ComposerRowsComplete :
    (∃ (b : BindMsg) (s : State) (d inst : Nat),
      bindUnit b = some (d, inst) ∧
      upPkg b.unit = pkgNum s.m ∧
      let was := boundNow s.m d inst
      bindCause s.m b d inst was = 0) ∧
    (∃ (b : BindMsg) (s : State) (d inst : Nat),
      bindUnit b = some (d, inst) ∧
      upPkg b.unit = pkgNum s.m ∧
      let was := boundNow s.m d inst
      bindCause s.m b d inst was ≠ 0) ∧
    (∃ (b : BindMsg) (s : State),
      bindUnit b = none) ∧
    (∃ (b : BindMsg) (s : State) (d inst : Nat),
      bindUnit b = some (d, inst) ∧
      upPkg b.unit ≠ pkgNum s.m) ∧
    (∃ (part : Nat) (digest : List Byte) (port : Port) (s : State),
      (ownerOf s.m part = (if digest.all (fun x => x == 0) then none else some { digest := digest, port := port }))) ∧
    (∃ (part : Nat) (digest : List Byte) (port : Port) (s : State),
      let new : Option Owner := if digest.all (fun x => x == 0) then none else some { digest := digest, port := port }
      ownerOf s.m part ≠ new) ∧
    (∃ (pkg : Nat) (joined : Bool) (s : State),
      s.m.comp.jobs = []) ∧
    (∃ (pkg : Nat) (joined : Bool) (s : State),
      s.m.comp.jobs ≠ []) ∧
    (∃ (job : W32) (ps : PartMap) (s : State),
      ps ≠ 0 ∧
      ((∀ j ∈ s.m.comp.jobs, j.1 ≠ job)) ∧
      s.m.comp.jobs.length < 64) ∧
    (∃ (job : W32) (ps : PartMap) (s : State),
      ps ≠ 0 ∧
      ((∀ j ∈ s.m.comp.jobs, j.1 ≠ job)) ∧
      64 ≤ s.m.comp.jobs.length) ∧
    (∃ (job : W32) (ps : PartMap) (s : State),
      ps ≠ 0 ∧
      ((∃ j ∈ s.m.comp.jobs, j.1 = job))) ∧
    (∃ (job : W32) (s : State),
      (s.m.comp.fabricDue = none ∨ s.m.comp.jobs.filter (fun j => j.1 != job) ≠ [])) ∧
    (∃ (job : W32) (pkg : Nat) (joined : Bool) (s : State),
      s.m.comp.fabricDue = some (pkg, joined) ∧
      (s.m.comp.jobs.filter (fun j => j.1 != job) = [])) :=
  ⟨⟨bind0, State.reset, 63, 127, by dsimp only; decide +kernel⟩,
   ⟨bind0, st live, 63, 127, by dsimp only; decide +kernel⟩,
   ⟨{ bind0 with ch := 16 }, st live, by decide +kernel⟩,
   ⟨{ bind0 with unit := bind0.unit + 0x1000000 }, st live, 63, 127, by decide +kernel⟩,
   ⟨255, zeros 48, .host, st live, by decide +kernel⟩,
   ⟨255, List.replicate 48 1, .host, st live, by dsimp only; decide +kernel⟩,
   ⟨7, true, State.reset, by decide +kernel⟩,
   ⟨7, true, st { live with comp := { live.comp with jobs := [(5, 1)] } }, by decide +kernel⟩,
   ⟨63, 1, st { live with comp := { live.comp with jobs := (List.range 63).map (fun k => (BitVec.ofNat 32 k, 1)) } }, by refine ⟨by decide, fun j h => ?_, by decide⟩; obtain ⟨k, hk, rfl⟩ := List.mem_map.1 h; rw [List.mem_range] at hk; exact fun e => by have := congrArg BitVec.toNat e; simp at this; omega⟩,
   ⟨64, 1, st { live with comp := { live.comp with jobs := (List.range 64).map (fun k => (BitVec.ofNat 32 k, 1)) } }, by refine ⟨by decide, fun j h => ?_, by decide⟩; obtain ⟨k, hk, rfl⟩ := List.mem_map.1 h; rw [List.mem_range] at hk; exact fun e => by have := congrArg BitVec.toNat e; simp at this; omega⟩,
   ⟨5, 1, st { live with comp := { live.comp with jobs := [(5, 1)] } }, by decide +kernel⟩,
   ⟨5, st { live with comp := { live.comp with jobs := [(5, 1)] } }, by decide +kernel⟩,
   ⟨5, 7, true, st { live with comp := { live.comp with jobs := [(5, 1)], fabricDue := some (7, true) } }, by decide +kernel⟩⟩

theorem witness_CutRowsComplete :
    (∃ (die : Nat) (s : State),
      die < 100 ∧
      stnUp s.m die = true) ∧
    (∃ (die port : Nat) (bytes : List Byte) (vc : Nat) (err : Bool) (s : State),
      portOk die port = true ∧
      stnUp s.m die = true ∧
      bytes ≠ [] ∧
      bytes.length < 65536 ∧
      cutState s.m die port ≠ 0 ∧
      cutState s.m die port ≠ 5 ∧
      let b := cutBuf s.m die port
      let r : CutRec := { stamp := repNow s.m die, vc := vc, err := err, bytes := bytes }
      sf s.m die R.STN_CUT_STAT_FULL port = 1) ∧
    (∃ (die port : Nat) (bytes : List Byte) (vc : Nat) (err : Bool) (s : State),
      portOk die port = true ∧
      stnUp s.m die = true ∧
      bytes ≠ [] ∧
      bytes.length < 65536 ∧
      cutState s.m die port ≠ 0 ∧
      cutState s.m die port ≠ 5 ∧
      let b := cutBuf s.m die port
      let r : CutRec := { stamp := repNow s.m die, vc := vc, err := err, bytes := bytes }
      sf s.m die R.STN_CUT_STAT_FULL port ≠ 1 ∧
      cutState s.m die port = 1 ∧
      cutFill b + cutRecSize r ≤ cutSize die port) ∧
    (∃ (die port : Nat) (bytes : List Byte) (vc : Nat) (err : Bool) (s : State),
      portOk die port = true ∧
      stnUp s.m die = true ∧
      bytes ≠ [] ∧
      bytes.length < 65536 ∧
      cutState s.m die port ≠ 0 ∧
      cutState s.m die port ≠ 5 ∧
      let b := cutBuf s.m die port
      let r : CutRec := { stamp := repNow s.m die, vc := vc, err := err, bytes := bytes }
      sf s.m die R.STN_CUT_STAT_FULL port ≠ 1 ∧
      cutState s.m die port = 1 ∧
      cutSize die port < cutFill b + cutRecSize r) ∧
    (∃ (die port : Nat) (bytes : List Byte) (vc : Nat) (err : Bool) (s : State),
      portOk die port = true ∧
      stnUp s.m die = true ∧
      bytes ≠ [] ∧
      bytes.length < 65536 ∧
      cutState s.m die port ≠ 0 ∧
      cutState s.m die port ≠ 5 ∧
      let b := cutBuf s.m die port
      let r : CutRec := { stamp := repNow s.m die, vc := vc, err := err, bytes := bytes }
      sf s.m die R.STN_CUT_STAT_FULL port ≠ 1 ∧
      cutState s.m die port ≠ 1) ∧
    (∃ (die port : Nat) (bytes : List Byte) (vc : Nat) (err : Bool) (s : State),
      portOk die port = true ∧
      stnUp s.m die = true ∧
      bytes ≠ [] ∧
      bytes.length < 65536 ∧
      cutState s.m die port = 0 ∧
      sf s.m die R.STN_CUT_STAT_FULL port ≠ 1 ∧
      let b := cutBuf s.m die port
      let r : CutRec := { stamp := repNow s.m die, vc := vc, err := err, bytes := bytes }
      96 ≤ die ∧
      farEnd die port = none ∧
      dieInCut s.m die = true) ∧
    (∃ (die port : Nat) (bytes : List Byte) (vc : Nat) (err : Bool) (s : State),
      portOk die port = true ∧
      stnUp s.m die = true ∧
      bytes ≠ [] ∧
      bytes.length < 65536 ∧
      cutState s.m die port = 0 ∧
      sf s.m die R.STN_CUT_STAT_FULL port ≠ 1 ∧
      let b := cutBuf s.m die port
      let r : CutRec := { stamp := repNow s.m die, vc := vc, err := err, bytes := bytes }
      (die < 96 ∨ farEnd die port ≠ none ∨ dieInCut s.m die = false)) ∧
    (∃ (die port : Nat) (s : State) (x : Cap),
      portOk die port = true ∧
      stnUp s.m die = true ∧
      cutState s.m die port = 1 ∧
      sf s.m die R.STN_CUT_STAT_FULL port = 0 ∧
      cap s.m die (cutBuf s.m die port).slot = some x ∧
      x.fired = true ∧
      noMarker s.m die port x.kind = false) ∧
    (∃ (die : Nat) (s : State),
      die < 100 ∧
      stnUp s.m die = true) ∧
    (∃ (die : Nat) (s : State),
      die < 100 ∧
      stnUp s.m die = true) :=
  ⟨⟨99, st live, by decide +kernel⟩,
   ⟨0, 4, [1], 7, false, st (setSf capturing 0 R.STN_CUT_STAT_FULL 1 4), by dsimp only; decide +kernel⟩,
   ⟨0, 4, [1], 7, false, st capturing, by dsimp only; decide +kernel⟩,
   ⟨0, 4, [1], 7, false, st (updStn capturing 0 (fun x => { x with cuts := [(4, { slot := 7, recs := [{ stamp := 0, vc := 0, err := false, bytes := List.replicate 65520 0 }] })] })), by dsimp only; decide +kernel⟩,
   ⟨0, 4, [1], 7, false, st (setSf capturing 0 R.STN_CUT_STAT_STATE 2 4), by dsimp only; decide +kernel⟩,
   ⟨99, 8, [1], 7, false, st (setSf live 99 R.STN_CUT_STAT_STATE 2 0), by dsimp only; decide +kernel⟩,
   ⟨63, 4, [1], 7, false, st live, by dsimp only; decide +kernel⟩,
   ⟨0, 4, st capturing, cap0, by decide +kernel⟩,
   ⟨99, st live, by decide +kernel⟩,
   ⟨99, st live, by decide +kernel⟩⟩

theorem witness_StitchRowsComplete :
    (∃ (slot : Nat) (s : State) (x : Dump) (c : Cmd),
      dump s.m slot = some x ∧
      dumpBusy x = true ∧
      x.nextGather ≤ gtcNow s.m ∧
      let due := x.nextGather + 100000 * ((gtcNow s.m - x.nextGather) / 100000 + 1)
      let m := updDump s.m slot (fun y => { y with nextGather := due })
      let m := if x.fired then m else pinScope m slot
      findCmd m x.cmd = none) ∧
    (∃ (slot : Nat) (s : State) (x : Dump) (c : Cmd),
      dump s.m slot = some x ∧
      dumpBusy x = true ∧
      x.nextGather ≤ gtcNow s.m ∧
      let due := x.nextGather + 100000 * ((gtcNow s.m - x.nextGather) / 100000 + 1)
      let m := updDump s.m slot (fun y => { y with nextGather := due })
      let m := if x.fired then m else pinScope m slot
      findCmd m x.cmd = some c ∧
      ((∀ g ∈ m.spine.gathers, g.cmd ≠ c.id))) ∧
    (∃ (slot : Nat) (s : State) (x : Dump) (c : Cmd),
      dump s.m slot = some x ∧
      dumpBusy x = true ∧
      x.nextGather ≤ gtcNow s.m ∧
      let due := x.nextGather + 100000 * ((gtcNow s.m - x.nextGather) / 100000 + 1)
      let m := updDump s.m slot (fun y => { y with nextGather := due })
      let m := if x.fired then m else pinScope m slot
      findCmd m x.cmd = some c ∧
      ((∃ g ∈ m.spine.gathers, g.cmd = c.id))) ∧
    (∃ (slot : Nat) (s : State) (x : Dump),
      dump s.m slot = some x ∧
      dumpBusy x = true ∧
      gtcNow s.m < x.nextGather) ∧
    (∃ (slot : Nat) (s : State) (x : Dump),
      dump s.m slot = some x ∧
      dumpBusy x = true ∧
      x.t + 5000000 ≤ gtcNow s.m) ∧
    (∃ (slot : Nat) (s : State) (x : Dump),
      dump s.m slot = some x ∧
      dumpBusy x = true ∧
      gtcNow s.m < x.t + 5000000) ∧
    (∃ (stack folio : Nat) (s : State),
      stack < 32 ∧
      folio < captureFolios ∧
      ((∀ k < 8, ∀ x, dump s.m k = some x → dumpBusy x = true → ∀ q ∈ x.quires, q.stack = stack → q.base ≤ folio → folio < q.base + q.span →
        ∀ c, cap s.m q.die k = some c → c.done = true))) ∧
    (∃ (stack folio k : Nat) (s : State) (x : Dump) (q : Quire) (c : Cap),
      stack < 32 ∧
      folio < captureFolios ∧
      k < 8 ∧
      ((∀ j < 8, j ≠ k → dump s.m j = none)) ∧
      dump s.m k = some x ∧
      dumpBusy x = true ∧
      x.quires = [q] ∧
      q.stack = stack ∧
      q.base ≤ folio ∧
      folio < q.base + q.span ∧
      cap s.m q.die k = some c ∧
      c.done = false) :=
  ⟨⟨7, st (let m := withDump7 { state := 4, cmd := 1 } 0; { m with cmds := [], spine := { m.spine with gathers := [] } }), { state := 4, cmd := 1 }, cmd0 0x0301, by dsimp only; decide +kernel⟩,
   ⟨7, st (let m := withDump7 { state := 4, cmd := 1 } 0; { m with cmds := [cmd0 0x0301], spine := { m.spine with gathers := [] } }), { state := 4, cmd := 1 }, cmd0 0x0301, by dsimp only; decide +kernel⟩,
   ⟨7, st (let m := withDump7 { state := 4, cmd := 1 } 0; { m with cmds := [cmd0 0x0301], spine := { m.spine with gathers := [gather0] } }), { state := 4, cmd := 1 }, cmd0 0x0301, by dsimp only; decide +kernel⟩,
   ⟨7, st (withDump7 { state := 4, nextGather := 1 } 0), { state := 4, nextGather := 1 }, by decide +kernel⟩,
   ⟨7, st (withDump7 { state := 4 } 5000000), { state := 4 }, by decide +kernel⟩,
   ⟨7, st (withDump7 { state := 4 } 0), { state := 4 }, by decide +kernel⟩,
   ⟨31, 172031, st live, by exact ⟨by decide, by decide, fun k _ x h => nomatch (show (none : Option Dump) = some x from h)⟩⟩,
   ⟨31, 172031, 7, st (withDump7 { state := 2, quires := [{ die := 0, q := 0, stack := 31, base := 0, span := 172032 }] } 0), { state := 2, quires := [{ die := 0, q := 0, stack := 31, base := 0, span := 172032 }] }, { die := 0, q := 0, stack := 31, base := 0, span := 172032 }, cap0, by decide +kernel⟩⟩

theorem witness_TallyRowsComplete :
    (∃ (cmd part : Nat) (readErr : Bool) (s : State) (r : TallyRun) (p : TallyPart),
      tallyRun s.m cmd = some r ∧
      r.parts[part]? = some p ∧
      p.active = true ∧
      p.ended = false ∧
      stnAnswers s.m p.die = true) ∧
    (∃ (cmd part : Nat) (readErr : Bool) (s : State) (r : TallyRun) (p : TallyPart),
      tallyRun s.m cmd = some r ∧
      r.parts[part]? = some p ∧
      (p.active = false ∨ p.ended = true ∨ stnAnswers s.m p.die = false)) ∧
    (∃ (die tap e : Nat) (w : WriteBack) (s : State),
      engOk die tap e = true ∧
      (e = 1 ∨ e = 2) ∧
      let hits := sentinelHits s.m die tap (e - 1) w
      let m := hits.foldl (fun m x => countKind m die tap (e - 1) x.1) s.m
      hits = []) ∧
    (∃ (die tap e : Nat) (w : WriteBack) (s : State),
      engOk die tap e = true ∧
      (e = 1 ∨ e = 2) ∧
      let hits := sentinelHits s.m die tap (e - 1) w
      let m := hits.foldl (fun m x => countKind m die tap (e - 1) x.1) s.m
      hits ≠ [] ∧
      tf m die tap R.TAP_SNT_FIRST_VALID (e - 1) = 1) ∧
    (∃ (die tap e : Nat) (w : WriteBack) (s : State) (kind x : _),
      engOk die tap e = true ∧
      (e = 1 ∨ e = 2) ∧
      let hits := sentinelHits s.m die tap (e - 1) w
      let m := hits.foldl (fun m x => countKind m die tap (e - 1) x.1) s.m
      lowestHit hits = some (kind, x) ∧
      tf m die tap R.TAP_SNT_FIRST_VALID (e - 1) ≠ 1) ∧
    (∃ (l : List (Nat × Element)) (kind : Nat) (x : Element),
      lowestHit l = some (kind, x)) ∧
    (∃ (l : List (Nat × Element)) (kind : Nat) (x : Element) (y : _),
      lowestHit l = some (kind, x) ∧
      y ∈ l) ∧
    (∃ (die : Nat) (s : State),
      die < 100 ∧
      stnUp s.m die = true) :=
  ⟨⟨1, 0, true, st { live with tly := [tally0] }, tally0, part0, by decide +kernel⟩,
   ⟨1, 0, false, st { live with tly := [{ tally0 with parts := [{ part0 with ended := true }] }] }, { tally0 with parts := [{ part0 with ended := true }] }, { part0 with ended := true }, by decide +kernel⟩,
   ⟨63, 127, 2, nan0, st live, by dsimp only; decide +kernel⟩,
   ⟨63, 127, 2, nan0, st (setTf (setTf live 63 127 R.TAP_SNT_CTL_KINDS 15 1) 63 127 R.TAP_SNT_FIRST_VALID 1 1), by dsimp only; decide +kernel⟩,
   ⟨63, 127, 2, nan0, st (setTf live 63 127 R.TAP_SNT_CTL_KINDS 15 1), 1, { bits := 0x7FC0, addr := 0, saturated := false, scale := 0 }, by dsimp only; decide +kernel⟩,
   ⟨[(0, { bits := 0x7FC0, addr := 0, saturated := false, scale := 0 })], 0, { bits := 0x7FC0, addr := 0, saturated := false, scale := 0 }, by decide +kernel⟩,
   ⟨[(1, { bits := 0x7FC0, addr := 2, saturated := false, scale := 0 }), (0, { bits := 0x7FC0, addr := 0, saturated := false, scale := 0 })], 0, { bits := 0x7FC0, addr := 0, saturated := false, scale := 0 }, (1, { bits := 0x7FC0, addr := 2, saturated := false, scale := 0 }), by decide +kernel⟩,
   ⟨99, st live, by decide +kernel⟩⟩

theorem witness_TraceRowsComplete :
    (∃ (die tap k : Nat) (x : Transaction) (y : Stream) (s : State),
      tapOk die tap = true ∧
      let t := repNow s.m die + x.cycles / 2
      tapStream s.m die tap t = some k ∧
      stream s.m k = some y ∧
      inStreamScope s.m die tap y = true ∧
      tapPasses s.m die tap x = true ∧
      let m0 := beginSource s.m die k tap
      let m := updSrc m0 die k tap (fun r => { r with sampled := r.sampled + 1 })
      (srcOf m0 die k tap).sampled % 2 ^ tf m die tap R.TAP_TRC_CTL_SAMPLE ≠ 0) ∧
    (∃ (die tap k : Nat) (x : Transaction) (y : Stream) (s : State),
      tapOk die tap = true ∧
      let t := repNow s.m die + x.cycles / 2
      tapStream s.m die tap t = some k ∧
      stream s.m k = some y ∧
      inStreamScope s.m die tap y = true ∧
      tapPasses s.m die tap x = true ∧
      let m0 := beginSource s.m die k tap
      let m := updSrc m0 die k tap (fun r => { r with sampled := r.sampled + 1 })
      (srcOf m0 die k tap).sampled % 2 ^ tf m die tap R.TAP_TRC_CTL_SAMPLE = 0) ∧
    (∃ (die tap : Nat) (x : Transaction) (s : State),
      tapOk die tap = true ∧
      ((∀ k y, tapStream s.m die tap (repNow s.m die + x.cycles / 2) = some k → stream s.m k = some y →
        inStreamScope s.m die tap y = false ∨ tapPasses s.m die tap x = false))) ∧
    (∃ (die port : Nat) (x : LinkHeader) (s : State),
      die < 100 ∧
      port < portsOf die ∧
      let k := sf s.m die R.STN_TRC_LINK_SLOT port
      sf s.m die R.STN_TRC_LINK_EN port = 1 ∧
      records s.m die k (repNow s.m die) = true ∧
      nbit (sf s.m die R.STN_TRC_LINK_DIR port) (b2n x.outgoing) = true ∧
      nbit (sf s.m die R.STN_TRC_LINK_VC port) x.vc = true) ∧
    (∃ (die slot h : Nat) (s : State),
      die < 100 ∧
      (trS s.m die slot).horizon = some h ∧
      tokensPassed s.m die slot h = true) ∧
    (∃ (die slot h : Nat) (s : State),
      die < 100 ∧
      (trS s.m die slot).horizon = some h ∧
      tokensPassed s.m die slot h = false) ∧
    (∃ (die slot : Nat) (x : Stream) (s : State),
      die < 100 ∧
      stream s.m slot = some x ∧
      ((x.mode = 2 ∨ x.mode = 3 ∧ hostRoom s.m x = true)) ∧
      spillable s.m die slot ≠ [] ∧
      stnAnswers s.m die = true ∧
      burstDue s.m die (spillRoute x) = true) ∧
    (∃ (die slot : Nat) (x : Stream) (s : State),
      die < 100 ∧
      stream s.m slot = some x ∧
      ((x.mode = 2 ∨ x.mode = 3 ∧ hostRoom s.m x = true)) ∧
      spillable s.m die slot ≠ [] ∧
      stnAnswers s.m die = true ∧
      burstDue s.m die (spillRoute x) = false) ∧
    (∃ (slot : Nat) (s : State) (x : Stream) (g : Merge),
      stream s.m slot = some x ∧
      x.merge = some g ∧
      g.present = true ∧
      ((∀ c ∈ s.m.cmds, c.op = 0x0604 → c.aux.head? ≠ some slot)) ∧
      g.since + 10000000000 ≤ gtcNow s.m) :=
  ⟨⟨63, 127, 7, { engine := 3, ttype := 3, addr := 0, bytes := 8, err := false, privileged := false, secure := false, cycles := 0 }, stream0 3 16, st (updSrc (setTf tracing 63 127 R.TAP_TRC_CTL_SAMPLE 1) 63 7 127 (fun r => { r with sampled := 1 })), by dsimp only; decide +kernel⟩,
   ⟨63, 127, 7, { engine := 3, ttype := 3, addr := 0, bytes := 8, err := false, privileged := false, secure := false, cycles := 0 }, stream0 3 16, st tracing, by dsimp only; decide +kernel⟩,
   ⟨63, 127, { engine := 3, ttype := 3, addr := 0, bytes := 8, err := false, privileged := false, secure := false, cycles := 0 }, st live, by exact ⟨by decide, fun k y h _ => nomatch (show (none : Option Nat) = some k from h)⟩⟩,
   ⟨63, 4, { outgoing := true, vc := 7, bytes := 8, err := false, secure := false, header := [] }, st tracing, by dsimp only; decide +kernel⟩,
   ⟨63, 7, 8, st tracing, by decide +kernel⟩,
   ⟨63, 7, 8, st (updStn tracing 63 (fun x => { x with queues := [(127, [{ slot := 7, stamp := 7, loose := false, body := .sleep }])] })), by decide +kernel⟩,
   ⟨63, 7, { stream0 3 16 with mode := 2 }, st { tracing with trc := { tracing.trc with slots := [(7, some { stream0 3 16 with mode := 2 })] } }, by decide +kernel⟩,
   ⟨63, 7, { stream0 3 16 with mode := 2 }, st (updStn { tracing with trc := { tracing.trc with slots := [(7, some { stream0 3 16 with mode := 2 })] } } 63 (fun x => { x with lastBurst := [(spillRoute ({ stream0 3 16 with mode := 2 }), some 1)] })), by decide +kernel⟩,
   ⟨7, st (let m := withStream 3 16; { m with trc := { m.trc with slots := [(7, some { stream0 4 16 with merge := some merge0 })] }, time := { m.time with gtc := 10000000000 } }), { stream0 4 16 with merge := some merge0 }, merge0, by decide +kernel⟩⟩

theorem witness_RoutineStepsComplete :
    (∃ (s : State) (run op : Nat) (r : Run) (y : Routine) (x : StepF),
      2 ≤ op ∧
      op ≤ 10 ∧
      stepReady s.m run op r y x) ∧
    (∃ (s : State) (run : Nat) (r : Run) (y : Routine) (x : StepF),
      stepReady s.m run 12 r y x) ∧
    (∃ (s : State) (run : Nat) (r : Run) (y : Routine) (x : StepF),
      stepReady s.m run 18 r y x) ∧
    (∃ (s : State) (run : Nat) (r : Run) (y : Routine) (x : StepF),
      stepReady s.m run 0 r y x) ∧
    (∃ (s : State) (run : Nat) (r : Run) (y : Routine) (x : StepF),
      stepReady s.m run 1 r y x) ∧
    (∃ (s : State) (run t : Nat) (r : Run),
      runOf s.m run = some r ∧
      r.waiting = some t ∧
      t ≤ gtcNow s.m) ∧
    (∃ (s : State) (run : Nat) (r : Run) (y : Routine) (x : StepF),
      stepReady s.m run 13 r y x) ∧
    (∃ (s : State) (run : Nat) (r : Run) (y : Routine) (x : StepF),
      stepReady s.m run 14 r y x) ∧
    (∃ (s : State) (run : Nat) (r : Run) (y : Routine) (x : StepF),
      stepReady s.m run 15 r y x) ∧
    (∃ (s : State) (run : Nat) (r : Run) (y : Routine) (x : StepF),
      stepReady s.m run 16 r y x) ∧
    (∃ (s : State) (run : Nat) (r : Run) (y : Routine) (x : StepF),
      stepReady s.m run 17 r y x) ∧
    (∃ (s : State) (run : Nat) (r : Run) (y : Routine) (x : StepF),
      stepReady s.m run 11 r y x ∧
      let sc := scopeAt (stepTaken s.m run x) (liveScope (stepTaken s.m run x) y x) 0
      scopeDark (stepTaken s.m run x) sc = false ∧
      scopeLevel (stepTaken s.m run x) (stepIssuer (runTaken r x)) sc 2 = true ∧
      scopeMoved (stepTaken s.m run x) sc = false) ∧
    (∃ (s : State) (run st : Nat) (detail : List W32) (r : Run) (y : Routine),
      runOf s.m run = some r ∧
      r.result = some (st, detail) ∧
      routineOf s.m r.routine r.sid = some y ∧
      let x := stepOf ((y.steps[r.pc]?).getD 0)
      x.op ≠ 11 ∧
      x.op ≠ 12) ∧
    (∃ (s : State) (run st : Nat) (detail : List W32) (r : Run) (y : Routine),
      runOf s.m run = some r ∧
      r.result = some (st, detail) ∧
      routineOf s.m r.routine r.sid = some y ∧
      let x := stepOf ((y.steps[r.pc]?).getD 0)
      x.op = 11 ∧
      bcastWaits s.m r = false) ∧
    (∃ (s : State) (run st : Nat) (detail : List W32) (r : Run) (y : Routine),
      runOf s.m run = some r ∧
      r.result = some (st, detail) ∧
      routineOf s.m r.routine r.sid = some y ∧
      let x := stepOf ((y.steps[r.pc]?).getD 0)
      x.op = 11 ∧
      bcastWaits s.m r = true) ∧
    (∃ (s : State) (run st : Nat) (detail : List W32) (r : Run) (y : Routine),
      runOf s.m run = some r ∧
      r.result = some (st, detail) ∧
      routineOf s.m r.routine r.sid = some y ∧
      let x := stepOf ((y.steps[r.pc]?).getD 0)
      x.op = 12 ∧
      st ≠ 0) ∧
    (∃ (s : State) (run st : Nat) (detail : List W32) (r : Run) (y : Routine),
      runOf s.m run = some r ∧
      r.result = some (st, detail) ∧
      routineOf s.m r.routine r.sid = some y ∧
      let x := stepOf ((y.steps[r.pc]?).getD 0)
      x.op = 12 ∧
      st = 0) :=
  ⟨⟨running (0x0A00FFFF * 2 ^ 96), 1, 10, run0, stepping (0x0A00FFFF * 2 ^ 96), stepOf (0x0A00FFFF * 2 ^ 96), by exact ⟨by decide, by decide, by decide +kernel, by decide +kernel, rfl, rfl, rfl, (0x0A00FFFF * 2 ^ 96), rfl, rfl, by decide⟩⟩,
   ⟨running (0x0C00FFFF * 2 ^ 96), 1, run0, stepping (0x0C00FFFF * 2 ^ 96), stepOf (0x0C00FFFF * 2 ^ 96), by exact ⟨by decide +kernel, by decide +kernel, rfl, rfl, rfl, (0x0C00FFFF * 2 ^ 96), rfl, rfl, by decide⟩⟩,
   ⟨running (0x1200FFFF * 2 ^ 96), 1, run0, stepping (0x1200FFFF * 2 ^ 96), stepOf (0x1200FFFF * 2 ^ 96), by exact ⟨by decide +kernel, by decide +kernel, rfl, rfl, rfl, (0x1200FFFF * 2 ^ 96), rfl, rfl, by decide⟩⟩,
   ⟨running (0x0000FFFF * 2 ^ 96), 1, run0, stepping (0x0000FFFF * 2 ^ 96), stepOf (0x0000FFFF * 2 ^ 96), by exact ⟨by decide +kernel, by decide +kernel, rfl, rfl, rfl, (0x0000FFFF * 2 ^ 96), rfl, rfl, by decide⟩⟩,
   ⟨running (0x0100FFFF * 2 ^ 96), 1, run0, stepping (0x0100FFFF * 2 ^ 96), stepOf (0x0100FFFF * 2 ^ 96), by exact ⟨by decide +kernel, by decide +kernel, rfl, rfl, rfl, (0x0100FFFF * 2 ^ 96), rfl, rfl, by decide⟩⟩,
   ⟨running 0 { run0 with waiting := some 0 }, 1, 0, { run0 with waiting := some 0 }, by decide +kernel⟩,
   ⟨running (0x0D00FFFF * 2 ^ 96), 1, run0, stepping (0x0D00FFFF * 2 ^ 96), stepOf (0x0D00FFFF * 2 ^ 96), by exact ⟨by decide +kernel, by decide +kernel, rfl, rfl, rfl, (0x0D00FFFF * 2 ^ 96), rfl, rfl, by decide⟩⟩,
   ⟨running (0x0E00FFFF * 2 ^ 96), 1, run0, stepping (0x0E00FFFF * 2 ^ 96), stepOf (0x0E00FFFF * 2 ^ 96), by exact ⟨by decide +kernel, by decide +kernel, rfl, rfl, rfl, (0x0E00FFFF * 2 ^ 96), rfl, rfl, by decide⟩⟩,
   ⟨running (0x0F00FFFF * 2 ^ 96), 1, run0, stepping (0x0F00FFFF * 2 ^ 96), stepOf (0x0F00FFFF * 2 ^ 96), by exact ⟨by decide +kernel, by decide +kernel, rfl, rfl, rfl, (0x0F00FFFF * 2 ^ 96), rfl, rfl, by decide⟩⟩,
   ⟨running (0x1000FFFF * 2 ^ 96), 1, run0, stepping (0x1000FFFF * 2 ^ 96), stepOf (0x1000FFFF * 2 ^ 96), by exact ⟨by decide +kernel, by decide +kernel, rfl, rfl, rfl, (0x1000FFFF * 2 ^ 96), rfl, rfl, by decide⟩⟩,
   ⟨running (0x1100FFFF * 2 ^ 96), 1, run0, stepping (0x1100FFFF * 2 ^ 96), stepOf (0x1100FFFF * 2 ^ 96), by exact ⟨by decide +kernel, by decide +kernel, rfl, rfl, rfl, (0x1100FFFF * 2 ^ 96), rfl, rfl, by decide⟩⟩,
   ⟨running (0x0B000000 * 2 ^ 96), 1, run0, stepping (0x0B000000 * 2 ^ 96), stepOf (0x0B000000 * 2 ^ 96), by exact ⟨⟨by decide +kernel, by decide +kernel, rfl, rfl, rfl, (0x0B000000 * 2 ^ 96), rfl, rfl, by decide⟩, by decide +kernel, by decide +kernel, by decide +kernel⟩⟩,
   ⟨running (0x0200FFFF * 2 ^ 96) { run0 with busyStep := true, result := some (0, []) }, 1, 0, [], { run0 with busyStep := true, result := some (0, []) }, stepping (0x0200FFFF * 2 ^ 96), by dsimp only; decide +kernel⟩,
   ⟨running (0x0B00FFFF * 2 ^ 96) { run0 with busyStep := true, result := some (0, []) }, 1, 0, [], { run0 with busyStep := true, result := some (0, []) }, stepping (0x0B00FFFF * 2 ^ 96), by dsimp only; decide +kernel⟩,
   ⟨(let s := running (0x0B00FFFF * 2 ^ 96) ({ { run0 with busyStep := true, result := some (0, []) } with frames := [frame 5 0] }); { s with m := { s.m with spine := { s.m.spine with onHold := [(0, frame 5 0)] } } }), 1, 0, [], { { run0 with busyStep := true, result := some (0, []) } with frames := [frame 5 0] }, stepping (0x0B00FFFF * 2 ^ 96), by dsimp only; decide +kernel⟩,
   ⟨running (0x0C00FFFF * 2 ^ 96) { run0 with busyStep := true, result := some (16, []) }, 1, 16, [], { run0 with busyStep := true, result := some (16, []) }, stepping (0x0C00FFFF * 2 ^ 96), by dsimp only; decide +kernel⟩,
   ⟨running (0x0C00FFFF * 2 ^ 96) { run0 with busyStep := true, result := some (0, []) }, 1, 0, [], { run0 with busyStep := true, result := some (0, []) }, stepping (0x0C00FFFF * 2 ^ 96), by dsimp only; decide +kernel⟩⟩

theorem witness_TriggerRowsComplete :
    (∃ (s : State) (r : Run) (y : Routine),
      (s.m.rtn.runs.find? (fun r => !r.executing &&
        !(s.m.rtn.runs.any (fun x => x.executing && x.routine == r.routine && x.sid == r.sid))) = some r) ∧
      ((s.m.rtn.runs.filter (fun x => x.executing)).length < 8) ∧
      routineOf s.m r.routine r.sid = some y ∧
      y.resident = true) ∧
    (∃ (s : State) (r : Run),
      (s.m.rtn.runs.find? (fun r => !r.executing &&
        !(s.m.rtn.runs.any (fun x => x.executing && x.routine == r.routine && x.sid == r.sid))) = some r) ∧
      ((s.m.rtn.runs.filter (fun x => x.executing)).length < 8) ∧
      routineOf s.m r.routine r.sid = none) ∧
    (∃ (s : State) (r : Run) (y : _) (m : _),
      (s.m.rtn.runs.find? (fun r => !r.executing &&
        !(s.m.rtn.runs.any (fun x => x.executing && x.routine == r.routine && x.sid == r.sid))) = some r) ∧
      ((s.m.rtn.runs.filter (fun x => x.executing)).length < 8) ∧
      routineOf s.m r.routine r.sid = some y ∧
      y.resident = false ∧
      makeRoom s.m = some m) ∧
    (∃ (s : State) (r : Run) (y : _),
      (s.m.rtn.runs.find? (fun r => !r.executing &&
        !(s.m.rtn.runs.any (fun x => x.executing && x.routine == r.routine && x.sid == r.sid))) = some r) ∧
      ((s.m.rtn.runs.filter (fun x => x.executing)).length < 8) ∧
      routineOf s.m r.routine r.sid = some y ∧
      y.resident = false ∧
      makeRoom s.m = none) ∧
    (∃ (n stamp : Nat) (source : W32) (s : State) (t : Trigger),
      trigger s.m n = some t ∧
      t.pending = some (stamp, source) ∧
      actionBusy t = false) ∧
    (∃ (n : Nat) (s : State) (t : Trigger),
      trigger s.m n = some t ∧
      t.source = 5 ∧
      gtcNow s.m < t.nextT ∧
      t.nextT ≤ gtcNow s.m + 1000 * t.advanceUs) ∧
    (∃ (die port : Nat) (s : State),
      die < 100 ∧
      port < portsOf die) ∧
    (∃ (pin : Nat) (s : State),
      pin < 4) ∧
    (∃ (pin : Nat) (level : Bool) (s : State),
      pin < 4 ∧
      nbit s.m.pins.trigIn pin = !level ∧
      let key := 2 * pin + b2n level
      let lv := if level then setBit s.m.pins.trigIn pin else clrBit s.m.pins.trigIn pin
      ((∀ e ∈ s.m.pins.lastEdge, e.1 = key → e.2 + 100 ≤ gtcNow s.m - 8))) ∧
    (∃ (pin : Nat) (level : Bool) (s : State),
      pin < 4 ∧
      nbit s.m.pins.trigIn pin = !level ∧
      let key := 2 * pin + b2n level
      let lv := if level then setBit s.m.pins.trigIn pin else clrBit s.m.pins.trigIn pin
      ((∃ e ∈ s.m.pins.lastEdge, e.1 = key ∧ gtcNow s.m - 8 < e.2 + 100))) ∧
    (∃ (pin : Nat) (s : State),
      pin < 4 ∧
      s.m.peer.isolated = false ∧
      (s.m.pins.trigStart.any (fun x => x.1 == pin && decide (x.2 ≤ gtcNow s.m)) = true)) ∧
    (∃ (pin : Nat) (s : State),
      pin < 4 ∧
      nbit s.m.pins.trigOut pin = true ∧
      Store.get 0 s.m.pins.trigEnd pin ≤ gtcNow s.m) :=
  ⟨⟨running 0 { run0 with executing := false }, { run0 with executing := false }, stepping 0, by decide +kernel⟩,
   ⟨st { live with rtn := { live.rtn with runs := [{ run0 with executing := false }] } }, { run0 with executing := false }, by decide +kernel⟩,
   ⟨st { live with rtn := { live.rtn with routines := [{ stepping 0 with resident := false }], runs := [{ run0 with executing := false }] } }, { run0 with executing := false }, { stepping 0 with resident := false }, { live with rtn := { live.rtn with routines := [{ stepping 0 with resident := false }], runs := [{ run0 with executing := false }] } }, by decide +kernel⟩,
   ⟨st { live with rtn := { live.rtn with routines := List.replicate 32 { routine0 with handle := 0x2001 } ++ [{ stepping 0 with resident := false }], runs := [{ run0 with executing := false }, { run0 with index := 2, routine := 0x2001 }] } }, { run0 with executing := false }, { stepping 0 with resident := false }, by decide +kernel⟩,
   ⟨63, 3, 4, st { live with rtn := { live.rtn with triggers := [(63, some { trigger0 with pending := some (3, 4) })] } }, { trigger0 with pending := some (3, 4) }, by decide +kernel⟩,
   ⟨63, st { live with rtn := { live.rtn with triggers := [(63, some { trigger0 with source := 5, period := 10000, advanceUs := 11, nextT := 11000 })] } }, { trigger0 with source := 5, period := 10000, advanceUs := 11, nextT := 11000 }, by decide +kernel⟩,
   ⟨99, 15, st live, by decide +kernel⟩,
   ⟨3, st live, by decide +kernel⟩,
   ⟨3, true, st live, by dsimp only; decide +kernel⟩,
   ⟨3, true, st { live with pins := { live.pins with lastEdge := [(7, 0)] } }, by dsimp only; decide +kernel⟩,
   ⟨3, st { live with pins := { live.pins with trigStart := [(3, 0)] } }, by decide +kernel⟩,
   ⟨3, st { live with pins := { live.pins with trigOut := 8 } }, by decide +kernel⟩⟩

theorem witness_SessionEventsComplete :
    (∃ (port : Port) (h : W32) (s : State) (x : Session) (t : Nat),
      sessOf s.m (sidOf port h) = some x ∧
      timeoutAt s.m x = some t ∧
      x.open_ = true ∧
      x.ending = 0 ∧
      t ≤ gtcNow s.m) ∧
    (∃ (port : Port) (h : W32) (s : State) (x : Session) (t : Nat),
      sessOf s.m (sidOf port h) = some x ∧
      timeoutAt s.m x = some t ∧
      gtcNow s.m < t) ∧
    (∃ (h : W32) (s : State) (x : Session) (t : Nat),
      sessOf s.m (sidOf .host h) = some x ∧
      x.irqDue = some t ∧
      t ≤ gtcNow s.m) ∧
    (∃ (h : W32) (s : State) (c : Cmd),
      (s.m.cmds.find? (fun c => c.sid == sidOf .host h && dmaLater.contains c.op) = some c)) ∧
    (∃ (h : W32) (s : State),
      (sessOf s.m (sidOf .host h)).isSome = true) :=
  ⟨⟨.sideband, 1, session .sideband 60000000000 id, { sid := sidOf .sideband 1, handle := 1, port := .sideband, open_ := true }, 60000000000, by decide +kernel⟩,
   ⟨.host, 1, session .host 999999 (fun x => { x with timeoutMs := 1 }), { sid := sidOf .host 1, handle := 1, port := .host, open_ := true, timeoutMs := 1 }, 1000000, by decide +kernel⟩,
   ⟨1, session .host 5 (fun x => { x with irqDue := some 5 }), { sid := sidOf .host 1, handle := 1, port := .host, open_ := true, irqDue := some 5 }, 5, by decide +kernel⟩,
   ⟨1, st (withCmd 0 (cmd0 0x0604)), cmd0 0x0604, by decide +kernel⟩,
   ⟨1, session .host 0 id, by decide +kernel⟩⟩

theorem witness_ScanRowsComplete :
    (∃ (ir : Nat) (s : State),
      ir < 256) ∧
    (∃ (n : Nat) (b : List Byte) (s : State),
      scanGood s.m true b .good = true) ∧
    (∃ (b : List Byte) (s : State),
      scanGood s.m false b .good = true) ∧
    (∃ (n : Nat) (b : List Byte) (s : State),
      scanGood s.m false b .good = true ∧
      n ≠ s.m.scan.lastFseq ∧
      n ≠ expectedFseq s.m) ∧
    (∃ (b : List Byte) (s : State),
      scanGood s.m false b .good = true ∧
      expectedFseq s.m ≠ s.m.scan.lastFseq ∧
      hf s.m R.HUB_STATUS_FW_IN_SERVICE = 0) ∧
    (∃ (b : List Byte) (s : State),
      scanGood s.m false b .good = true ∧
      expectedFseq s.m ≠ s.m.scan.lastFseq ∧
      hf s.m R.HUB_STATUS_FW_IN_SERVICE ≠ 0 ∧
      65536 < queuedBytes s.m .scan + b.length) ∧
    (∃ (b : List Byte) (s : State),
      scanGood s.m false b .good = true ∧
      expectedFseq s.m ≠ s.m.scan.lastFseq ∧
      hf s.m R.HUB_STATUS_FW_IN_SERVICE ≠ 0 ∧
      queuedBytes s.m .scan + b.length ≤ 65536) ∧
    (∃ (n q : Nat) (ws : List W32) (b : List Byte) (s : State),
      scanGood s.m false b .good = true ∧
      (s.m.scan.kept.find? (fun x => x.1 == n) = some (n, q, ws))) ∧
    (∃ (n : Nat) (b : List Byte) (s : State),
      scanGood s.m false b .good = true ∧
      ((∀ x ∈ s.m.scan.kept, x.1 ≠ n))) ∧
    (∃ (n : Nat) (b : List Byte) (s : State),
      scanGood s.m false b .good = true) ∧
    (∃ (s : State),
      s.m.scan.attached = true ∧
      s.m.scan.keepaliveMs ≠ 0 ∧
      s.m.scan.lastIn + s.m.scan.keepaliveMs * 1000000 ≤ gtcNow s.m) ∧
    (∃ (s : State) (t : Nat),
      s.m.scan.helloDue = some t ∧
      t ≤ gtcNow s.m) ∧
    (∃ (b : List Byte) (s : State),
      streamOpen s.m = true ∧
      (([1, 4, 5, 6].contains (bytesAt b 2 1) = false ∨ 16376 < bytesAt b 6 2))) :=
  ⟨⟨255, st live, by decide +kernel⟩,
   ⟨1, [], st probed, by decide +kernel⟩,
   ⟨List.replicate 16376 0, st probed, by decide +kernel⟩,
   ⟨1, [], st probed, by decide +kernel⟩,
   ⟨[], st probed, by decide +kernel⟩,
   ⟨[0], (let s := ready (setHf probed R.HUB_STATUS_FW_IN_SERVICE 1) 0x0104 (pk .scan (List.replicate 16382 0)); s), by decide +kernel⟩,
   ⟨List.replicate 16376 0, st (setHf probed R.HUB_STATUS_FW_IN_SERVICE 1), by decide +kernel⟩,
   ⟨9, 4, [1], [], st { probed with scan := { probed.scan with kept := [(9, 4, [1])] } }, by decide +kernel⟩,
   ⟨1, [], st probed, by decide +kernel⟩,
   ⟨1, [], st probed, by decide +kernel⟩,
   ⟨st { probed with scan := { probed.scan with keepaliveMs := 1 }, time := { probed.time with gtc := 1000000 } }, by decide +kernel⟩,
   ⟨st { probed with scan := { probed.scan with helloDue := some 1000000 }, time := { probed.time with gtc := 1000000 } }, 1000000, by decide +kernel⟩,
   ⟨List.replicate 16376 0, st probed, by decide +kernel⟩⟩

theorem witness_ScanFramesRefused :
    (∃ (n : Nat) (b : List Byte) (e : ScanEnd) (s : State) (i : _),
      streamOpen s.m = true ∧
      i ∈ [Instr.scanCmd n b e, .scanResend n b e, .scanBye n b e] ∧
      16376 < b.length) ∧
    (∃ (n : Nat) (b : List Byte) (e : ScanEnd) (s : State) (i : _),
      streamOpen s.m = true ∧
      i ∈ [Instr.scanCmd n b e, .scanResend n b e, .scanBye n b e] ∧
      b.length ≤ 16376 ∧
      e = .crcBad) ∧
    (∃ (n : Nat) (b : List Byte) (e : ScanEnd) (s : State) (i : _),
      streamOpen s.m = true ∧
      i ∈ [Instr.scanCmd n b e, .scanResend n b e, .scanBye n b e] ∧
      b.length ≤ 16376 ∧
      e = .good ∧
      s.m.scan.attached = false) :=
  ⟨⟨1, List.replicate 16377 0, .good, st probed, .scanBye 1 (List.replicate 16377 0) .good, by decide +kernel⟩,
   ⟨1, [], .crcBad, st probed, .scanBye 1 [] .crcBad, by decide +kernel⟩,
   ⟨1, [], .good, st { live with scan := { live.scan with ir := 0x20 } }, .scanBye 1 [] .good, by decide +kernel⟩⟩

theorem witness_I3cRowsComplete :
    (∃ (a : Nat) (s : State),
      serving s.m = true ∧
      a < 128) ∧
    (∃ (s : State),
      s.m.side.addr.isSome = true ∧
      s.m.peer.isolated = false) ∧
    (∃ (n : Nat) (s : State),
      69 ≤ n ∧
      n < 65536) ∧
    (∃ (n : Nat) (s : State),
      n < 69) :=
  ⟨⟨127, st live, by decide +kernel⟩,
   ⟨st tray, by decide +kernel⟩,
   ⟨69, st live, by decide +kernel⟩,
   ⟨68, st live, by decide +kernel⟩⟩

theorem witness_MctpRowsComplete :
    (∃ (h : MctpHeader) (s : State),
      mctpTakes s.m h = true) ∧
    (∃ (h : MctpHeader) (s : State) (op eid : Nat),
      mctpTakes s.m h = true ∧
      op < 2 ∧
      1 ≤ eid ∧
      eid < 255) ∧
    (∃ (h : MctpHeader) (s : State) (data : List Byte),
      mctpTakes s.m h = true ∧
      data.length ≠ 2) ∧
    (∃ (h : MctpHeader) (s : State) (a b : Byte),
      mctpTakes s.m h = true ∧
      (1 < nfld (bytesAt [a, b] 0 1) 0 2 ∨ b = 0 ∨ b = 255)) ∧
    (∃ (h : MctpHeader) (s : State) (ty : _),
      mctpTakes s.m h = true ∧
      ty ≠ 0 ∧
      ty ≠ 255) ∧
    (∃ (h : MctpHeader) (s : State) (n : _),
      mctpTakes s.m h = true ∧
      n ≠ 0) ∧
    (∃ (h : MctpHeader) (s : State) (ty : _),
      mctpTakes s.m h = true ∧
      (ty = 0 ∨ ty = 255)) ∧
    (∃ (h : MctpHeader) (s : State) (data : _),
      mctpTakes s.m h = true ∧
      data.take 5 = [0x7F, 0x00, 0x3F, 0xE5, 0xA1] ∧
      bytesAt data 5 1 = 1 ∧
      hf s.m R.HUB_STATUS_FW_IN_SERVICE = 1) :=
  ⟨⟨{ srcEid := 8, dstEid := 0, tag := 0, mctpInstance := 0 }, st tray, by decide +kernel⟩,
   ⟨{ srcEid := 8, dstEid := 0, tag := 0, mctpInstance := 0 }, st tray, 1, 254, by decide +kernel⟩,
   ⟨{ srcEid := 8, dstEid := 0, tag := 0, mctpInstance := 0 }, st tray, [], by decide +kernel⟩,
   ⟨{ srcEid := 8, dstEid := 0, tag := 0, mctpInstance := 0 }, st tray, 2, 0, by decide +kernel⟩,
   ⟨{ srcEid := 8, dstEid := 0, tag := 0, mctpInstance := 0 }, st tray, 1, by decide +kernel⟩,
   ⟨{ srcEid := 8, dstEid := 0, tag := 0, mctpInstance := 0 }, st tray, 1, by decide +kernel⟩,
   ⟨{ srcEid := 8, dstEid := 0, tag := 0, mctpInstance := 0 }, st tray, 255, by decide +kernel⟩,
   ⟨{ srcEid := 8, dstEid := 0, tag := 0, mctpInstance := 0 }, st (setHf tray R.HUB_STATUS_FW_IN_SERVICE 1), [0x7F, 0x00, 0x3F, 0xE5, 0xA1, 1, 0, 0], by decide +kernel⟩⟩

theorem witness_StartRowsComplete :
    (∃ (e : StartEnv) (s : State),
      hf s.m R.HUB_STATUS_SERVING = 1 ∧
      identityOnly s.m = false ∧
      s.m.bup.env.isSome = true) ∧
    (∃ (e : StartEnv) (s : State) (x : Esc),
      esc s.m 256 = some x ∧
      x.rung = 4 ∧
      x.waitStitch = false) ∧
    (∃ (s : State),
      hf s.m R.LCY_STATE_IN_TRANSITION = 1) :=
  ⟨⟨env, st live, by decide +kernel⟩,
   ⟨env, escalated 256 0 { rung := 4, cause := 0, start := 0, ceiling := 4 }, { rung := 4, cause := 0, start := 0, ceiling := 4 }, by decide +kernel⟩,
   ⟨st (setHf live R.LCY_STATE_IN_TRANSITION 1), by decide +kernel⟩⟩

theorem witness_RecoveryRowsComplete :
    (∃ (part : Nat) (s : State) (x : Esc),
      esc s.m part = some x ∧
      x.rung = 1 ∧
      x.waitStitch = false ∧
      x.drained = false ∧
      x.ts ≤ gtcNow s.m ∧
      gtcNow s.m < x.ts + hf s.m R.RCV_BOUNDS_DRAIN_US * 1000) ∧
    (∃ (part : Nat) (s : State) (x : Esc),
      esc s.m part = some x ∧
      x.rung = 1 ∧
      x.waitStitch = false ∧
      x.drained = false ∧
      x.ts + hf s.m R.RCV_BOUNDS_DRAIN_US * 1000 ≤ gtcNow s.m) ∧
    (∃ (part : Nat) (s : State) (x : Esc),
      esc s.m part = some x ∧
      x.waitStitch = false ∧
      ((x.rung = 1 ∧ x.drained = true ∧ rung1Idle s.m part = true) ∨ x.rung = 2 ∨ x.rung = 3)) ∧
    (∃ (part : Nat) (s : State) (x : Esc),
      esc s.m part = some x ∧
      x.waitStitch = false ∧
      1 ≤ x.rung ∧
      x.rung ≤ 4 ∧
      x.start + rungBound s.m x.rung ≤ gtcNow s.m) ∧
    (∃ (part : Nat) (s : State) (x : Esc),
      esc s.m part = some x ∧
      gtcNow s.m < x.start + rungBound s.m x.rung) ∧
    (∃ (die entry : Nat) (s : State),
      die < 64 ∧
      entry < 512 ∧
      ((wdt s.m die entry).period = 0 ∨ (wdt s.m die entry).expired = true ∨ (wdt s.m die entry).since = none ∨
        wdtLeft s.m die (wdt s.m die entry) ≠ 0)) ∧
    (∃ (die entry : Nat) (s : State),
      die < 64 ∧
      entry < 512 ∧
      (wdt s.m die entry).period ≠ 0 ∧
      (wdt s.m die entry).expired = false ∧
      (wdt s.m die entry).since.isSome = true ∧
      wdtLeft s.m die (wdt s.m die entry) = 0) ∧
    (∃ (die recv part epoch : Nat) (s : State),
      die < 100 ∧
      recv < 160 ∧
      part < 256 ∧
      stnUp s.m die = true ∧
      boundTo s.m die recv part = true ∧
      let cur := nfld (sf s.m die R.STN_CTX_EPOCH (part / 4)) (16 * (part % 4)) 16
      let d := (cur + 2 ^ 16 - epoch % 2 ^ 16) % 2 ^ 16
      1 ≤ d ∧
      d < 2 ^ 15) ∧
    (∃ (die recv part epoch : Nat) (s : State),
      die < 100 ∧
      recv < 160 ∧
      part < 256 ∧
      stnUp s.m die = true ∧
      boundTo s.m die recv part = true ∧
      let cur := nfld (sf s.m die R.STN_CTX_EPOCH (part / 4)) (16 * (part % 4)) 16
      let d := (cur + 2 ^ 16 - epoch % 2 ^ 16) % 2 ^ 16
      (d = 0 ∨ 2 ^ 15 ≤ d)) ∧
    (∃ (s : State) (t : Nat),
      s.m.pins.pwrDue = some t ∧
      t ≤ gtcNow s.m) :=
  ⟨⟨255, escalated 255 99999 { rung := 1, cause := 0, start := 0, ceiling := 4 }, { rung := 1, cause := 0, start := 0, ceiling := 4 }, by decide +kernel⟩,
   ⟨255, escalated 255 100000000 { rung := 1, cause := 0, start := 0, ceiling := 4 }, { rung := 1, cause := 0, start := 0, ceiling := 4 }, by decide +kernel⟩,
   ⟨255, escalated 255 0 { rung := 1, cause := 0, start := 0, ceiling := 4, drained := true }, { rung := 1, cause := 0, start := 0, ceiling := 4, drained := true }, by decide +kernel⟩,
   ⟨256, escalated 256 100000000000 { rung := 4, cause := 0, start := 0, ceiling := 4 }, { rung := 4, cause := 0, start := 0, ceiling := 4 }, by decide +kernel⟩,
   ⟨255, escalated 255 99999 { rung := 1, cause := 0, start := 0, ceiling := 4 }, { rung := 1, cause := 0, start := 0, ceiling := 4 }, by decide +kernel⟩,
   ⟨63, 511, watched { period := 1, remain := 1, since := some 0 }, by decide +kernel⟩,
   ⟨63, 511, watched { period := 1, remain := 0, since := some 0 }, by decide +kernel⟩,
   ⟨0, 0, 0, 3, st (setSf live 0 R.STN_CTX_EPOCH 4 0), by dsimp only; decide +kernel⟩,
   ⟨0, 0, 0, 3, st live, by dsimp only; decide +kernel⟩,
   ⟨st { live with pins := { live.pins with pwrDue := some 0 } }, 0, by decide +kernel⟩⟩

theorem witness_TokenRowsComplete :
    (∃ (die port : Nat) (b : List Byte) (s : State) (i : _),
      die < 100 ∧
      port < portsOf die ∧
      farEnd die port = none ∧
      hubStopped s.m = false ∧
      tokenOf b = none ∧
      i ∈ [Instr.abortToken die port b, .jobCmdToken die port b, .resultToken die port b]) ∧
    (∃ (die port : Nat) (b : List Byte) (s : State) (t : Token) (i : _),
      die < 100 ∧
      port < portsOf die ∧
      farEnd die port = none ∧
      tokenOf b = some t ∧
      s.m.rcv.seen.contains (t.origin, t.seq) = true ∧
      i ∈ [Instr.abortToken die port b, .jobCmdToken die port b, .resultToken die port b]) ∧
    (∃ (die port : Nat) (b : List Byte) (s : State) (t : Token),
      tokenArrives s.m die port b 1 t) ∧
    (∃ (die port op : Nat) (p : Pkt) (b : List Byte) (s : State) (t : Token),
      tokenArrives s.m die port b 2 t ∧
      jobPacket t.payload = some (op, p)) ∧
    (∃ (die port sid : Nat) (b : List Byte) (s : State) (t : Token) (j : W32) (tt : Nat) (ck : W64),
      tokenArrives s.m die port b 3 t ∧
      let m := tokenTaken s.m t
      let rc := bytesWords t.payload
      (m.rcv.sent.find? (fun x => x.1 == t.job && x.2.1 == t.t && x.2.2.2 == BitVec.ofNat 64 (w64At rc 2)) = some (j, tt, sid, ck))) ∧
    (∃ (die port : Nat) (b : List Byte) (s : State) (t : Token),
      tokenArrives s.m die port b 2 t ∧
      jobPacket t.payload = none) ∧
    (∃ (die port : Nat) (b : List Byte) (s : State) (t : Token) (j tt k d q : _),
      tokenArrives s.m die port b 3 t ∧
      let m := tokenTaken s.m t
      let ck := BitVec.ofNat 64 (w64At (bytesWords t.payload) 2)
      (m.rcv.sent.find? (fun x => x.1 == t.job && x.2.1 == t.t && x.2.2.2 == ck) = none) ∧
      (m.rcv.arrived.find? (fun a => a.1 == t.job && a.2.1 == t.t && a.2.2.1 == ck) = some (j, tt, k, d, q))) ∧
    (∃ (die port : Nat) (b : List Byte) (s : State) (t : Token),
      tokenArrives s.m die port b 3 t ∧
      let m := tokenTaken s.m t
      let ck := BitVec.ofNat 64 (w64At (bytesWords t.payload) 2)
      (m.rcv.sent.find? (fun x => x.1 == t.job && x.2.1 == t.t && x.2.2.2 == ck) = none) ∧
      (m.rcv.arrived.find? (fun a => a.1 == t.job && a.2.1 == t.t && a.2.2.1 == ck) = none)) :=
  ⟨⟨99, 15, [], st live, .resultToken 99 15 [], by decide +kernel⟩,
   ⟨99, 15, token 3 [], st { live with rcv := { live.rcv with seen := [(255, 0xFFFFFFFF)] } }, tokenRead 3 [], .resultToken 99 15 (token 3 []), by decide +kernel⟩,
   ⟨99, 15, token 1 [], st live, tokenRead 1 [], by exact ⟨by decide, by decide, by decide +kernel, by decide, by decide +kernel, rfl, by decide⟩⟩,
   ⟨99, 15, 0x0201, { port := .firmware, session := 0, cookie := 7, body := [6, 5, 0, 0, 0, 0, 0] }, token 2 (wordsBytes jobHalt), st live, tokenRead 2 (wordsBytes jobHalt), by exact ⟨⟨by decide, by decide, by decide +kernel, by decide, by decide +kernel, rfl, by decide⟩, by decide +kernel⟩⟩,
   ⟨99, 15, 1, token 3 (wordsBytes reply0), st { live with rcv := { live.rcv with sent := [(5, 100, 1, 7)] } }, tokenRead 3 (wordsBytes reply0), 5, 100, 7, by exact ⟨⟨by decide, by decide, by decide +kernel, by decide, by decide +kernel, rfl, by decide⟩, by decide +kernel⟩⟩,
   ⟨99, 15, token 2 [], st live, tokenRead 2 [], by exact ⟨⟨by decide, by decide, by decide +kernel, by decide, by decide +kernel, rfl, by decide⟩, by decide +kernel⟩⟩,
   ⟨99, 15, token 3 (wordsBytes reply0), st { live with rcv := { live.rcv with arrived := [(5, 100, 7, 98, 8)] } }, tokenRead 3 (wordsBytes reply0), 5, 100, 7, 98, 8, by exact ⟨⟨by decide, by decide, by decide +kernel, by decide, by decide +kernel, rfl, by decide⟩, by decide +kernel, by decide +kernel⟩⟩,
   ⟨99, 15, token 3 (wordsBytes reply0), st live, tokenRead 3 (wordsBytes reply0), by exact ⟨⟨by decide, by decide, by decide +kernel, by decide, by decide +kernel, rfl, by decide⟩, by decide +kernel, by decide +kernel⟩⟩⟩

theorem witness_HubRowsComplete :
    (∃ (s : State),
      standbyReady s.m = true) ∧
    (∃ (s : State),
      standbyReady s.m = true) ∧
    (∃ (s : State),
      standbyReady s.m = false) :=
  ⟨⟨st tray, by decide +kernel⟩,
   ⟨st tray, by decide +kernel⟩,
   ⟨st live, by decide +kernel⟩⟩

theorem witness_FaultRowsComplete :
    (∃ (die : Nat) (s : State),
      die < 100 ∧
      stnUp s.m die = true) ∧
    (∃ (die tap : Nat) (s : State),
      tapOk die tap = true ∧
      stnUp s.m die = true) ∧
    (∃ (die dead : Nat) (s : State),
      die < 64 ∧
      stnUp s.m die = true) ∧
    (∃ (x : Ecc) (s : State),
      hubArray x.array = true) ∧
    (∃ (x : Ecc) (s : State),
      (x.array = .tapRegister ∧ tapOk x.die x.place = true ∨ x.array = .cutBuffer ∧ portOk x.die x.place = true ∨
        hubArray x.array = false ∧ x.array ≠ .tapRegister ∧ x.array ≠ .cutBuffer ∧ x.die < 100) ∧
      stnUp s.m x.die = true) ∧
    (∃ (d n : Nat) (s : State),
      d < 100 ∧
      stnUp s.m d = true) ∧
    (∃ (unit : W32) (s : State),
      upDie unit < 100) :=
  ⟨⟨99, st live, by decide +kernel⟩,
   ⟨63, 127, st live, by decide +kernel⟩,
   ⟨63, 3, st live, by decide +kernel⟩,
   ⟨{ array := .mergeBuffer, die := 0, place := 7, sub := 0, uncorrectable := true }, st live, by decide +kernel⟩,
   ⟨{ array := .tapRegister, die := 63, place := 127, sub := 0, uncorrectable := true }, st live, by decide +kernel⟩,
   ⟨99, 1, st live, by decide +kernel⟩,
   ⟨0xC60000, st live, by decide +kernel⟩⟩

theorem witness_WearRowsComplete :
    (∃ (die : Nat) (x : WearReading) (s : State),
      die < 100 ∧
      stnUp s.m die = true) ∧
    (∃ (die : Nat) (x : WearDates) (s : State),
      die < 100) ∧
    (∃ (s : State),
      hf s.m R.GTC_STATUS_TOD_VALID = 1) ∧
    (∃ (s : State),
      hf s.m R.GTC_STATUS_TOD_VALID ≠ 1) :=
  ⟨⟨99, { counts := [], drifts := [], temp := 40, vdbg := 700, ceHour := [], ceNew := [] }, st live, by decide +kernel⟩,
   ⟨99, { p50 := 1, p90 := 2, limit := 0 }, st live, by decide +kernel⟩,
   ⟨st (setHf live R.GTC_STATUS_TOD_VALID 1), by decide +kernel⟩,
   ⟨st live, by decide +kernel⟩⟩

theorem witness_HubRegisterWrites :
    (∃ (off : Nat) (v : W64) (s : State) (r : RegRow),
      s.m.peer.isolated = false ∧
      off < 65536 ∧
      off % 8 = 0 ∧
      hubRowAt off = some r ∧
      off ≠ 0x18 ∧
      off ≠ 0x0418 ∧
      off ≠ 0x0458 ∧
      off ≠ 0x0D18) ∧
    (∃ (off : Nat) (v : W64) (s : State) (r : RegRow),
      s.m.peer.isolated = false ∧
      off < 65536 ∧
      off % 8 = 0 ∧
      hubRowAt off = some r ∧
      off ≠ 0x18 ∧
      off ≠ 0x0418 ∧
      off ≠ 0x0458 ∧
      off ≠ 0x0D18 ∧
      ((∃ k < 64, v.getLsbD k = true ∧ nbit (r.rw ||| r.w1c ||| r.w1s ||| r.ro ||| r.rc ||| r.wo) k = false))) ∧
    (∃ (off size : Nat) (v : W64) (s : State),
      s.m.peer.isolated = false ∧
      accessWidthOk off size = true ∧
      hubRowAt (off - off % 8) = none) ∧
    (∃ (off : _),
      0x1200 ≤ off) ∧
    (∃ (off size : Nat) (v : W64) (s : State),
      s.m.peer.isolated = false ∧
      accessWidthOk off size = true ∧
      off - off % 8 = 0x18 ∧
      let x := (if off % 8 = 0 then v.toNat else v.toNat * 2 ^ 32) &&& accessMask off size
      ((∃ k < 64, 12 ≤ k ∧ nbit x k = true))) ∧
    (∃ (off size : Nat) (v : W64) (s : State),
      s.m.peer.isolated = false ∧
      accessWidthOk off size = false) :=
  ⟨⟨0x58, 5, st live, ⟨.hub, 0x58, 0, 1, 0xFFFFFFFFFFFFFFFF, 0, 0, 0, 0, 0, 0⟩, by decide +kernel⟩,
   ⟨0x20, 0x200, st live, ⟨.hub, 0x20, 0, 1, 0, 0, 0, 511, 0, 0, 0⟩, by decide +kernel⟩,
   ⟨0xFFFC, 4, 1, st live, by decide +kernel⟩,
   ⟨0x1200, by decide +kernel⟩,
   ⟨0x1C, 4, 0x80000000, st live, by exact ⟨by decide, by decide, by decide, 63, by decide, by decide, by decide +kernel⟩⟩,
   ⟨0xFFFE, 8, 8, st live, by decide +kernel⟩⟩

theorem witness_LanesTakeTurns :
    (∃ (op : Nat) (p : Pkt) (i : Instr) (s : State),
      hostInstr op p = some i ∧
      hubStopped s.m = true) ∧
    (∃ (op : Nat) (p : Pkt) (i : Instr) (s : State) (l x : Session),
      hostInstr op p = some i ∧
      p.port ≠ .firmware ∧
      sessOf s.m (laneSid (pktSid p)) = some l ∧
      sessOf s.m (pktSid p) = some x ∧
      ((l.ready.head? ≠ some (op, p) ∨ laneExecuting s.m (laneSid (pktSid p)) = true ∨ 16 ≤ x.held.length))) ∧
    (∃ (op : Nat) (p : Pkt) (i : Instr) (s : State) (l x : Session),
      hostInstr op p = some i ∧
      laneReady op p s.m l x ∧
      x.open_ = false ∧
      op ≠ 0x0101 ∧
      op ≠ 0x0104 ∧
      op ≠ 0x0105) ∧
    (∃ (m : Mach) (sid : Nat) (x : Session) (rc : List W32),
      sessOf m sid = some x ∧
      x.open_ = false ∧
      x.ending ≠ 6 ∧
      x.ending ≠ 7 ∧
      x.held = [] ∧
      x.lost = 0 ∧
      let y := if x.port = .host ∧ x.slot = none then descSession m x.handle x else x
      sessRoom m y rc.length = true) ∧
    (∃ (op : Nat) (p : Pkt) (i : Instr) (s : State) (l x : Session),
      hostInstr op p = some i ∧
      laneReady op p s.m l x ∧
      ((x.open_ = true ∨ opensFirst op = true)) ∧
      portCarries p op = false) :=
  ⟨⟨0x0104, pk .host [], .nopCmd (pk .host []), st { live with peer := { live.peer with mute := true } }, by decide +kernel⟩,
   ⟨0x0104, pk .host [], .nopCmd (pk .host []), st { live with host := { live.host with sessions := [{ sid := 1, handle := 1, port := .host, open_ := true, held := List.replicate 16 [] }] } }, { sid := 1, handle := 1, port := .host, open_ := true, held := List.replicate 16 [] }, { sid := 1, handle := 1, port := .host, open_ := true, held := List.replicate 16 [] }, by exact ⟨rfl, by decide, rfl, rfl, .inl (by decide)⟩⟩,
   ⟨0x0102, pk .host [], .closeSession (pk .host []), ready live 0x0102 (pk .host []) false, shutSession, shutSession, by exact ⟨rfl, ⟨by decide, by decide, by decide +kernel, by decide +kernel, by decide, by decide, by decide, by decide⟩, rfl, by decide, by decide, by decide⟩⟩,
   ⟨{ live with hostMem := memWrite [] 20 (leBytes 4 4096), host := { live.host with sessions := [shutSession] } }, 1, shutSession, List.replicate 9 0, by dsimp only; decide +kernel⟩,
   ⟨0x0A01, pk .sideband [], .authChallenge (pk .sideband []), ready live 0x0A01 (pk .sideband []), sideLane, sideOpen, by exact ⟨rfl, ⟨by decide, by decide, by decide +kernel, by decide +kernel, by decide, by decide, by decide, by decide⟩, .inl rfl, by decide⟩⟩⟩

theorem witness_RecordsHeldNotLost :
    (∃ (m : Mach) (sid : Nat) (x : Session) (rc : List W32) (event : Bool),
      sessOf m sid = some x ∧
      x.sid = sid ∧
      x.ending ≠ 6 ∧
      x.ending ≠ 7 ∧
      let y := if x.port = .host ∧ x.slot = none then descSession m x.handle x else x
      x.open_ = true ∧
      x.held = [] ∧
      x.lost = 0 ∧
      sessRoom m y rc.length = true) ∧
    (∃ (m : Mach) (sid : Nat) (x : Session) (rc : List W32) (event : Bool),
      sessOf m sid = some x ∧
      x.sid = sid ∧
      x.ending ≠ 6 ∧
      x.ending ≠ 7 ∧
      let y := if x.port = .host ∧ x.slot = none then descSession m x.handle x else x
      ((x.held ≠ [] ∨ x.lost ≠ 0 ∨ sessRoom m y rc.length = false)) ∧
      ((event = false ∨ x.held.length < 16)) ∧
      (x.port ≠ .host ∨ x.slot.isSome = true)) ∧
    (∃ (m : Mach) (sid : Nat) (x : Session) (rc : List W32) (event : Bool),
      sessOf m sid = some x ∧
      x.sid = sid ∧
      x.ending ≠ 6 ∧
      x.ending ≠ 7 ∧
      let y := if x.port = .host ∧ x.slot = none then descSession m x.handle x else x
      ((x.held ≠ [] ∨ x.lost ≠ 0 ∨ sessRoom m y rc.length = false)) ∧
      ((event = false ∨ x.held.length < 16)) ∧
      x.port = .host ∧
      x.slot = none ∧
      (x.ending ≠ 0 ∨ pageInOk m x.handle = true)) ∧
    (∃ (m : Mach) (sid : Nat) (x : Session) (rc : List W32) (event : Bool),
      sessOf m sid = some x ∧
      x.sid = sid ∧
      x.ending ≠ 6 ∧
      x.ending ≠ 7 ∧
      let y := if x.port = .host ∧ x.slot = none then descSession m x.handle x else x
      16 ≤ x.held.length ∧
      event = true) :=
  ⟨⟨{ live with hostMem := memWrite [] 20 (leBytes 4 4096), host := { live.host with sessions := [{ sid := 1, handle := 1, port := .host, open_ := true }] } }, 1, { sid := 1, handle := 1, port := .host, open_ := true }, List.replicate 4096 0, true, by dsimp only; decide +kernel⟩,
   ⟨{ live with hostMem := memWrite [] 20 (leBytes 4 4096), host := { live.host with sessions := [{ sid := 1, handle := 1, port := .host, open_ := true, held := List.replicate 15 [], slot := some 0 }] } }, 1, { sid := 1, handle := 1, port := .host, open_ := true, held := List.replicate 15 [], slot := some 0 }, [], true, by dsimp only; decide +kernel⟩,
   ⟨{ live with hostMem := memWrite [] 20 (leBytes 4 4096), host := { live.host with sessions := [{ sid := 1, handle := 1, port := .host, open_ := true, ending := 1 }] } }, 1, { sid := 1, handle := 1, port := .host, open_ := true, ending := 1 }, List.replicate 262145 0, true, by dsimp only; decide +kernel⟩,
   ⟨{ live with hostMem := memWrite [] 20 (leBytes 4 4096), host := { live.host with sessions := [{ sid := 1, handle := 1, port := .host, open_ := true, held := List.replicate 16 [] }] } }, 1, { sid := 1, handle := 1, port := .host, open_ := true, held := List.replicate 16 [] }, [], true, by dsimp only; decide +kernel⟩⟩

theorem witness_MemoryReadsBackAndKeepsRest :
    (∃ (m : Mach) (u : Issuer) (h : W32) (off : Nat) (bs : List Byte) (b : Buffer),
      scratchRun m u.origin = none ∧
      onPort u = false ∧
      bufferOf m h = some b) ∧
    (∃ (m : Mach) (x : Session) (rc : List W32),
      0 < x.eqSlots) ∧
    (∃ (m : Mach) (x : Session) (rc : List W32) (a : _),
      0 < x.eqSlots ∧
      (a < x.eqBase ∨ x.eqBase + 64 * x.eqSlots ≤ a) ∧
      (a < sessDesc m x.handle + 72 ∨ sessDesc m x.handle + 76 ≤ a)) :=
  ⟨⟨(ready (rooted live) 0x0104 (pk .host [])).m, { origin := .session 1, sess := 1, port := .host }, 0x1001, 0, [1], { addr := 0x10000, length := 0x100000, canRead := true, canWrite := true, owner := 1 }, by exact ⟨rfl, rfl, by decide +kernel⟩⟩,
   ⟨live, { sid := 1, handle := 1, port := .host }, [], by decide +kernel⟩,
   ⟨live, { sid := 1, handle := 1, port := .host, eqSlots := 1, eqBase := 4096 }, [], 4160, by decide +kernel⟩⟩

theorem witness_TokensRoundTrip :
    (∃ (m : Mach) (ty origin hops seq t : Nat) (job : W32) (payload : List Byte),
      ty < 256 ∧
      origin < 256 ∧
      hops < 256 ∧
      seq < 2 ^ 32 ∧
      t < 2 ^ 64 ∧
      payload.length ≤ 4096) ∧
    (∃ (b : List Byte) (t : Token),
      tokenOf b = some t) :=
  ⟨⟨live, 255, 255, 255, 0xFFFFFFFF, 0xFFFFFFFFFFFFFFFF, 5, List.replicate 4096 0, by decide +kernel⟩,
   ⟨token 1 [], tokenRead 1 [], by decide +kernel⟩⟩

/-- A block that fits is encoded, and one that does not is refused: both cases of the Codec statements occur, at the bounds of the valid length. -/
theorem witness_CodecRoundTrip : (match encodeBlock [1] 1 0 0 8 1 0 with | .slot _ _ => true | _ => false) = true := by decide +kernel

theorem witness_XorFlagChoice : (match encodeBlock [1] 1 2 2 8 2 0xFFFFFFFF with | .slot _ _ => true | _ => false) = true := by
  decide +kernel

theorem witness_TallySplitsExactly :
    (∃ (f : Nat) (uns : Bool) (i : Nat) (a b sa sb : List Byte),
      1 ≤ f ∧
      f ≤ 14 ∧
      a.length % unitBytes f = 0 ∧
      b.length % unitBytes f = 0 ∧
      (isMx f = true → sa.length = a.length / unitBytes f)) ∧
    (∃ (f : Nat) (uns : Bool) (i : Nat) (a s : List Byte),
      1 ≤ f ∧
      f ≤ 14 ∧
      a.length % unitBytes f = 0 ∧
      (isMx f = true → s.length = a.length / unitBytes f)) :=
  ⟨⟨14, false, 5, zeros 64, zeros 128, zeros 2, zeros 4, by decide +kernel⟩,
   ⟨14, true, 5, zeros 64, zeros 2, by decide +kernel⟩⟩

end Sys2Proof.Tests
end

/-! PROOFS. A write of the hub window, bit by bit: the masks of the access codes, the rows of the window, what a store changes, what an
access answers (R9-R11, R35-R37). -/

namespace Sys2Proof.Machine

/-! ### Masks, bit by bit -/

theorem land_add_ldiff (a b : Nat) : (a &&& b) + Nat.ldiff a b = a := by
  induction a using Nat.binaryRec generalizing b with
  | zero => simp [Nat.ldiff]
  | bit x m ih =>
    induction b using Nat.bitCasesOn with
    | bit y n =>
      have h := ih n
      rw [Nat.land_bit, Nat.ldiff_bit]
      cases x <;> cases y <;> simp [Nat.bit_val] <;> omega

/-- Taking from a number the bits that it shares with another clears them. -/
theorem testBit_sub_land (a b k : Nat) : (a - (a &&& b)).testBit k = (a.testBit k && !b.testBit k) := by
  have h : a - (a &&& b) = Nat.ldiff a b := Nat.sub_eq_of_eq_add' (land_add_ldiff a b).symm
  rw [h, Nat.testBit_ldiff]

theorem nbit_eq_testBit (v k : Nat) : nbit v k = v.testBit k := by
  rw [nbit, Nat.testBit_eq_decide_div_mod_eq, Nat.shiftRight_eq_div_pow]
  rfl

/-- Access code by access code, what a bit of a register is after a write (Table 0.3). -/
theorem testBit_regStore (r : RegRow) (old v mask k : Nat) : (regStore r old v mask).testBit k =
    (((old.testBit k && !(r.rw.testBit k && mask.testBit k) || v.testBit k && (r.rw.testBit k && mask.testBit k)) &&
      !(v.testBit k && r.w1c.testBit k && mask.testBit k)) || v.testBit k && r.w1s.testBit k && mask.testBit k) := by
  simp only [regStore, Nat.testBit_or, Nat.testBit_and, testBit_sub_land]

/-- The bits of a register that are not reserved. -/
def RegRow.known (r : RegRow) : Nat := r.rw ||| r.w1c ||| r.w1s ||| r.ro ||| r.rc ||| r.wo

theorem regRsvd_iff (r : RegRow) (v mask : Nat) : regRsvd r v mask = true ↔
    ∃ k, (v &&& mask).testBit k = true ∧ r.known.testBit k = false := by
  have h : regRsvd r v mask = decide ((v &&& mask) - (v &&& mask &&& r.known) ≠ 0) := rfl
  rw [h, decide_eq_true_eq]
  constructor
  · intro hne
    obtain ⟨k, hk⟩ := Nat.exists_testBit_of_ne_zero hne
    rw [testBit_sub_land] at hk
    exact ⟨k, by simpa using hk⟩
  · rintro ⟨k, hv, hr⟩ h0
    have hk := testBit_sub_land (v &&& mask) r.known k
    simp [h0, hv, hr] at hk

/-! ### The rows of the hub window -/

theorem hubRowAt_mem {off : Nat} {r : RegRow} (h : hubRowAt off = some r) : r ∈ hubRows := List.mem_of_find?_eq_some h

/-- No bit of a hub register has two of the access codes RW, W1C and W1S. -/
theorem hubRows_codes_disjoint : ∀ r ∈ hubRows, r.rw &&& r.w1c = 0 ∧ r.rw &&& r.w1s = 0 ∧ r.w1c &&& r.w1s = 0 := by
  decide +kernel

theorem hubRows_end : ∀ r ∈ hubRows, r.base + r.stride * r.count < 0x1200 := by decide +kernel

theorem rowHolds_le {r : RegRow} {off : Nat} (h : rowHolds r off = true) : off ≤ r.base + r.stride * r.count := by
  simp only [rowHolds, Bool.and_eq_true, decide_eq_true_eq] at h
  obtain ⟨hb, h⟩ := h
  split at h
  · have : off = r.base := by simpa using h
    omega
  · next hs =>
    simp only [Bool.and_eq_true, decide_eq_true_eq] at h
    have := (Nat.div_lt_iff_lt_mul (Nat.pos_of_ne_zero hs)).1 h.2
    rw [Nat.mul_comm]
    omega

/-- The window ends with the health registers: no row reaches 0x1200 (R34, R36). -/
theorem hubRowAt_reserved {off : Nat} (h : 0x1200 ≤ off) : hubRowAt off = none := by
  rw [hubRowAt, List.find?_eq_none]
  intro r hr hh
  have h1 := rowHolds_le hh
  have h2 := hubRows_end r hr
  omega

/-! ### Flags and registers after a write -/

@[simp] theorem hf_setRsvd (m : Mach) : hf (setRsvd m) R.HUB_STATUS_RSVD_WRITE = 1 := hf_setHf_same m _ 1 0 (by decide)

theorem hget_setRsvd_ne (m : Mach) {o : Nat} (h : o ≠ 0x18) : hget (setRsvd m) o = hget m o := hget_setHf_ne m 1 h

/-- A write of a register that a row defines stores by its access codes, and sets RSVD_WRITE after the store, so that the flag wins over a
clear in the same write (R37). -/
theorem hubStore_row (m : Mach) {off : Nat} {r : RegRow} (v mask : Nat) (h : hubRowAt off = some r) :
    hubStore m off v mask = if regRsvd r v mask = true
      then setRsvd (hput m off (BitVec.ofNat 64 (regStore r (hget m off).toNat v mask)))
      else hput m off (BitVec.ofNat 64 (regStore r (hget m off).toNat v mask)) := by
  simp only [hubStore, h]

/-- A write at an offset with no row acts as one of a reserved field (R36). -/
theorem hubStore_no_row (m : Mach) {off : Nat} (v mask : Nat) (h : hubRowAt off = none) :
    hubStore m off v mask = if v &&& mask = 0 then m else setRsvd m := by
  simp only [hubStore, h]

theorem hget_hubStore_same (m : Mach) {off : Nat} {r : RegRow} (v mask : Nat) (h : hubRowAt off = some r) (hs : off ≠ 0x18) :
    hget (hubStore m off v mask) off = BitVec.ofNat 64 (regStore r (hget m off).toNat v mask) := by
  rw [hubStore_row m v mask h]
  split
  · rw [hget_setRsvd_ne _ hs, hget_hput_same]
  · rw [hget_hput_same]

theorem hget_hubStore_ne (m : Mach) {off o : Nat} {r : RegRow} (v mask : Nat) (h : hubRowAt off = some r) (ho : o ≠ off)
    (hs : o ≠ 0x18) : hget (hubStore m off v mask) o = hget m o := by
  rw [hubStore_row m v mask h]
  split
  · rw [hget_setRsvd_ne _ hs, hget_hput_ne _ _ ho]
  · rw [hget_hput_ne _ _ ho]

theorem hf_hubStore_rsvd (m : Mach) {off : Nat} {r : RegRow} {v mask : Nat} (h : hubRowAt off = some r)
    (hr : regRsvd r v mask = true) : hf (hubStore m off v mask) R.HUB_STATUS_RSVD_WRITE = 1 := by
  rw [hubStore_row m v mask h, if_pos hr, hf_setRsvd]

theorem hget_status_hubStore (m : Mach) {off : Nat} {r : RegRow} {v mask : Nat} (h : hubRowAt off = some r) (hs : off ≠ 0x18)
    (hr : ¬ regRsvd r v mask = true) : hget (hubStore m off v mask) 0x18 = hget m 0x18 := by
  rw [hubStore_row m v mask h, if_neg hr, hget_hput_ne _ _ hs.symm]

/-- A register write changes the hub's registers and no other part of the machine. -/
theorem hubStore_frame (m : Mach) (off v mask : Nat) : hubStore m off v mask = { m with hregs := (hubStore m off v mask).hregs } := by
  unfold hubStore
  split
  · split <;> rfl
  · split <;> rfl

/-! ### Accesses of the window -/

/-- The bits that an access of the window writes, at their places in the register. -/
def writtenBits (off size : Nat) (v : W64) : Nat :=
  (if off % 8 = 0 then v.toNat else v.toNat * 2 ^ 32) &&& accessMask off size

theorem writtenBits_land_mask (off size : Nat) (v : W64) : writtenBits off size v &&& accessMask off size = writtenBits off size v := by
  rw [writtenBits, Nat.and_assoc, Nat.and_self]

theorem writtenBits_whole {off : Nat} (v : W64) (h : off % 8 = 0) : writtenBits off 8 v = v.toNat := by
  rw [writtenBits, if_pos h]
  exact Nat.and_two_pow_sub_one_of_lt_two_pow v.isLt

/-- A write that keeps R35, of an offset with no behaviour of its own, ends the capture of its register and stores its bits. -/
theorem registerWrite_stores {off size : Nat} (v : W64) {s : State} (hi : s.m.peer.isolated = false) (hw : accessWidthOk off size = true)
    (h1 : off - off % 8 ≠ 0x0418) (h2 : off - off % 8 ≠ 0x0458) (h3 : off - off % 8 ≠ 0x0D18) :
    Done (.registerWrite off size v) s (hubStore (setCaptured s.m (off - off % 8) none) (off - off % 8) (writtenBits off size v)
      (accessMask off size)) := by
  simp [Done, exec, execRegisterWrite, hi, hw, h1, h2, h3, writtenBits]

theorem registerWrite_badAccess {off size : Nat} (v : W64) {s : State} (hi : s.m.peer.isolated = false)
    (hw : accessWidthOk off size = false) : Done (.registerWrite off size v) s (setHf s.m R.HUB_STATUS_BAD_ACCESS 1) := by
  simp [Done, exec, execRegisterWrite, hi, hw]

theorem rcRead_reads {off size : Nat} {s : State} (hi : s.m.peer.isolated = false) (hw : accessWidthOk off size = true) :
    Done (.rcRead off size) s (emit (windowRead s.m off size) (.regData (BitVec.ofNat 64 (windowValue s.m off size)))) := by
  simp [Done, exec, execRcRead, hi, hw]

/-- The side effect of a read drives no port. -/
@[simp] theorem hubRead_out (m : Mach) (off mask : Nat) : (hubRead m off mask).out = m.out := by
  unfold hubRead
  split
  · split <;> rfl
  · rfl

@[simp] theorem setCaptured_out (m : Mach) (base : Nat) (v : Option Nat) : (setCaptured m base v).out = m.out := rfl

theorem windowRead_out (m : Mach) (off size : Nat) : (windowRead m off size).out = m.out := by
  unfold windowRead
  dsimp only
  split
  · rfl
  · split <;> simp

theorem hubRowAt_of_spansHalves {base : Nat} (h : spansHalves base = true) : (hubRowAt base).isSome = true := by
  simp only [spansHalves, Bool.or_eq_true, beq_iff_eq] at h
  obtain (rfl | rfl) | rfl := h <;> decide +kernel

/-- An offset with no row reads as zero (R36). -/
theorem windowValue_no_row (m : Mach) {off : Nat} (size : Nat) (h : hubRowAt (off - off % 8) = none) : windowValue m off size = 0 := by
  have hv : hubView m (off - off % 8) = 0 := by simp only [hubView, h]
  have hs : spansHalves (off - off % 8) = false := by
    by_contra hc
    have := hubRowAt_of_spansHalves (Bool.not_eq_false _ ▸ hc)
    simp [h] at this
  simp [windowValue, hv, hs]

/-! ### The rules of a write (R36, R37) -/

/-- A 64-bit write, bit by bit: since no bit has two codes, the order of the codes does not matter. -/
theorem testBit_regStore_row {r : RegRow} (hr : r ∈ hubRows) (old v : W64) {k : Nat} (hk : k < 64) :
    (BitVec.ofNat 64 (regStore r old.toNat v.toNat (2 ^ 64 - 1))).getLsbD k =
      if nbit r.rw k then v.getLsbD k
      else if nbit r.w1c k then old.getLsbD k && !v.getLsbD k
      else if nbit r.w1s k then old.getLsbD k || v.getLsbD k
      else old.getLsbD k := by
  obtain ⟨hwc, hws, hcs⟩ := hubRows_codes_disjoint r hr
  have disjoint_at : ∀ {a b : Nat}, a &&& b = 0 → (a.testBit k && b.testBit k) = false := by
    intro a b h
    rw [← Nat.testBit_and, h, Nat.zero_testBit]
  have hwc := disjoint_at hwc
  have hws := disjoint_at hws
  have hcs := disjoint_at hcs
  rw [BitVec.getLsbD_ofNat, testBit_regStore, Nat.testBit_two_pow_sub_one]
  simp only [nbit_eq_testBit, hk, decide_true, Bool.true_and, Bool.and_true, BitVec.getLsbD]
  cases hrw : r.rw.testBit k
  · cases hc : r.w1c.testBit k
    · cases hs : r.w1s.testBit k <;> simp
    · simp [show r.w1s.testBit k = false by simpa [hc] using hcs]
  · simp [show r.w1c.testBit k = false by simpa [hrw] using hwc, show r.w1s.testBit k = false by simpa [hrw] using hws]

/-- A 64-bit write carries a one into a reserved bit. -/
theorem regRsvd_whole (r : RegRow) (v : W64) : regRsvd r v.toNat (2 ^ 64 - 1) = true ↔
    ∃ k < 64, v.getLsbD k = true ∧ nbit r.known k = false := by
  rw [regRsvd_iff, Nat.and_two_pow_sub_one_of_lt_two_pow v.isLt]
  simp only [nbit_eq_testBit, BitVec.getLsbD]
  exact ⟨fun ⟨k, hv, hr⟩ => ⟨k, BitVec.lt_of_getLsbD hv, hv, hr⟩, fun ⟨k, _, hv, hr⟩ => ⟨k, hv, hr⟩⟩

/-- R36: a write at an offset with no row sets RSVD_WRITE for any one, and does nothing else. -/
theorem registerWrite_no_row {off size : Nat} (v : W64) {s : State} (hi : s.m.peer.isolated = false)
    (hw : accessWidthOk off size = true) (hn : hubRowAt (off - off % 8) = none) :
    Done (.registerWrite off size v) s (if writtenBits off size v = 0 then setCaptured s.m (off - off % 8) none
      else setRsvd (setCaptured s.m (off - off % 8) none)) := by
  have hne : ∀ {o : Nat}, (hubRowAt o).isSome = true → off - off % 8 ≠ o := fun ho hb => by simp [← hb, hn] at ho
  have h := registerWrite_stores v hi hw (hne (by decide +kernel)) (hne (by decide +kernel)) (hne (by decide +kernel))
  rwa [hubStore_no_row _ _ _ hn, writtenBits_land_mask] at h

/-- HUB_STATUS has no bit above bit 11 (R36, table of HUB_STATUS). -/
theorem hubStatus_row : ∃ r, hubRowAt 0x18 = some r ∧ r.known < 2 ^ 12 :=
  ⟨⟨.hub, 0x18, 0, 1, 0, 0x609, 0, 0x9F6, 0, 0, 2⟩, by decide +kernel⟩

/-- R37: a write of HUB_STATUS with a one in a reserved bit leaves RSVD_WRITE set, whatever it writes to the flag. -/
theorem hf_hubStore_status_rsvd (m : Mach) (off size : Nat) (v : W64)
    (hx : ∃ k < 64, 12 ≤ k ∧ nbit (writtenBits off size v) k = true) :
    hf (hubStore m 0x18 (writtenBits off size v) (accessMask off size)) R.HUB_STATUS_RSVD_WRITE = 1 := by
  obtain ⟨r, hr, hlt⟩ := hubStatus_row
  obtain ⟨k, -, hk, hv⟩ := hx
  refine hf_hubStore_rsvd m hr ((regRsvd_iff r _ _).2 ⟨k, ?_, ?_⟩)
  · rwa [writtenBits_land_mask, ← nbit_eq_testBit]
  · exact Nat.testBit_lt_two_pow (hlt.trans_le (Nat.pow_le_pow_right (by decide) hk))

/-- Settles O51, from the rules of a store and of an access. -/
theorem hubRegisterWrites : Obligations.HubRegisterWrites := by
  unfold Obligations.HubRegisterWrites
  refine ⟨?defined, ?undefined, fun off => hubRowAt_reserved, ?flagWins, ?badAccess⟩
  case defined =>
    intro off v s r hi hlt h8 hr hs h1 h2 h3
    have hw : accessWidthOk off 8 = true := by simp [accessWidthOk, hlt, h8]
    have hb : off - off % 8 = off := by rw [h8, Nat.sub_zero]
    have hd := registerWrite_stores v hi hw (by rwa [hb]) (by rwa [hb]) (by rwa [hb])
    rw [hb, writtenBits_whole v h8, show accessMask off 8 = 2 ^ 64 - 1 from rfl] at hd
    refine ⟨_, hd, fun k hk => ?_, fun h => ?_, fun h => ?_, fun o ho ho' => ?_, ?_⟩
    · rw [hget_hubStore_same _ _ _ hr hs]
      exact testBit_regStore_row (hubRowAt_mem hr) (hget s.m off) v hk
    · exact hf_hubStore_rsvd _ hr ((regRsvd_whole r v).2 h)
    · refine hget_status_hubStore _ hr hs fun hres => ?_
      obtain ⟨k, hk, hv, hn⟩ := (regRsvd_whole r v).1 hres
      exact Bool.false_ne_true (hn.symm.trans (h k hk hv))
    · exact hget_hubStore_ne _ _ _ hr ho ho'
    · exact hubStore_frame _ _ _ _
  case undefined =>
    intro off size v s hi hw hn
    exact ⟨registerWrite_no_row v hi hw hn, _, rcRead_reads hi hw, by
      rw [windowValue_no_row _ _ hn, emit, windowRead_out]; rfl⟩
  case flagWins =>
    intro off size v s hi hw hb x hx
    have hd := registerWrite_stores v hi hw (by omega) (by omega) (by omega)
    rw [hb] at hd
    exact ⟨_, hd, hf_hubStore_status_rsvd _ off size v hx⟩
  case badAccess =>
    intro off size v s hi hw
    exact ⟨_, registerWrite_badAccess v hi hw, hf_setHf_same _ _ 1 0 (by decide)⟩

end Sys2Proof.Machine

/-! PROOFS. Rounding up to a multiple, and the Waypoint that a field of 0 asks for (R91). -/

namespace Sys2Proof.Machine

/-! ### Rounding up to a multiple -/

theorem roundUp_eq_mul_ceilDiv (v k : Nat) : roundUp v k = k * (v ⌈/⌉ k) := Nat.mul_comm _ k

theorem dvd_roundUp (v k : Nat) : k ∣ roundUp v k := Dvd.intro _ (roundUp_eq_mul_ceilDiv v k).symm

/-- Among the multiples of k, those at or above the rounded value are those at or above the value itself. -/
theorem roundUp_le_iff_of_dvd {v k n : Nat} (hk : 0 < k) (hn : k ∣ n) : roundUp v k ≤ n ↔ v ≤ n := by
  obtain ⟨c, rfl⟩ := hn
  rw [roundUp_eq_mul_ceilDiv, Nat.mul_le_mul_left_iff hk, ceilDiv_le_iff_le_mul hk]

theorem le_roundUp {k : Nat} (v : Nat) (hk : 0 < k) : v ≤ roundUp v k :=
  (roundUp_le_iff_of_dvd hk (dvd_roundUp v k)).1 le_rfl

/-! ### The Waypoint field -/

@[simp] theorem resolveT_zero (m : Mach) (lead : Nat) : resolveT m lead 0 = roundUp (gtcNow m + lead) 16 := rfl

/-- Settles O50: the Waypoint given is G + L rounded up to 16, the least multiple of 16 not below it. -/
theorem earliestWaypoint : Obligations.EarliestWaypoint := by
  unfold Obligations.EarliestWaypoint
  intro m lead
  rw [resolveT_zero]
  refine ⟨?multiple, ?lateEnough, ?least⟩
  case multiple => exact Nat.mod_eq_zero_of_dvd (dvd_roundUp _ 16)
  case lateEnough => exact le_roundUp _ (by decide)
  case least => exact fun k hk hle => (roundUp_le_iff_of_dvd (by decide) (Nat.dvd_of_mod_eq_zero hk)).2 hle

end Sys2Proof.Machine

/-! PROOFS. The header of an encoded slot, and the XOR flag that the encoder chooses (R198, R202). -/

namespace Sys2Proof.Machine

/-! ### Fields of bytes that were patched or padded -/

/-- A field that ends before the patch is as it was. -/
theorem bytesAt_patch_of_le {l : List Byte} {a n p : Nat} (new : List Byte) (h : a + n ≤ p) (hl : p ≤ l.length) :
    bytesAt (patch l p new) a n = bytesAt l a n := by
  have hp : p = min p l.length := (Nat.min_eq_left hl).symm
  have hd : (patch l p new).drop a = (l.take p).drop a ++ (new ++ l.drop (p + new.length)) := by
    rw [patch, List.append_assoc, List.drop_append_of_le_length (by rw [List.length_take]; omega)]
  rw [bytesAt, bytesAt, hd, List.take_append_of_le_length (by rw [List.length_drop, List.length_take]; omega), List.drop_take,
    List.take_take, Nat.min_eq_left (by omega)]

/-- A field that lies inside the bytes and inside the size padded to is as it was. -/
theorem bytesAt_padTo_of_le {l : List Byte} {a n s : Nat} (h : a + n ≤ s) (hl : a + n ≤ l.length) :
    bytesAt (padTo s l) a n = bytesAt l a n := by
  rw [bytesAt, bytesAt, padTo, List.drop_take, List.take_take, Nat.min_eq_left (by omega), List.drop_append_of_le_length (by omega),
    List.take_append_of_le_length (by rw [List.length_drop]; omega)]

/-! ### The block header (Table 6.3) -/

theorem length_leBytes (n v : Nat) : (leBytes n v).length = n := by
  induction n generalizing v with
  | zero => rfl
  | succ n ih => rw [leBytes, List.length_cons, ih]

theorem length_blockHeader (use : Nat) (xor : Bool) (wcode ratio vlen plen crc seq : Nat) :
    (blockHeader use xor wcode ratio vlen plen crc seq).length = 16 := by
  simp only [blockHeader, List.length_append, length_leBytes, List.length_cons, List.length_nil]

/-- Byte 1 of a block: the version, USE and the XOR flag. -/
theorem bytesAt_blockHeader_flags {use : Nat} (xor : Bool) (wcode ratio vlen plen crc seq : Nat) (body : List Byte) (hu : use < 3) :
    bytesAt (blockHeader use xor wcode ratio vlen plen crc seq ++ body) 1 1 = 0x10 + use * 4 + b2n xor * 2 := by
  have hbyte : bytesAt (blockHeader use xor wcode ratio vlen plen crc seq ++ body) 1 1 =
      (BitVec.ofNat 8 (0x10 + use * 4 + b2n xor * 2)).toNat + 256 * 0 := rfl
  have hx : b2n xor ≤ 1 := by cases xor <;> decide
  rw [hbyte, BitVec.toNat_ofNat, Nat.mod_eq_of_lt (by omega), Nat.mul_zero, Nat.add_zero]

theorem nbit_blockFlags (use : Nat) (xor : Bool) : nbit (0x10 + use * 4 + b2n xor * 2) 1 = xor := by
  rw [nbit, Nat.shiftRight_eq_div_pow]
  cases xor with
  | false => simp [b2n]; omega
  | true => simp [b2n]; omega

/-- The slot of a block: its header and body with the CRC patched in, padded to the size of the slot. -/
def sealedSlot (s : Nat) (header body : List Byte) (crc : Nat) : List Byte := padTo s (patch (header ++ body) 8 (leBytes 4 crc))

/-- The XOR flag of a slot is the one that its header was built with. -/
theorem nbit_sealedSlot_xor {s use : Nat} (xor : Bool) (wcode ratio vlen plen seq crc : Nat) (body : List Byte) (hs : 2 ≤ s) (hu : use < 3) :
    nbit (bytesAt (sealedSlot s (blockHeader use xor wcode ratio vlen plen 0 seq) body crc) 1 1) 1 = xor := by
  have hlen : 16 ≤ (blockHeader use xor wcode ratio vlen plen 0 seq ++ body).length := by
    rw [List.length_append, length_blockHeader]; omega
  have hpatched : 2 ≤ (patch (blockHeader use xor wcode ratio vlen plen 0 seq ++ body) 8 (leBytes 4 crc)).length := by
    simp only [patch, List.length_append, List.length_take] at hlen ⊢; omega
  rw [sealedSlot, bytesAt_padTo_of_le hs hpatched, bytesAt_patch_of_le _ (by decide) (by omega), bytesAt_blockHeader_flags _ _ _ _ _ _ _ _ hu,
    nbit_blockFlags]

/-! ### The encoder's choice -/

/-- PLEN of a block's first VLEN bytes under an XOR flag. -/
def plenUnder (inp : List Byte) (vlen wcode : Nat) (xor : Bool) : Nat :=
  (payloadOf (blockModes (2 ^ wcode) xor (padTo 4096 (inp.take vlen)))).length

/-- The XOR flag that the encoder takes (R198). -/
def xorChosen (inp : List Byte) (vlen wcode xmode : Nat) : Bool :=
  decide (xmode = 2 ∨ xmode = 0 ∧ plenUnder inp vlen wcode true < plenUnder inp vlen wcode false)

theorem xorChosen_iff (inp : List Byte) (vlen wcode xmode : Nat) : xorChosen inp vlen wcode xmode = true ↔
    xmode = 2 ∨ xmode = 0 ∧ plenUnder inp vlen wcode true < plenUnder inp vlen wcode false := decide_eq_true_iff

/-- The encoder's selection between the two codings of a block is a coding under the flag taken. -/
theorem ite_xorChosen {α : Type} (f : Bool → α) (inp : List Byte) (vlen wcode xmode : Nat) :
    (if xmode = 2 ∨ xmode = 0 ∧ plenUnder inp vlen wcode true < plenUnder inp vlen wcode false then f true else f false) =
      f (xorChosen inp vlen wcode xmode) := by
  unfold xorChosen
  split
  case isTrue h => rw [decide_eq_true h]
  case isFalse h => rw [decide_eq_false h]

/-- What the encoder answers: a refusal where the block is too long for its slot, and else a failed self-check or the slot (R202, R203). -/
theorem encodeBlock_cases (inp : List Byte) (vlen wcode use ratio xmode seq : Nat) :
    let xor := xorChosen inp vlen wcode xmode
    let plen := plenUnder inp vlen wcode xor
    (4096 / ratio < 40 + plen ∧ encodeBlock inp vlen wcode use ratio xmode seq = .incompressible) ∨
    40 + plen ≤ 4096 / ratio ∧
      (encodeBlock inp vlen wcode use ratio xmode seq = .selfcheckFail ∨
       ∃ body crc, encodeBlock inp vlen wcode use ratio xmode seq =
         .slot (sealedSlot (4096 / ratio) (blockHeader use xor wcode ratio vlen plen 0 seq) body crc) plen) := by
  intro xor plen
  have hmodes := ite_xorChosen (fun x => blockModes (2 ^ wcode) x (padTo 4096 (inp.take vlen))) inp vlen wcode xmode
  unfold plenUnder at hmodes
  generalize henc : encodeBlock inp vlen wcode use ratio xmode seq = r
  simp only [encodeBlock, hmodes] at henc
  split at henc
  case isTrue hlong => exact .inl ⟨hlong, henc.symm⟩
  case isFalse hlong =>
    rw [List.append_assoc] at henc
    subst henc
    exact .inr ⟨not_lt.1 hlong, (ite_eq_or_eq _ _ _).imp id fun hslot => ⟨_, _, hslot⟩⟩

/-- Settles O59: the encoder's answer, case by case, and the flag read back from the header of the slot. -/
theorem xorFlagChoice : Obligations.XorFlagChoice := by
  unfold Obligations.XorFlagChoice
  intro inp vlen wcode use ratio xmode seq _ _ _ hu _ _ b n0 n1 flag
  have hplen : plenUnder inp vlen wcode (xorChosen inp vlen wcode xmode) = if flag then n1 else n0 :=
    (ite_xorChosen (plenUnder inp vlen wcode) inp vlen wcode xmode).symm
  have hflag : xorChosen inp vlen wcode xmode = true ↔ flag := xorChosen_iff inp vlen wcode xmode
  rw [← hplen, ← hflag]
  obtain ⟨hlong, henc⟩ | ⟨hfits, henc | ⟨body, crc, henc⟩⟩ := encodeBlock_cases inp vlen wcode use ratio xmode seq
  case inl =>
    exact ⟨iff_of_true henc hlong, fun slot plen h => nomatch henc.symm.trans h⟩
  case inr.inl =>
    exact ⟨iff_of_false (fun h => nomatch henc.symm.trans h) (by omega), fun slot plen h => nomatch henc.symm.trans h⟩
  case inr.inr =>
    refine ⟨iff_of_false (fun h => nomatch henc.symm.trans h) (by omega), fun slot plen h => ?_⟩
    obtain ⟨rfl, rfl⟩ := Encoded.slot.inj (henc.symm.trans h)
    exact ⟨rfl, by rw [nbit_sealedSlot_xor _ _ _ _ _ _ _ _ (by omega) hu]⟩

end Sys2Proof.Machine

/-! PROOFS. How a host command is dispatched: it waits for its turn, then meets row 6 of Table 10.6 and the opcodes of its port before
its own effect; and the record of a Session that is not open (R329, R337, R338, R340, R366). -/

namespace Sys2Proof.Machine

/-! ### Every host command is a host row -/

/-- The commands of Table 10.8 differ only in their effect: each is a host row. -/
theorem exec_hostInstr {op : Nat} {p : Pkt} {i : Instr} (h : hostInstr op p = some i) :
    ∃ f : Mach → Issuer → Mach, ∀ s, exec i s = hostRow op p s f := by
  unfold hostInstr at h
  split at h <;> cases h
  all_goals
    simp only [exec]
    exact ⟨_, fun _ => rfl⟩

/-! ### A row whose packet is not the next -/

/-- A packet has its turn in its lane: it is the first, no command of the lane executes, its Session takes commands, and fewer than 16
records are held (R337, R338, R340). -/
def laneTurn (op : Nat) (p : Pkt) (m : Mach) (l x : Session) : Prop :=
  l.ready.head? = some (op, p) ∧ laneExecuting m (laneSid (pktSid p)) = false ∧ (x.ending = 0 ∨ x.ending = 4) ∧ x.held.length < 16

/-- A host row changes nothing before the turn of its packet. -/
theorem hostRow_waits {op : Nat} {p : Pkt} {s : State} {f : Mach → Issuer → Mach} {l x : Session} (hp : p.port ≠ .firmware)
    (hl : sessOf s.m (laneSid (pktSid p)) = some l) (hx : sessOf s.m (pktSid p) = some x) (h : ¬ laneTurn op p s.m l x) :
    hostRow op p s f = .next s := by
  unfold pktSid at hl hx
  simp only [laneTurn, pktSid, ← Bool.not_eq_true'] at h
  simp only [hostRow, hp, hl, hx, if_false, h, ite_self]

/-! ### A row whose packet is the next -/

/-- What a packet does in its turn: row 6 of Table 10.6, then the opcodes of the port, then the command's own effect (R329, R366). -/
def turnEffect (x : Session) (op : Nat) (p : Pkt) (f : Mach → Issuer → Mach) (m : Mach) (u : Issuer) : Mach :=
  if !x.open_ && !opensFirst op then answer m u op p.cookie St.notAuthorised []
  else if !portCarries p op then answer m u op p.cookie St.malformed []
  else f m u

theorem turnEffect_shut {x : Session} {op : Nat} (p : Pkt) (f : Mach → Issuer → Mach) (hx : x.open_ = false)
    (ho : opensFirst op = false) : turnEffect x op p f = fun m u => answer m u op p.cookie St.notAuthorised [] := by
  funext m u
  rw [turnEffect, hx, ho]
  rfl

theorem turnEffect_barred {x : Session} {op : Nat} {p : Pkt} (f : Mach → Issuer → Mach) (hx : x.open_ = true ∨ opensFirst op = true)
    (hc : portCarries p op = false) : turnEffect x op p f = fun m u => answer m u op p.cookie St.malformed [] := by
  have hopen : (!x.open_ && !opensFirst op) = false := by rcases hx with h | h <;> simp [h]
  funext m u
  rw [turnEffect, hopen, hc]
  rfl

/-- A host row takes its packet from the lane, does what the packet does in its turn, and then the lane goes on. -/
theorem hostRow_laneReady {op : Nat} {p : Pkt} {s : State} {l x : Session} (f : Mach → Issuer → Mach) (h : laneReady op p s.m l x) :
    hostRow op p s f = .next { s with m := hostAfter (turnEffect x op p f (hostTaken s.m p) (hostIssuer p)) p } := by
  obtain ⟨hs, hp, hl, hx, turn⟩ := h
  unfold pktSid at hl hx turn
  rw [← Bool.not_eq_true'] at turn
  simp only [hostRow, hs, hp, hl, hx, if_pos turn, Bool.false_eq_true, if_false, hostAfter, hostTaken, hostIssuer, pktSid, turnEffect,
    opensFirst]

/-- In its turn a host command does what the checks of the dispatch leave of its effect. -/
theorem hostDone_of_laneReady {op : Nat} {p : Pkt} {i : Instr} {s : State} {l x : Session} {g : Mach → Issuer → Mach}
    (hi : hostInstr op p = some i) (h : laneReady op p s.m l x) (hg : ∀ f, turnEffect x op p f = g) : HostDone i p s g := by
  obtain ⟨f, hf⟩ := exec_hostInstr hi
  rw [HostDone, Done, hf, hostRow_laneReady f h, hg]

/-! ### The record of a Session that is not open -/

theorem pagedFields_eq (m : Mach) (x : Session) :
    pagedFields m x = if x.port = .host ∧ x.slot = none then descSession m x.handle x else x := by
  simp only [pagedFields, Bool.and_eq_true, beq_iff_eq, Option.isNone_iff_eq_none]

/-- A page-in reads ring fields only. -/
theorem pagedFields_kept (m : Mach) (x : Session) :
    (pagedFields m x).open_ = x.open_ ∧ (pagedFields m x).ending = x.ending ∧ (pagedFields m x).held = x.held ∧
      (pagedFields m x).lost = x.lost := by
  unfold pagedFields
  split <;> simp [descSession]

/-- A record for a Session that is not open, with nothing held before it and with room, carries SEQ 0, and no counter moves (R329). -/
theorem postRecord_shut {m : Mach} {sid : Nat} {x : Session} {rc : List W32} (event : Bool) (hx : sessOf m sid = some x)
    (ho : x.open_ = false) (h6 : x.ending ≠ 6) (h7 : x.ending ≠ 7) (hh : x.held = []) (hl : x.lost = 0)
    (hr : sessRoom m (pagedFields m x) rc.length = true) :
    postRecord m sid rc event = deliver m (pagedFields m x) (withSeq rc 0) 0 event := by
  obtain ⟨kopen, kending, kheld, klost⟩ := pagedFields_kept m x
  simp [postRecord, hx, kopen, kending, kheld, klost, ho, h6, h7, hh, hl, hr]

/-- Settles O52: a host command is a host row, which waits for its turn and then meets the checks of the dispatch. -/
theorem lanesTakeTurns : Obligations.LanesTakeTurns := by
  unfold Obligations.LanesTakeTurns
  refine ⟨?stopped, ?waits, ?shut, ?record, ?barred⟩
  case stopped =>
    intro op p i s hi hs
    obtain ⟨f, hf⟩ := exec_hostInstr hi
    exact (hf s).trans (hostRow_stopped hs)
  case waits =>
    intro op p i s l x hi hp hl hx hw
    obtain ⟨f, hf⟩ := exec_hostInstr hi
    refine (hf s).trans (hostRow_waits hp hl hx ?_)
    rintro ⟨hfirst, hidle, -, hheld⟩
    rcases hw with h | h | h
    · exact h hfirst
    · exact Bool.false_ne_true (hidle.symm.trans h)
    · exact absurd hheld (not_lt.2 h)
  case shut =>
    intro op p i s l x hi hr ho h1 h4 h5
    have hfirst : opensFirst op = false := by simp [opensFirst, h1, h4, h5]
    exact hostDone_of_laneReady hi hr fun f => turnEffect_shut p f ho hfirst
  case record =>
    intro m sid x rc hx ho h6 h7 hh hl y hr
    have hy : pagedFields m x = y := pagedFields_eq m x
    rw [← hy] at hr ⊢
    exact postRecord_shut false hx ho h6 h7 hh hl hr
  case barred =>
    intro op p i s l x hi hr ho hc
    exact hostDone_of_laneReady hi hr fun f => turnEffect_barred f ho hc

end Sys2Proof.Machine

/-! PROOFS. Control tokens: fields of bytes that were joined or patched, the range of the CRC, what sealed bytes read as, and the round
trip (R437, Table 13.4). -/

namespace Sys2Proof.Machine

/-! ### Little-endian numbers and the fields of joined bytes -/

theorem leNat_leBytes (n v : Nat) : leNat (leBytes n v) = v % 256 ^ n := by
  induction n generalizing v with
  | zero => rw [leBytes, leNat, pow_zero, Nat.mod_one]
  | succ n ih => rw [leBytes, leNat, ih, BitVec.toNat_ofNat, pow_succ' 256 n, Nat.mod_mul]

/-- A field that ends inside the first part is a field of it. -/
theorem bytesAt_append_left {l : List Byte} {a n : Nat} (r : List Byte) (h : a + n ≤ l.length) :
    bytesAt (l ++ r) a n = bytesAt l a n := by
  rw [bytesAt, bytesAt, List.drop_append_of_le_length (by omega), List.take_append_of_le_length (by rw [List.length_drop]; omega)]

/-- A field behind the first part is a field of the rest. -/
theorem bytesAt_append_right {l : List Byte} {a : Nat} (r : List Byte) (n : Nat) (h : l.length ≤ a) :
    bytesAt (l ++ r) a n = bytesAt r (a - l.length) n := by
  rw [bytesAt, bytesAt, List.drop_append, List.drop_eq_nil_of_le h, List.nil_append]

theorem bytesAt_leBytes_skip {k a : Nat} (v : Nat) (r : List Byte) (n : Nat) (h : k ≤ a) :
    bytesAt (leBytes k v ++ r) a n = bytesAt r (a - k) n := by
  rw [bytesAt_append_right _ _ (by rwa [length_leBytes]), length_leBytes]

/-- A number within its width reads back from the front. -/
theorem bytesAt_leBytes_append {n v : Nat} (r : List Byte) (hv : v < 256 ^ n) : bytesAt (leBytes n v ++ r) 0 n = v := by
  rw [bytesAt, List.drop_zero, List.take_left' (length_leBytes n v), leNat_leBytes, Nat.mod_eq_of_lt hv]

/-- Bytes are those of the number that they spell. -/
theorem leBytes_leNat (l : List Byte) : leBytes l.length (leNat l) = l := by
  induction l with
  | nil => rfl
  | cons b r ih =>
    have hb : b.toNat < 256 := b.isLt
    have hbyte : BitVec.ofNat 8 (b.toNat + 256 * leNat r) = b := BitVec.eq_of_toNat_eq (by rw [BitVec.toNat_ofNat]; omega)
    have hrest : (b.toNat + 256 * leNat r) / 256 = leNat r := by omega
    rw [List.length_cons, leNat, leBytes, hbyte, hrest, ih]

theorem leBytes_bytesAt_end {l : List Byte} {a n : Nat} (h : l.length = a + n) : leBytes n (bytesAt l a n) = l.drop a := by
  have hn : (l.drop a).length = n := by rw [List.length_drop]; omega
  conv_rhs => rw [← leBytes_leNat (l.drop a), hn]
  rw [bytesAt, List.take_of_length_le hn.le]

/-! ### Bytes behind and inside a patch -/

theorem length_patch {l new : List Byte} {p : Nat} (h : p + new.length ≤ l.length) : (patch l p new).length = l.length := by
  simp only [patch, List.length_append, List.length_take, List.length_drop]
  omega

/-- What follows the patch is as it was. -/
theorem drop_patch_of_ge {l new : List Byte} {p a : Nat} (h : p + new.length ≤ a) (hl : a ≤ l.length) :
    (patch l p new).drop a = l.drop a := by
  have hpre : (l.take p ++ new).length = p + new.length := by
    rw [List.length_append, List.length_take, Nat.min_eq_left (by omega)]
  rw [patch, List.drop_append, hpre, List.drop_eq_nil_of_le (by omega), List.nil_append, List.drop_drop, Nat.add_sub_cancel' h]

theorem bytesAt_patch_of_ge {l new : List Byte} {p a : Nat} (n : Nat) (h : p + new.length ≤ a) (hl : a ≤ l.length) :
    bytesAt (patch l p new) a n = bytesAt l a n := by
  rw [bytesAt, bytesAt, drop_patch_of_ge h hl]

theorem bytesAt_patch_same {l : List Byte} {p : Nat} (new : List Byte) (h : p ≤ l.length) :
    bytesAt (patch l p new) p new.length = leNat new := by
  rw [bytesAt, patch, List.append_assoc, List.drop_left' (List.length_take_of_le h), List.take_left]

/-! ### The CRC has 32 bits (R42) -/

theorem crc32cBit_lt (n : Nat) {c : Nat} (h : c < 2 ^ 32) : crc32cBit n c < 2 ^ 32 := by
  induction n generalizing c with
  | zero => exact h
  | succ n ih =>
    refine ih ?_
    split
    · exact Nat.xor_lt_two_pow (by omega) (by decide)
    · omega

theorem crc32cRun_lt (l : List Byte) {c : Nat} (h : c < 2 ^ 32) : crc32cRun c l < 2 ^ 32 := by
  induction l generalizing c with
  | nil => exact h
  | cons b r ih => exact ih (crc32cBit_lt 8 (Nat.xor_lt_two_pow h (b.isLt.trans (by decide))))

theorem crc32c_lt (l : List Byte) : crc32c l < 2 ^ 32 := Nat.xor_lt_two_pow (crc32cRun_lt l (by decide)) (by decide)

/-! ### Sealed bytes and the token that they spell -/

/-- A header and payload followed by their CRC-32C (R437). -/
def sealToken (h : List Byte) : List Byte := h ++ leBytes 4 (crc32c h)

/-- The token that a header and a payload spell (Table 13.4), whatever comes behind. -/
def tokenSpelt (h : List Byte) : Token :=
  { ttype := bytesAt h 0 1, void := nbit (bytesAt h 1 1) 0, origin := bytesAt h 2 1, hops := bytesAt h 3 1,
    job := BitVec.ofNat 32 (bytesAt h 4 4), seq := bytesAt h 8 4, t := bytesAt h 12 8, payload := (h.drop 32).take (bytesAt h 20 2) }

/-- Bytes as a token has them before its CRC: the header's PLEN is the length of the payload, and at most 4,096. -/
def TokenSized (h : List Byte) : Prop := h.length = 32 + bytesAt h 20 2 ∧ bytesAt h 20 2 ≤ 4096

theorem length_sealToken (h : List Byte) : (sealToken h).length = h.length + 4 := by
  rw [sealToken, List.length_append, length_leBytes]

/-- The CRC of sealed bytes stands behind them. -/
theorem bytesAt_sealToken_crc {h : List Byte} {a : Nat} (ha : h.length = a) : bytesAt (sealToken h) a 4 = crc32c h := by
  rw [sealToken, bytesAt_append_right _ _ ha.le, ha, Nat.sub_self, ← List.append_nil (leBytes 4 _),
    bytesAt_leBytes_append [] (crc32c_lt h)]

theorem bytesAt_sealToken {h : List Byte} {a n : Nat} (hs : TokenSized h) (ha : a + n ≤ 32) :
    bytesAt (sealToken h) a n = bytesAt h a n := by
  obtain ⟨hlen, -⟩ := hs
  exact bytesAt_append_left _ (by omega)

theorem take_sealToken {h : List Byte} {n : Nat} (hn : h.length = n) : (sealToken h).take n = h := List.take_left' hn

/-- The CRC is no part of what a token spells. -/
theorem tokenSpelt_sealToken {h : List Byte} (hs : TokenSized h) : tokenSpelt (sealToken h) = tokenSpelt h := by
  obtain ⟨hlen, -⟩ := id hs
  have payload : ((sealToken h).drop 32).take (bytesAt h 20 2) = (h.drop 32).take (bytesAt h 20 2) := by
    rw [sealToken, List.drop_append_of_le_length (by omega), List.take_append_of_le_length (by rw [List.length_drop]; omega)]
  simp [tokenSpelt, bytesAt_sealToken hs, payload]

/-- The checks of R437: the length that PLEN gives, its bound, and the CRC. -/
theorem tokenOf_eq_some_iff {b : List Byte} {t : Token} : tokenOf b = some t ↔
    (b.length = 36 + bytesAt b 20 2 ∧ bytesAt b 20 2 ≤ 4096 ∧
      crc32c (b.take (32 + bytesAt b 20 2)) = bytesAt b (32 + bytesAt b 20 2) 4) ∧ tokenSpelt b = t :=
  Option.ite_none_right_eq_some.trans (and_congr_right fun _ => Option.some_inj)

/-- Sealed bytes of a token's size read as the token that they spell. -/
theorem tokenOf_sealToken {h : List Byte} (hs : TokenSized h) : tokenOf (sealToken h) = some (tokenSpelt h) := by
  obtain ⟨hlen, hmax⟩ := id hs
  refine tokenOf_eq_some_iff.2 ⟨?_, tokenSpelt_sealToken hs⟩
  rw [bytesAt_sealToken hs (by decide), take_sealToken hlen, bytesAt_sealToken_crc hlen, length_sealToken]
  exact ⟨by omega, hmax, rfl⟩

/-- Whatever reads as a token is sealed bytes of a token's size. -/
theorem exists_sealToken_of_tokenOf {b : List Byte} {t : Token} (hb : tokenOf b = some t) :
    ∃ h, TokenSized h ∧ b = sealToken h ∧ t = tokenSpelt h := by
  obtain ⟨⟨hlen, hmax, hcrc⟩, rfl⟩ := tokenOf_eq_some_iff.1 hb
  generalize hh : b.take (32 + bytesAt b 20 2) = h at hcrc
  have hlength : h.length = 32 + bytesAt b 20 2 := by rw [← hh]; exact List.length_take_of_le (by omega)
  have htail : b.drop (32 + bytesAt b 20 2) = leBytes 4 (crc32c h) := by
    rw [hcrc, leBytes_bytesAt_end (by omega)]
  have hseal : b = sealToken h := by rw [sealToken, ← htail, ← hh, List.take_append_drop]
  have hplen : bytesAt h 20 2 = bytesAt b 20 2 := by
    rw [hseal]
    exact (bytesAt_append_left _ (by omega)).symm
  have hs : TokenSized h := ⟨by rw [hlength, hplen], by rwa [hplen]⟩
  exact ⟨h, hs, hseal, by rw [hseal, tokenSpelt_sealToken hs]⟩

/-! ### The token that a hub makes -/

/-- The header and payload of a token, field by field (Table 13.4). -/
def tokenBody (m : Mach) (ty origin hops : Nat) (job : W32) (seq t : Nat) (payload : List Byte) : List Byte :=
  leBytes 1 ty ++ (leBytes 1 (b2n (timeVoid m)) ++ (leBytes 1 origin ++ (leBytes 1 hops ++ (leBytes 4 job.toNat ++ (leBytes 4 seq ++
    (leBytes 8 t ++ (leBytes 2 payload.length ++ (zeros 10 ++ payload))))))))

theorem tokenBytes_eq_sealToken (m : Mach) (ty origin hops : Nat) (job : W32) (seq t : Nat) (payload : List Byte) :
    tokenBytes m ty origin hops job seq t payload = sealToken (tokenBody m ty origin hops job seq t payload) := by
  simp only [tokenBytes, sealToken, tokenBody, leBytes, List.cons_append, List.nil_append, List.append_assoc]

theorem length_tokenBody (m : Mach) (ty origin hops : Nat) (job : W32) (seq t : Nat) (payload : List Byte) :
    (tokenBody m ty origin hops job seq t payload).length = 32 + payload.length := by
  simp only [tokenBody, zeros, List.length_append, length_leBytes, List.length_replicate]
  omega

theorem b2n_lt (x : Bool) : b2n x < 256 := by cases x <;> decide

theorem nbit_b2n (x : Bool) : nbit (b2n x) 0 = x := by cases x <;> rfl

/-- PLEN of a token is the length of its payload. -/
theorem bytesAt_tokenBody_plen (m : Mach) (ty origin hops : Nat) (job : W32) (seq t : Nat) {payload : List Byte}
    (hp : payload.length ≤ 4096) : bytesAt (tokenBody m ty origin hops job seq t payload) 20 2 = payload.length := by
  simp (disch := omega) only [tokenBody, bytesAt_leBytes_skip, Nat.reduceSub, bytesAt_leBytes_append]

theorem tokenSized_tokenBody (m : Mach) (ty origin hops : Nat) (job : W32) (seq t : Nat) {payload : List Byte}
    (hp : payload.length ≤ 4096) : TokenSized (tokenBody m ty origin hops job seq t payload) := by
  have hplen := bytesAt_tokenBody_plen m ty origin hops job seq t hp
  exact ⟨by rw [length_tokenBody, hplen], by rwa [hplen]⟩

/-- Every field within its width is spelled as it was given. -/
theorem tokenSpelt_tokenBody (m : Mach) {ty origin hops seq t : Nat} (job : W32) {payload : List Byte} (hty : ty < 256)
    (ho : origin < 256) (hh : hops < 256) (hs : seq < 2 ^ 32) (ht : t < 2 ^ 64) (hp : payload.length ≤ 4096) :
    tokenSpelt (tokenBody m ty origin hops job seq t payload) =
      { ttype := ty, void := timeVoid m, origin := origin, hops := hops, job := job, seq := seq, t := t, payload := payload } := by
  have hjob : job.toNat < 256 ^ 4 := job.isLt
  have hvoid : b2n (timeVoid m) < 256 := b2n_lt _
  have hpayload : (tokenBody m ty origin hops job seq t payload).drop 32 = payload := by
    simp [tokenBody, zeros, List.drop_append, List.drop_eq_nil_of_le, length_leBytes]
  simp only [tokenSpelt, bytesAt_tokenBody_plen m ty origin hops job seq t hp, hpayload, List.take_length]
  simp (disch := omega) only [tokenBody, bytesAt_leBytes_skip, Nat.reduceSub, bytesAt_leBytes_append, nbit_b2n, BitVec.ofNat_toNat,
    BitVec.setWidth_eq]

/-! ### The token that a hub passes on -/

/-- HOPS of a token passed on: one more, saturating at 255 (R438). -/
def nextHops (hops : Nat) : Nat := Nat.min 255 (hops + 1)

/-- The bytes of a header and payload with HOPS one more. -/
def hopBody (h : List Byte) : List Byte := patch h 3 (leBytes 1 (nextHops (bytesAt h 3 1)))

theorem tokenHop_sealToken {h : List Byte} (hs : TokenSized h) : tokenHop (sealToken h) = sealToken (hopBody h) := by
  obtain ⟨hlen, -⟩ := id hs
  simp only [tokenHop, bytesAt_sealToken hs (show 20 + 2 ≤ 32 by decide), bytesAt_sealToken hs (show 3 + 1 ≤ 32 by decide),
    take_sealToken hlen]
  rfl

/-- HOPS is the one field that a hop changes, and the sizes stay. -/
theorem hopBody_spells {h : List Byte} (hs : TokenSized h) :
    TokenSized (hopBody h) ∧ tokenSpelt (hopBody h) = { tokenSpelt h with hops := nextHops (tokenSpelt h).hops } := by
  obtain ⟨hlen, hmax⟩ := hs
  have before {a n : Nat} (ha : a + n ≤ 3) : bytesAt (hopBody h) a n = bytesAt h a n := bytesAt_patch_of_le _ ha (by omega)
  have behind {a n : Nat} (ha : 4 ≤ a) (hl : a ≤ 32) : bytesAt (hopBody h) a n = bytesAt h a n := bytesAt_patch_of_ge n ha (by omega)
  have payload : (hopBody h).drop 32 = h.drop 32 := drop_patch_of_ge (by rw [length_leBytes]; omega) (by omega)
  have hops : bytesAt (hopBody h) 3 1 = nextHops (bytesAt h 3 1) := by
    have hlt : nextHops (bytesAt h 3 1) < 256 ^ 1 := Nat.lt_succ_of_le (Nat.min_le_left _ _)
    calc bytesAt (hopBody h) 3 1 = leNat (leBytes 1 (nextHops (bytesAt h 3 1))) := bytesAt_patch_same _ (by omega)
      _ = nextHops (bytesAt h 3 1) := by rw [leNat_leBytes, Nat.mod_eq_of_lt hlt]
  have length : (hopBody h).length = h.length := length_patch (by rw [length_leBytes]; omega)
  have plen : bytesAt (hopBody h) 20 2 = bytesAt h 20 2 := behind (by decide) (by decide)
  refine ⟨⟨by rw [length, plen, hlen], by rwa [plen]⟩, ?_⟩
  simp [tokenSpelt, before, behind, payload, hops]

/-- Settles O57: a token that is made and a token that is passed on are both sealed bytes, which read as what they spell. -/
theorem tokensRoundTrip : Obligations.TokensRoundTrip := by
  unfold Obligations.TokensRoundTrip
  refine ⟨?made, ?passedOn⟩
  case made =>
    intro m ty origin hops seq t job payload hty ho hh hs ht hp b
    have hb : b = sealToken (tokenBody m ty origin hops job seq t payload) := tokenBytes_eq_sealToken ..
    have hlen := length_tokenBody m ty origin hops job seq t payload
    refine ⟨?length, ?crc, ?reads⟩
    case length => rw [hb, length_sealToken, hlen]
    case crc => rw [hb, bytesAt_sealToken_crc hlen, take_sealToken hlen]
    case reads => rw [hb, tokenOf_sealToken (tokenSized_tokenBody m ty origin hops job seq t hp),
      tokenSpelt_tokenBody m job hty ho hh hs ht hp]
  case passedOn =>
    intro b t hb
    obtain ⟨h, hsized, rfl, rfl⟩ := exists_sealToken_of_tokenOf hb
    obtain ⟨hsized', hspelt⟩ := hopBody_spells hsized
    rw [tokenHop_sealToken hsized, tokenOf_sealToken hsized', hspelt]
    rfl

end Sys2Proof.Machine

/-! PROOFS. The life-cycle counter: the state that the done fuses give, and the torn pair above it (R456). -/

namespace Sys2Proof.Machine

/-! ### The highest state whose done fuse is BLOWN -/

theorem le_of_find?_eq_some_of_descending {p : Nat → Bool} {l : List Nat} {s t : Nat} (hl : l.Pairwise (· > ·))
    (hs : l.find? p = some s) (ht : t ∈ l) (hp : p t = true) : t ≤ s := by
  obtain ⟨-, before, behind, rfl, hbefore⟩ := List.find?_eq_some_iff_append.1 hs
  obtain ⟨-, hbehind, -⟩ := List.pairwise_append.1 hl
  rcases List.mem_append.1 ht with hmem | hmem
  · exact absurd hp (by simpa using hbefore t hmem)
  · rcases List.mem_cons.1 hmem with rfl | hmem
    · exact le_rfl
    · exact (List.rel_of_pairwise_cons hbehind hmem).le

theorem mem_counterStates {s : Nat} : s ∈ [6, 5, 4, 3, 2, 1] ↔ 1 ≤ s ∧ s ≤ 6 := by
  simp only [List.mem_cons, List.not_mem_nil, or_false]
  omega

/-- The search from the top either finds nothing, and the state is RAW, or ends at the state. -/
theorem counterOf_cases (g : Nat → Nat) :
    (counterOf g = 0 ∧ ∀ t, 1 ≤ t → t ≤ 6 → g (doneFuse t) ≠ 1) ∨
    (1 ≤ counterOf g ∧ counterOf g ≤ 6 ∧ g (doneFuse (counterOf g)) = 1 ∧ ∀ t, 1 ≤ t → t ≤ 6 → g (doneFuse t) = 1 → t ≤ counterOf g) := by
  cases h : [6, 5, 4, 3, 2, 1].find? (fun s => g (doneFuse s) == 1) with
  | none =>
    have hz : counterOf g = 0 := by rw [counterOf, h, Option.getD_none]
    exact .inl ⟨hz, fun t h1 h6 => by simpa using List.find?_eq_none.1 h t (mem_counterStates.2 ⟨h1, h6⟩)⟩
  | some s =>
    have hs : counterOf g = s := by rw [counterOf, h, Option.getD_some]
    obtain ⟨h1, h6⟩ := mem_counterStates.1 (List.mem_of_find?_eq_some h)
    have hblown : g (doneFuse s) = 1 := by simpa using List.find?_some h
    rw [hs]
    exact .inr ⟨h1, h6, hblown, fun t ht1 ht6 ht =>
      le_of_find?_eq_some_of_descending (by decide) h (mem_counterStates.2 ⟨ht1, ht6⟩) (by simpa using ht)⟩

theorem counterOf_eq_zero_iff (g : Nat → Nat) : counterOf g = 0 ↔ ∀ t, 1 ≤ t → t ≤ 6 → g (doneFuse t) ≠ 1 := by
  rcases counterOf_cases g with ⟨hz, hnone⟩ | ⟨h1, h6, hblown, -⟩
  · exact iff_of_true hz hnone
  · exact iff_of_false (by omega) fun h => h _ h1 h6 hblown

theorem counterOf_eq_iff (g : Nat → Nat) {t : Nat} (ht : 1 ≤ t) :
    counterOf g = t ↔ t ≤ 6 ∧ g (doneFuse t) = 1 ∧ ∀ u, t < u → u ≤ 6 → g (doneFuse u) ≠ 1 := by
  rcases counterOf_cases g with ⟨hz, hnone⟩ | ⟨h1, h6, hblown, hmax⟩
  · exact iff_of_false (by omega) fun ⟨h6, hb, _⟩ => hnone t ht h6 hb
  · constructor
    · rintro rfl
      exact ⟨h6, hblown, fun u hlt hu hb => absurd (hmax u (by omega) hu hb) (by omega)⟩
    · rintro ⟨ht6, hb, habove⟩
      have hle : t ≤ counterOf g := hmax t ht ht6 hb
      have hge : ¬ t < counterOf g := fun hlt => habove _ hlt h6 hblown
      omega

/-! ### The torn pair above the state -/

/-- A state above the counter's is never RAW, so the search covers every pair that the rule speaks of. -/
theorem isSome_counterTorn_iff (g : Nat → Nat) :
    (counterTorn g).isSome = true ↔ ∃ t, counterOf g < t ∧ t ≤ 6 ∧ g (intentFuse t) = 1 ∧ g (doneFuse t) = 0 := by
  have hmem (t : Nat) : t ∈ [1, 2, 3, 4, 5, 6] ↔ 1 ≤ t ∧ t ≤ 6 := by rw [← mem_counterStates, ← List.mem_reverse]; rfl
  simp only [counterTorn, List.find?_isSome, hmem, Bool.and_eq_true, decide_eq_true_eq, beq_iff_eq]
  constructor
  · rintro ⟨t, ⟨-, h6⟩, ⟨habove, hintent⟩, hdone⟩
    exact ⟨t, habove, h6, hintent, hdone⟩
  · rintro ⟨t, habove, h6, hintent, hdone⟩
    exact ⟨t, ⟨by omega, h6⟩, ⟨habove, hintent⟩, hdone⟩

/-- Settles O56: the search from the top finds the highest done fuse that is BLOWN, and the search above it the torn pair. -/
theorem lifeCycleStateOfFuses : Obligations.LifeCycleStateOfFuses := fun g =>
  ⟨counterOf_eq_zero_iff g, fun _ ht => counterOf_eq_iff g ht, isSome_counterTorn_iff g⟩

end Sys2Proof.Machine

/-! PROOFS. The queue: how a command ends, row by row; progress, and what a step does with the queue (log entry 1). -/

namespace Sys2Proof.Machine

/-! ### How a command ends -/

/-- The command answers a next state in which only the machine may differ. -/
def Answers (s : State) (o : Host.Outcome State Fault Refusal) : Prop := ∃ m, o = .next { s with m := m }

/-- The command answers, or stops at a unit that the package does not have, which only a command that is not `ok` names. -/
def Ends (ok : Bool) (s : State) (o : Host.Outcome State Fault Refusal) : Prop :=
  Answers s o ∨ o = .fault .noSuchUnit ∧ ok = false

theorem Answers.ends {ok : Bool} {s : State} {o : Host.Outcome State Fault Refusal} (h : Answers s o) : Ends ok s o := .inl h

/-- A row that first refuses an absent unit: the commands that are ok pass the check, and past it the row answers. -/
theorem Ends.guarded {ok : Bool} {s : State} {c : Prop} [Decidable c] {o : Host.Outcome State Fault Refusal} (hc : ok = true → ¬ c)
    (ho : Answers s o) : Ends ok s (if c then .fault .noSuchUnit else o) := by
  by_cases h : c
  · rw [if_pos h]
    exact .inr ⟨rfl, Bool.eq_false_iff.2 fun hok => hc hok h⟩
  · rw [if_neg h]
    exact .inl ho

/-- The command names units and fields that the package has. -/
def namesUnits (i : Instr) : Bool := i.wf && bindNamed i

theorem wf_of_namesUnits {i : Instr} (h : namesUnits i = true) : i.wf = true := (Bool.and_eq_true_iff.1 h).1

/-! ### Shared rows -/

theorem rxRow_ends {ok : Bool} {die : Nat} (f : Frame) (e : FrameEnd) (ty : Nat) (s : State) (g : Mach → Mach)
    (h : ok = true → die < 100) : Ends ok s (rxRow die f e ty s g) := by
  by_cases hd : die < 100
  · exact .inl (rxRow_next f e ty s g hd)
  · exact .inr ⟨rxRow_fault f e ty s g (not_lt.1 hd), Bool.eq_false_iff.2 fun hok => hd (h hok)⟩

theorem hubRow_ends {ok : Bool} {die : Nat} (f : Frame) (e : FrameEnd) (ty : Nat) (s : State) (g : Mach → Mach)
    (h : ok = true → die < 100) : Ends ok s (hubRow die f e ty s g) := by
  by_cases hd : die < 100
  · exact .inl (hubRow_next f e ty s g hd)
  · exact .inr ⟨if_pos (not_lt.1 hd), Bool.eq_false_iff.2 fun hok => hd (h hok)⟩

/-- The ports that lead out of the package are ports of an anchor die without a far end inside it (Table 1.6). -/
theorem outerWf_ports {d p : Nat} (h : outerWf d p = true) : d < 100 ∧ p < portsOf d ∧ farEnd d p = none := by
  simp only [outerWf, Bool.and_eq_true, decide_eq_true_eq] at h
  obtain ⟨⟨⟨h96, h100⟩, h8⟩, h16⟩ := h
  have h64 : ¬ d < 64 := by omega
  have h96' : ¬ d < 96 := by omega
  have h8' : ¬ p < 8 := by omega
  exact ⟨h100, by simpa only [portsOf, h64, h96', if_false] using h16, by simp only [farEnd, h64, h96', h8', if_false]⟩

theorem tokenRow_ends {ok : Bool} {die port : Nat} (b : List Byte) (ty : Nat) (s : State) (g : Mach → Token → Mach)
    (h : ok = true → outerWf die port = true) : Ends ok s (tokenRow die port b ty s g) := by
  refine .guarded (fun hok => ?_) ?_
  · obtain ⟨hd, hp, hf⟩ := outerWf_ports (h hok)
    simp [hf]
    omega
  · dsimp only
    repeat' split
    all_goals exact ⟨_, rfl⟩

/-! ### The register window -/

theorem execIfCtlEnable_answers (v : W64) (s : State) : Answers s (execIfCtlEnable v s) := by
  rw [execIfCtlEnable]
  split <;> exact ⟨_, rfl⟩

theorem execDoorbell_answers (size : Nat) (v : W64) (s : State) : Answers s (execDoorbell size v s) := by
  rw [execDoorbell]
  split <;> exact ⟨_, rfl⟩

theorem execRtnDoorbell_answers (v : W64) (s : State) : Answers s (execRtnDoorbell v s) := by
  rw [execRtnDoorbell]
  split <;> exact ⟨_, rfl⟩

/-- A command on a changed machine answers for the state that held the machine before. -/
theorem Answers.of_mach {s : State} {m : Mach} {o : Host.Outcome State Fault Refusal} (h : Answers { s with m := m } o) : Answers s o := h

theorem execRegisterWrite_answers (off size : Nat) (v : W64) (s : State) : Answers s (execRegisterWrite off size v s) := by
  rw [execRegisterWrite]
  split
  · exact ⟨_, rfl⟩
  split
  · exact ⟨_, rfl⟩
  dsimp only
  split
  · exact .of_mach (execIfCtlEnable_answers _ _)
  split
  · exact .of_mach (execDoorbell_answers _ _ _)
  split
  · exact .of_mach (execRtnDoorbell_answers _ _)
  · exact ⟨_, rfl⟩

/-! ### Every command -/

theorem portWf_eq (d p : Nat) : portWf d p = (decide (d < 100) && decide (p < portsOf d)) := rfl

/-- Row by row: the rows that name no unit answer; each of the others first refuses the units that the package does not have. -/
theorem exec_ends (i : Instr) (s : State) : Ends (namesUnits i) s (exec i s) := by
  cases i <;> dsimp only [exec]
  case openSession | closeSession | fence | nopCmd | query | haltCmd | resumeCmd | stepCmd | peek | poke | setBreak | clearBreak
      | setFreeze | headcount | stitch | dumpPlan | press | exportDump | releaseHamper | migrateCore | encodeCmd | decodeCmd | tally
      | compare | sentinelConfig | firstFault | traceConfig | traceStart | traceStop | traceDrain | loadRoutine | unloadRoutine
      | armTrigger | disarmTrigger | runRoutine | rollCall | installLicence | readLedger | stageMode | commitMode | saveTraining
      | resetScope | abortJob | setWatchdog | requestPowerCycle | authChallenge | authResponse | lcTransition | lcRead | ledgerRevoke
      | healthRead | eolRead =>
    exact Answers.ends (hostRow_next _ _ _ _)
  case syncFrame | rdReq | wrReq | bcastWr | bulkFrame | cancel | armStitch | armFrame =>
    exact rxRow_ends _ _ _ _ _ (by simp +contextual [namesUnits, Instr.wf, dieWf])
  case gather =>
    rw [execGather]
    split <;> exact rxRow_ends _ _ _ _ _ (by simp +contextual [namesUnits, Instr.wf, dieWf])
  case rdRsp | wrRsp => exact hubRow_ends _ _ _ _ _ (by simp +contextual [namesUnits, Instr.wf, dieWf])
  case abortToken | jobCmdToken | resultToken => exact tokenRow_ends _ _ _ _ (by simp +contextual [namesUnits, Instr.wf])
  case ifCtlEnable => exact (execIfCtlEnable_answers _ _).ends
  case doorbell => exact (execDoorbell_answers _ _ _).ends
  case rtnDoorbell => exact (execRtnDoorbell_answers _ _).ends
  case registerWrite => exact (execRegisterWrite_answers _ _ _ _).ends
  case routineCommandStep | rtnEnd | waitTick | bcastWrite | peekToScratch | setCounter | decSkip | skipIf | jump | routineEvent
      | traceCtl => exact Answers.ends (stepRow_next _ _ _ _)
  case scanCmd | scanHello | scanResend | scanBye => exact Answers.ends (scanRow_next _ _ _ _ _)
  case setEndpointId | getEndpointId | getMctpVersionSupport | getMessageTypeSupport | getVendorDefinedMessageSupport
      | errorUnsupportedCmd | mctpCommand => exact Answers.ends (mctpRow_next _ _ _)
  case getpid | getbcr | getdcr | getmwl | getmrl => exact Answers.ends (i3cRead_next _ _)
  case todArm | rcRead | ppsEdge | refLoss | ppsLoss | refReturn | gtcVoid | syncSend | haltCompletion | stepStuck |
      orphanPolicy | ownerMsg | jobMsg | fabricMsg | stitchProgress | stitchDeadline | tallyPartEnd | mergeDiscard |
      routineRunStart | waitTickDone | routineStepDone | periodicFiring | pendingFiring | sessionTimeout | eqRetry |
      coalesceEnd | dmaFailure | instructionLoad | testLogicReset | trstN | keepaliveExpiry | failoverHelloTimeout | entdaa |
      rstdaa | enec | disec | getstatus | setmwl | setmrl | holdupDrop | powerOnReset | dbgReset | warmStart | modeGather |
      drainEnd | rungEnd | rungBound | pwrCycleAssert | hubHeartbeatLoss | isolate | peerLost | internalWatchdog |
      lockstepMismatch | credentialExpiry | peerHeartbeat | vdbgLoss | badHeaderFrame =>
    refine Answers.ends ?_
    dsimp only [execTodArm, execRcRead, execPpsEdge, execRefLoss, execPpsLoss, execRefReturn, execGtcVoid, execSyncSend,
        execHaltCompletion, execStepStuck, execOrphanPolicy, execOwnerMsg, execJobMsg, execFabricMsg, execStitchProgress,
        execStitchDeadline, execTallyPartEnd, execMergeDiscard, execRoutineRunStart, execWaitTickDone, execRoutineStepDone,
        execPeriodicFiring, execPendingFiring, execSessionTimeout, execEqRetry, execCoalesceEnd, execDmaFailure,
        execInstructionLoad, execTestLogicReset, execTrstN, execKeepaliveExpiry, execFailoverHelloTimeout, execEntdaa,
        execRstdaa, execEnec, execDisec, execGetstatus, execSetmwl, execSetmrl, execHoldupDrop, execPowerOnReset,
        execDbgReset, execWarmStart, execModeGather, execDrainEnd, execRungEnd, execRungBound,
        execPwrCycleAssert, execHubHeartbeatLoss, execIsolate, execPeerLost, execInternalWatchdog, execLockstepMismatch,
        execCredentialExpiry, execPeerHeartbeat, execVdbgLoss, execBadHeaderFrame]
    repeat' split
    all_goals exact ⟨_, rfl⟩
  case echoReq | echoRsp | calibration | responseTimeout | gatherReturn | heartbeat | eventFrame | segmentDown | trunkDown |
      retrain | shareRelease | haltStrobe | tapCountdown | waypointFire | engineBoundary | atomicBound | coreSleep | coreWake
      | entryBreakpoint | watchpoint | stepLimit | cutPoint | cutBufferRecord | cutMarker | cutDeadline | captureDone |
      hamperClaim | sentinelMatch | firstFaultCollect | tapTraceRecord | linkTraceRecord | horizonClose | spillBurst | trigIn
      | trigOutEnd | trigOutStart | watchdogExpired | epochArrivalDrop | stationFault | tapFault | tapAlivePoll | wearSample |
      wearFit | linkLayerError | trunkRestored | entryCompleted | badTypeFrame | healthFault | tapSntFirstClear | tapTrcMark
      =>
    dsimp only [execEchoReq, execEchoRsp, execCalibration, execResponseTimeout, execGatherReturn, execHeartbeat,
        execEventFrame, execSegmentDown, execTrunkDown, execRetrain, execShareRelease, execHaltStrobe, execTapCountdown,
        execWaypointFire, execEngineBoundary, execAtomicBound, execCoreSleep, execCoreWake, execEntryBreakpoint,
        execWatchpoint, execStepLimit, execCutPoint, execCutBufferRecord, execCutMarker, execCutDeadline, execCaptureDone,
        execHamperClaim, execSentinelMatch, execFirstFaultCollect, execTapTraceRecord, execLinkTraceRecord, execHorizonClose,
        execSpillBurst, execTrigIn, execTrigOutEnd, execTrigOutStart, execWatchdogExpired, execEpochArrivalDrop,
        execStationFault, execTapFault, execTapAlivePoll, execWearSample, execWearFit, execLinkLayerError, execTrunkRestored,
        execEntryCompleted, execBadTypeFrame, execHealthFault, execTapSntFirstClear, execTapTrcMark]
    refine .guarded (fun hok => ?_) ?_
    · simp [namesUnits, Instr.wf, dieWf, tapWf, engWf, portWf_eq, tapOk, engOk, portOk, captureFolios, upDie, wfld] at hok ⊢
      omega
    · repeat' split
      all_goals exact ⟨_, rfl⟩
  case warmDone =>
    rw [execWarmDone]
    split
    · split <;> exact Answers.ends ⟨_, rfl⟩
    · exact Answers.ends ⟨_, rfl⟩
  case secdedError x =>
    dsimp only [execSecdedError]
    refine .guarded (fun hok => ?_) ?_
    · have hwf := wf_of_namesUnits hok
      obtain ⟨array, die, place, sub, uncorrectable⟩ := x
      cases array <;> simp_all [Instr.wf, eccWf, dieWf, tapWf, portWf_eq, tapOk, portOk, hubArray]
    · repeat' split
      all_goals exact ⟨_, rfl⟩
  case scrub die fixes =>
    cases die with
    | none => exact .inl ⟨_, rfl⟩
    | some d =>
      dsimp only [execScrub]
      refine .guarded (fun hok => ?_) ?_
      · simp [namesUnits, Instr.wf, dieWf] at hok ⊢
        omega
      · split <;> exact ⟨_, rfl⟩
  case bindMsg b =>
    dsimp only [execBindMsg]
    split
    · next h => exact .inr ⟨rfl, by simp [namesUnits, bindNamed, h]⟩
    · refine Answers.ends ?_
      repeat' split
      all_goals exact ⟨_, rfl⟩

/-! ### The queue -/

theorem exec_answers {i : Instr} (s : State) (h : namesUnits i = true) : Answers s (exec i s) := by
  rcases exec_ends i s with h' | ⟨-, h'⟩
  · exact h'
  · exact absurd (h.symm.trans h') (by decide)

/-- A command that answers leaves the rest of the queue. -/
theorem pending_of_exec {i : Instr} {s t : State} (h : exec i s = .next t) : t.pending = s.pending := by
  rcases exec_ends i s with ⟨m, h'⟩ | ⟨h', -⟩
  · cases h.symm.trans h'
    rfl
  · cases h.symm.trans h'

/-- A step takes exactly the front of the queue. -/
theorem pending_of_step {s t : State} (h : step s = .next t) : t.pending = s.pending.tail := by
  obtain ⟨_ | ⟨c, r⟩, m⟩ := s
  · cases h
    rfl
  · exact pending_of_exec h

/-- A queue of commands that name units of the package drains, one command a step. -/
theorem run_drains {s : State} (h : ∀ c ∈ s.pending, namesUnits c = true) :
    ∃ t, Host.Core.run Sys2Proof.core s.pending.length s = .next t ∧ t.pending = [] := by
  obtain ⟨l, m⟩ := s
  induction l generalizing m with
  | nil => exact ⟨_, rfl, rfl⟩
  | cons c r ih =>
    obtain ⟨m', hc⟩ := exec_answers ⟨r, m⟩ (h c List.mem_cons_self)
    obtain ⟨t, ht, hp⟩ := ih m' fun d hd => h d (List.mem_cons_of_mem c hd)
    have hs : Sys2Proof.core.step ⟨c :: r, m⟩ = .next ⟨r, m'⟩ := hc
    refine ⟨t, ?_, hp⟩
    simp only [List.length_cons, Host.Core.run, hs, ht]

/-- Settles O1: `step` looks at the front of the queue alone. -/
theorem stepRunsFront : Obligations.StepRunsFront := by
  refine ⟨fun c s => rfl, fun s h => ?_⟩
  rw [step, h]

/-- Settles O3, from how every command ends: a well-formed one, a BIND naming a unit that can be bound, never stops. -/
theorem wellFormedCommandsRun : Obligations.WellFormedCommandsRun := fun _ s hwf hb =>
  exec_answers s (Bool.and_eq_true_iff.2 ⟨hwf, hb⟩)

/-- Settles O4: every row answers or refuses an absent unit. -/
theorem onlyAbsentUnitsStop : Obligations.OnlyAbsentUnitsStop := fun i s =>
  (exec_ends i s).imp id fun ⟨hfault, hok⟩ => ⟨hfault, Bool.and_eq_false_iff.1 hok⟩

/-- Settles O5, by induction on the queue. -/
theorem queueDrains : Obligations.QueueDrains := fun _ hwf hb =>
  run_drains fun c hc => Bool.and_eq_true_iff.2 ⟨hwf c hc, hb c hc⟩

/-- Settles O6: the queue after a step is the tail of the queue before it. -/
theorem stepKeepsQueueWf : Obligations.StepKeepsQueueWf := fun _ _ hwf hstep => by
  have hp := pending_of_step hstep
  exact ⟨fun c hc => hwf c (List.mem_of_mem_tail (hp ▸ hc)), hp⟩

end Sys2Proof.Machine

/-! PROOFS. The block codec round trips: bit strings, granules, planes, the header, and the block (R187-R206). -/

namespace Sys2Proof.Machine

/-! ### Bit strings -/

theorem packBits_lt {k : Nat} {vs : List Nat} (h : ∀ v ∈ vs, v < 2 ^ k) : packBits k vs < 2 ^ (k * vs.length) := by
  induction vs with
  | nil => exact Nat.one_pos
  | cons v r ih =>
    obtain ⟨hv, hr⟩ := List.forall_mem_cons.1 h
    calc packBits k (v :: r) < 2 ^ k * (packBits k r + 1) := by rw [packBits, Nat.mul_succ]; omega
      _ ≤ 2 ^ k * 2 ^ (k * r.length) := Nat.mul_le_mul_left _ (ih hr)
      _ = 2 ^ (k * (v :: r).length) := by rw [List.length_cons, Nat.mul_succ, Nat.add_comm, pow_add]

/-- Values within their width come back from their bit string. -/
theorem unpackBits_packBits {k : Nat} {vs : List Nat} (h : ∀ v ∈ vs, v < 2 ^ k) : unpackBits k vs.length (packBits k vs) = vs := by
  induction vs with
  | nil => rfl
  | cons v r ih =>
    obtain ⟨hv, hr⟩ := List.forall_mem_cons.1 h
    rw [List.length_cons, unpackBits, packBits, Nat.add_mul_mod_self_left, Nat.mod_eq_of_lt hv,
      Nat.add_mul_div_left _ _ (Nat.two_pow_pos k), Nat.div_eq_of_lt hv, Nat.zero_add, ih hr]

/-! ### Pieces of a list -/

theorem flatten_chunks {α : Type} {n c : Nat} {l : List α} (h : l.length = n * c) : (chunks n c l).flatten = l := by
  induction c generalizing l with
  | zero => exact (List.eq_nil_of_length_eq_zero h).symm
  | succ c ih =>
    have hd : (l.drop n).length = n * c := by rw [List.length_drop, h, Nat.mul_succ, Nat.add_sub_cancel]
    rw [chunks, List.flatten_cons, ih hd, List.take_append_drop]

theorem length_chunks {α : Type} (n c : Nat) (l : List α) : (chunks n c l).length = c := by
  induction c generalizing l with
  | zero => rfl
  | succ c ih => rw [chunks, List.length_cons, ih]

theorem length_of_mem_chunks {α : Type} {n c : Nat} {l p : List α} (h : l.length = n * c) (hp : p ∈ chunks n c l) : p.length = n := by
  induction c generalizing l with
  | zero => cases hp
  | succ c ih =>
    rw [Nat.mul_succ] at h
    rcases List.mem_cons.1 hp with rfl | hp
    · rw [List.length_take]
      omega
    · exact ih (by rw [List.length_drop, h, Nat.add_sub_cancel]) hp

/-- Pieces of one length come back from their concatenation. -/
theorem chunks_flatten {α : Type} {n : Nat} {ps : List (List α)} (h : ∀ p ∈ ps, p.length = n) : chunks n ps.length ps.flatten = ps := by
  induction ps with
  | nil => rfl
  | cons p r ih =>
    obtain ⟨hp, hr⟩ := List.forall_mem_cons.1 h
    rw [List.length_cons, List.flatten_cons, chunks, List.take_left' hp, List.drop_left' hp, ih hr]

/-! ### XOR-delta and planes (R189-R191) -/

theorem length_xorDelta (p : Byte) (l : List Byte) : (xorDelta p l).length = l.length := by
  induction l generalizing p with
  | nil => rfl
  | cons b r ih => rw [xorDelta, List.length_cons, List.length_cons, ih]

theorem xorUndo_xorDelta (p : Byte) (l : List Byte) : xorUndo p (xorDelta p l) = l := by
  induction l generalizing p with
  | nil => rfl
  | cons b r ih => rw [xorDelta, xorUndo, BitVec.xor_assoc, BitVec.xor_self, BitVec.xor_zero, ih]

/-- The planes of elements: plane j holds byte w − 1 − j of each. -/
def planesOf (w : Nat) (elems : List (List Byte)) : List (List Byte) := (List.range w).map (fun j => plane w j elems)

/-- The first bytes of the planes are the bytes of the first element, last byte first. -/
theorem heads_planesOf {w : Nat} {e : List Byte} (r : List (List Byte)) (he : e.length = w) :
    ((planesOf w (e :: r)).map (fun p => p.headD 0)).reverse = e := by
  have hheads : (planesOf w (e :: r)).map (fun p => p.headD 0) = (List.range w).map (fun j => e.getD (w - 1 - j) 0) := by
    simp [planesOf, plane]
  rw [hheads]
  refine List.ext_getElem (by simp [he]) fun i hi _ => ?_
  simp at hi
  simp [List.getElem_reverse, List.getD_eq_getElem?_getD]
  rw [List.getElem?_eq_getElem (by omega), Option.getD_some]
  congr 1
  omega

theorem tails_planesOf (w : Nat) (e : List Byte) (r : List (List Byte)) : (planesOf w (e :: r)).map List.tail = planesOf w r := by
  simp [planesOf, plane]

/-- Elements of w bytes come back from their planes. -/
theorem joinPlanes_planesOf {w : Nat} {elems : List (List Byte)} (h : ∀ e ∈ elems, e.length = w) :
    joinPlanes (planesOf w elems) elems.length = elems.flatten := by
  induction elems with
  | nil => rfl
  | cons e r ih =>
    obtain ⟨he, hr⟩ := List.forall_mem_cons.1 h
    rw [List.length_cons, joinPlanes, heads_planesOf r he, tails_planesOf, ih hr, List.flatten_cons]

/-- The planes of a block as it is coded: XORed where the flag is set. -/
def codedPlanes (w : Nat) (xor : Bool) (b : List Byte) : List (List Byte) :=
  if xor then (splitPlanes w b).map (xorDelta 0) else splitPlanes w b

theorem splitPlanes_eq (w : Nat) (b : List Byte) : splitPlanes w b = planesOf w (chunks w (4096 / w) b) := rfl

theorem length_codedPlanes (w : Nat) (xor : Bool) (b : List Byte) : (codedPlanes w xor b).length = w := by
  cases xor <;> simp [codedPlanes, splitPlanes]

theorem length_of_mem_codedPlanes {w : Nat} {xor : Bool} {b p : List Byte} (hp : p ∈ codedPlanes w xor b) : p.length = 4096 / w := by
  have hplane (j : Nat) : (plane w j (chunks w (4096 / w) b)).length = 4096 / w := by rw [plane, List.length_map, length_chunks]
  cases xor with
  | false =>
    obtain ⟨j, -, rfl⟩ := List.mem_map.1 hp
    exact hplane j
  | true =>
    obtain ⟨q, hq, rfl⟩ := List.mem_map.1 hp
    obtain ⟨j, -, rfl⟩ := List.mem_map.1 hq
    rw [length_xorDelta, hplane]

theorem length_flatten_codedPlanes {w : Nat} (xor : Bool) (b : List Byte) (hw : w ∣ 4096) :
    (codedPlanes w xor b).flatten.length = 4096 := by
  rw [List.length_flatten, List.map_congr_left (fun p hp => length_of_mem_codedPlanes hp), List.map_const', List.sum_replicate,
    length_codedPlanes, smul_eq_mul, Nat.mul_div_cancel' hw]

/-- A block comes back from its coded planes. -/
theorem rebuild_codedPlanes {wcode : Nat} (xor : Bool) {b : List Byte} {gs : List (List Byte)} (hw : wcode < 3) (hb : b.length = 4096)
    (hgs : gs.flatten = (codedPlanes (2 ^ wcode) xor b).flatten) : rebuild wcode xor gs = b := by
  have hdvd : 2 ^ wcode ∣ 4096 := by interval_cases wcode <;> decide
  have hlen : b.length = 2 ^ wcode * (4096 / 2 ^ wcode) := by rw [hb, Nat.mul_div_cancel' hdvd]
  have hcut : chunks (4096 / 2 ^ wcode) (2 ^ wcode) gs.flatten = codedPlanes (2 ^ wcode) xor b := by
    have h := chunks_flatten (ps := codedPlanes (2 ^ wcode) xor b) fun p hp => length_of_mem_codedPlanes hp
    rwa [length_codedPlanes, ← hgs] at h
  have hplanes : (if xor then (codedPlanes (2 ^ wcode) xor b).map (xorUndo 0) else codedPlanes (2 ^ wcode) xor b) =
      splitPlanes (2 ^ wcode) b := by
    cases xor with
    | false => rfl
    | true => simp [codedPlanes, List.map_map, Function.comp_def, xorUndo_xorDelta]
  have hjoin := joinPlanes_planesOf (elems := chunks (2 ^ wcode) (4096 / 2 ^ wcode) b) fun e he => length_of_mem_chunks hlen he
  rw [length_chunks, flatten_chunks hlen] at hjoin
  rw [rebuild, hcut, hplanes, splitPlanes_eq, hjoin]

/-! ### Granules (R192, R193, R197) -/

theorem le_granMax_acc (g : List Byte) (a : Nat) : a ≤ g.foldl (fun a b => Nat.max a b.toNat) a ∧
    ∀ b ∈ g, b.toNat ≤ g.foldl (fun a b => Nat.max a b.toNat) a := by
  induction g generalizing a with
  | nil => exact ⟨le_refl a, by simp⟩
  | cons b r ih =>
    obtain ⟨hacc, hr⟩ := ih (Nat.max a b.toNat)
    refine ⟨(Nat.le_max_left _ _).trans hacc, ?_⟩
    rintro c (_ | ⟨_, hc⟩)
    · exact (Nat.le_max_right _ _).trans hacc
    · exact hr c hc

theorem granMin_le_acc (g : List Byte) (a : Nat) : g.foldl (fun a b => Nat.min a b.toNat) a ≤ a ∧
    ∀ b ∈ g, g.foldl (fun a b => Nat.min a b.toNat) a ≤ b.toNat := by
  induction g generalizing a with
  | nil => exact ⟨le_refl a, by simp⟩
  | cons b r ih =>
    obtain ⟨hacc, hr⟩ := ih (Nat.min a b.toNat)
    refine ⟨hacc.trans (Nat.min_le_left _ _), ?_⟩
    rintro c (_ | ⟨_, hc⟩)
    · exact hacc.trans (Nat.min_le_right _ _)
    · exact hr c hc

theorem le_granMax {g : List Byte} {b : Byte} (h : b ∈ g) : b.toNat ≤ granMax g := (le_granMax_acc g 0).2 b h

theorem granMin_le {g : List Byte} {b : Byte} (h : b ∈ g) : granMin g ≤ b.toNat := (granMin_le_acc g 255).2 b h

theorem granMin_lt (g : List Byte) : granMin g < 256 := Nat.lt_succ_of_le (granMin_le_acc g 255).1

/-- A granule whose bytes all lie at v is v repeated. -/
theorem eq_replicate_of_toNat {g : List Byte} {v : Nat} (h : ∀ b ∈ g, b.toNat = v) : g = List.replicate g.length (BitVec.ofNat 8 v) := by
  refine List.eq_replicate_of_mem fun b hb => ?_
  rw [← h b hb, BitVec.ofNat_toNat, BitVec.setWidth_eq]

/-- PACK's width is 1 to 7 bits and holds every range up to 127 (R197). -/
theorem packWidth_spec {range : Nat} (h : range ≤ 127) : 1 ≤ packWidth range ∧ packWidth range ≤ 7 ∧ range < 2 ^ packWidth range := by
  unfold packWidth
  cases hk : ([1, 2, 3, 4, 5, 6, 7] : List Nat).find? (fun k => decide (range < 2 ^ k)) with
  | none =>
    have h7 := List.find?_eq_none.1 hk 7 (by simp)
    simp at h7
    omega
  | some k =>
    have hmem := List.mem_of_find?_eq_some hk
    have hlt := List.find?_some hk
    simp at hmem hlt
    rw [Option.getD_some]
    exact ⟨by omega, by omega, hlt⟩

/-- The values that PACK holds for a granule. -/
def packed (lo : Nat) (g : List Byte) : List Nat := g.map (fun b => b.toNat - lo)

/-- A granule comes back from its base and its packed values. -/
theorem map_add_packed {lo : Nat} {g : List Byte} (h : ∀ b ∈ g, lo ≤ b.toNat) :
    (packed lo g).map (fun v => BitVec.ofNat 8 (lo + v)) = g := by
  rw [packed, List.map_map]
  conv_rhs => rw [← List.map_id g]
  refine List.map_congr_left fun b hb => ?_
  have hlo := h b hb
  simp only [Function.comp_apply, Nat.add_sub_cancel' hlo, BitVec.ofNat_toNat, BitVec.setWidth_eq, id_eq]

/-- What a granule is coded as, one mode after the other (Table 6.2). -/
theorem granMode_cases (prev : Option (List Byte)) (g : List Byte) (hg : g.length = 64) :
    (granMode prev g = (0, []) ∧ g = zeros 64) ∨ (granMode prev g = (1, []) ∧ prev = some g) ∨
    (∃ v, granMode prev g = (2, [v]) ∧ g = List.replicate 64 v) ∨
    (∃ lo k, granMode prev g = (3, [BitVec.ofNat 8 lo, BitVec.ofNat 8 k] ++ leBytes (8 * k) (packBits k (packed lo g))) ∧
      lo < 256 ∧ 1 ≤ k ∧ k ≤ 7 ∧ ∀ b ∈ g, lo ≤ b.toNat ∧ b.toNat - lo < 2 ^ k) ∨
    granMode prev g = (4, g) := by
  unfold granMode
  dsimp only
  split
  case isTrue hz =>
    refine .inl ⟨rfl, ?_⟩
    have h0 : ∀ b ∈ g, b.toNat = 0 := fun b hb => by have := le_granMax hb; omega
    rw [eq_replicate_of_toNat h0, hg]
    rfl
  split
  case isTrue hprev => exact .inr (.inl ⟨rfl, hprev⟩)
  split
  case isTrue heq =>
    refine .inr (.inr (.inl ⟨_, rfl, ?_⟩))
    have hlo : ∀ b ∈ g, b.toNat = granMin g := fun b hb => by have := le_granMax hb; have := granMin_le hb; omega
    conv_lhs => rw [eq_replicate_of_toNat hlo, hg]
  split
  case isTrue hrange =>
    obtain ⟨h1, h7, hlt⟩ := packWidth_spec hrange
    refine .inr (.inr (.inr (.inl ⟨granMin g, _, rfl, granMin_lt g, h1, h7, fun b hb => ⟨granMin_le hb, ?_⟩⟩)))
    have := le_granMax hb
    omega
  case isFalse => exact .inr (.inr (.inr (.inr rfl)))

theorem granMode_mode_lt (prev : Option (List Byte)) {g : List Byte} (hg : g.length = 64) : (granMode prev g).1 < 2 ^ 3 := by
  rcases granMode_cases prev g hg with ⟨h, -⟩ | ⟨h, -⟩ | ⟨v, h, -⟩ | ⟨lo, k, h, -⟩ | h <;> simp [h]

/-- The PACK arm: 64 values of k bits behind their base come back. -/
theorem unGranules_pack (prev : Option (List Byte)) {lo k : Nat} {g : List Byte} (r : List Nat) (p : List Byte) (hg : g.length = 64)
    (hlo : lo < 256) (h1 : 1 ≤ k) (h7 : k ≤ 7) (hb : ∀ b ∈ g, lo ≤ b.toNat ∧ b.toNat - lo < 2 ^ k) :
    unGranules prev (3 :: r) ([BitVec.ofNat 8 lo, BitVec.ofNat 8 k] ++ leBytes (8 * k) (packBits k (packed lo g)) ++ p) =
      (unGranules (some g) r p).map (g :: ·) := by
  have hlen : (packed lo g).length = 64 := by rw [packed, List.length_map, hg]
  have hlt : ∀ v ∈ packed lo g, v < 2 ^ k := fun v hv => by
    obtain ⟨b, hbg, rfl⟩ := List.mem_map.1 hv
    exact (hb b hbg).2
  have hpack : packBits k (packed lo g) < 256 ^ (8 * k) := by
    have h := packBits_lt hlt
    rwa [hlen, show k * 64 = 8 * (8 * k) by ring, pow_mul] at h
  have hk : (BitVec.ofNat 8 k).toNat = k := by rw [BitVec.toNat_ofNat]; omega
  have hbase : (BitVec.ofNat 8 lo).toNat = lo := by rw [BitVec.toNat_ofNat]; omega
  have hvalues : unpackBits k 64 (packBits k (packed lo g)) = packed lo g := by
    have h := unpackBits_packBits hlt
    rwa [hlen] at h
  have hover : (packed lo g).any (fun v => decide (255 < lo + v)) = false := by
    rw [List.any_eq_false]
    intro v hv
    obtain ⟨b, hbg, rfl⟩ := List.mem_map.1 hv
    have := (hb b hbg).1
    have := b.isLt
    simp
    omega
  have hshape : ¬ (k = 0 ∨ 7 < k ∨ (leBytes (8 * k) (packBits k (packed lo g)) ++ p).length < 8 * k) := by
    rw [List.length_append, length_leBytes]
    omega
  simp only [List.cons_append, List.nil_append, unGranules, hk, hbase, hshape, if_false, List.take_left' (length_leBytes _ _),
    List.drop_left' (length_leBytes _ _), leNat_leBytes, Nat.mod_eq_of_lt hpack, hvalues, hover, Bool.false_eq_true,
    map_add_packed fun b hbg => (hb b hbg).1]

/-- A coded granule is read back, and the rest of the payload is left to the granules behind it. -/
theorem unGranules_granMode (prev : Option (List Byte)) {g : List Byte} (r : List Nat) (p : List Byte) (hg : g.length = 64) :
    unGranules prev ((granMode prev g).1 :: r) ((granMode prev g).2 ++ p) = (unGranules (some g) r p).map (g :: ·) := by
  rcases granMode_cases prev g hg with ⟨h, rfl⟩ | ⟨h, rfl⟩ | ⟨v, h, rfl⟩ | ⟨lo, k, h, hlo, h1, h7, hb⟩ | h <;> rw [h]
  · rfl
  · rfl
  · rfl
  · exact unGranules_pack prev r p hg hlo h1 h7 hb
  · have hlong : ¬ (g ++ p).length < 64 := by rw [List.length_append]; omega
    simp only [unGranules, hlong, if_false, List.take_left' hg, List.drop_left' hg]

/-- Granules come back from their modes and payloads. -/
theorem unGranules_granModes (prev : Option (List Byte)) {gs : List (List Byte)} (h : ∀ g ∈ gs, g.length = 64) :
    unGranules prev ((granModes prev gs).map Prod.fst) (payloadOf (granModes prev gs)) = some gs := by
  induction gs generalizing prev with
  | nil => rfl
  | cons g r ih =>
    obtain ⟨hg, hr⟩ := List.forall_mem_cons.1 h
    have hpay : payloadOf (granMode prev g :: granModes (some g) r) = (granMode prev g).2 ++ payloadOf (granModes (some g) r) := rfl
    rw [granModes, List.map_cons, hpay, unGranules_granMode prev _ _ hg, ih (some g) hr, Option.map_some]

theorem length_granModes (prev : Option (List Byte)) (gs : List (List Byte)) : (granModes prev gs).length = gs.length := by
  induction gs generalizing prev with
  | nil => rfl
  | cons g r ih => rw [granModes, List.length_cons, List.length_cons, ih]

theorem granModes_mode_lt (prev : Option (List Byte)) {gs : List (List Byte)} (h : ∀ g ∈ gs, g.length = 64) :
    ∀ v ∈ (granModes prev gs).map Prod.fst, v < 2 ^ 3 := by
  induction gs generalizing prev with
  | nil => simp [granModes]
  | cons g r ih =>
    obtain ⟨hg, hr⟩ := List.forall_mem_cons.1 h
    exact List.forall_mem_cons.2 ⟨granMode_mode_lt prev hg, ih (some g) hr⟩

/-! ### The block: its modes, payload and header (Table 6.3) -/

/-- The granules of a block under a width and an XOR flag. -/
def blockGranules (w : Nat) (xor : Bool) (b : List Byte) : List (List Byte) := chunks 64 64 (codedPlanes w xor b).flatten

theorem blockModes_eq (w : Nat) (xor : Bool) (b : List Byte) : blockModes w xor b = granModes none (blockGranules w xor b) := rfl

/-- The mode bits of a block. -/
def modeBits (w : Nat) (xor : Bool) (b : List Byte) : Nat := packBits 3 ((blockModes w xor b).map Prod.fst)

theorem blockGranules_spec {w : Nat} (xor : Bool) (b : List Byte) (hw : w ∣ 4096) :
    (blockGranules w xor b).length = 64 ∧ (∀ g ∈ blockGranules w xor b, g.length = 64) ∧
      (blockGranules w xor b).flatten = (codedPlanes w xor b).flatten := by
  have hlen := length_flatten_codedPlanes xor b hw
  exact ⟨length_chunks _ _ _, fun g hg => length_of_mem_chunks hlen hg, flatten_chunks hlen⟩

theorem modeBits_spec {w : Nat} (xor : Bool) (b : List Byte) (hw : w ∣ 4096) :
    modeBits w xor b < 256 ^ 24 ∧ unpackBits 3 64 (modeBits w xor b) = (blockModes w xor b).map Prod.fst := by
  obtain ⟨hcount, hsizes, -⟩ := blockGranules_spec xor b hw
  have hlt := granModes_mode_lt none hsizes
  have hlen : ((blockModes w xor b).map Prod.fst).length = 64 := by
    rw [blockModes_eq, List.length_map, length_granModes, hcount]
  have hbits := packBits_lt hlt
  have hback := unpackBits_packBits hlt
  rw [← blockModes_eq, hlen] at hbits hback
  exact ⟨hbits, hback⟩

/-- A coded block: the header with its CRC, the modes and the payload. -/
def codedBlock (use : Nat) (xor : Bool) (wcode ratio vlen crc seq : Nat) (b : List Byte) : List Byte :=
  blockHeader use xor wcode ratio vlen (payloadOf (blockModes (2 ^ wcode) xor b)).length crc seq ++
    (leBytes 24 (modeBits (2 ^ wcode) xor b) ++ payloadOf (blockModes (2 ^ wcode) xor b))

theorem length_codedBlock (use : Nat) (xor : Bool) (wcode ratio vlen crc seq : Nat) (b : List Byte) :
    (codedBlock use xor wcode ratio vlen crc seq b).length = 40 + (payloadOf (blockModes (2 ^ wcode) xor b)).length := by
  rw [codedBlock, List.length_append, List.length_append, length_blockHeader, length_leBytes]
  omega

/-- Patching the CRC of a block replaces it, whatever it was. -/
theorem patch_codedBlock (use : Nat) (xor : Bool) (wcode ratio vlen crc seq : Nat) (b : List Byte) (crc' : Nat) :
    patch (codedBlock use xor wcode ratio vlen crc seq b) 8 (leBytes 4 crc') = codedBlock use xor wcode ratio vlen crc' seq b := by
  simp [patch, codedBlock, blockHeader, leBytes]

theorem zeros_four : zeros 4 = leBytes 4 0 := rfl

/-- A coded block as the fields of Table 6.3 in their order. -/
theorem codedBlock_fields (use : Nat) (xor : Bool) (wcode ratio vlen crc seq : Nat) (b : List Byte) :
    codedBlock use xor wcode ratio vlen crc seq b =
      leBytes 1 0xA5 ++ (leBytes 1 (0x10 + use * 4 + b2n xor * 2) ++ (leBytes 1 wcode ++ (leBytes 1 ratio ++ (leBytes 2 vlen ++
        (leBytes 2 (payloadOf (blockModes (2 ^ wcode) xor b)).length ++ (leBytes 4 crc ++ (leBytes 4 seq ++
          (leBytes 24 (modeBits (2 ^ wcode) xor b) ++ payloadOf (blockModes (2 ^ wcode) xor b))))))))) := by
  simp [codedBlock, blockHeader, leBytes]

/-- What a CRC field must hold for a block of this USE (R200). -/
def blockCrc (use : Nat) (xor : Bool) (wcode ratio vlen seq : Nat) (b : List Byte) : Nat :=
  if use = 0 then crc32c (codedBlock use xor wcode ratio vlen 0 seq b) else crc32c (b.take vlen)

theorem blockCrc_lt (use : Nat) (xor : Bool) (wcode ratio vlen seq : Nat) (b : List Byte) :
    blockCrc use xor wcode ratio vlen seq b < 256 ^ 4 := by
  unfold blockCrc
  split <;> exact crc32c_lt _

/-- Byte 1 of a block: version 1, bit 0 clear, and USE. -/
theorem blockFlags_spec {use : Nat} (xor : Bool) (hu : use < 3) :
    (0x10 + use * 4 + b2n xor * 2) / 16 = 1 ∧ (0x10 + use * 4 + b2n xor * 2) % 2 = 0 ∧ nfld (0x10 + use * 4 + b2n xor * 2) 2 2 = use := by
  interval_cases use <;> cases xor <;> decide

/-- The mode bits and the payload of a block are read back as its granules. -/
theorem unGranules_blockModes {w : Nat} (xor : Bool) (b : List Byte) (hw : w ∣ 4096) :
    unGranules none (unpackBits 3 64 (modeBits w xor b)) (payloadOf (blockModes w xor b)) = some (blockGranules w xor b) := by
  rw [(modeBits_spec xor b hw).2, blockModes_eq]
  exact unGranules_granModes none (blockGranules_spec xor b hw).2.1

/-- Every field of a coded block reads as it was built, whatever fills the slot behind it. -/
theorem codedBlock_reads {use : Nat} (xor : Bool) {wcode ratio vlen crc s : Nat} (b fill : List Byte) (hu : use < 3) (hw : wcode < 3)
    (hr : ratio < 256) (hv : vlen ≤ 4096) (hcrc : crc < 2 ^ 32) (hs : s < 2 ^ 32)
    (hplen : (payloadOf (blockModes (2 ^ wcode) xor b)).length < 2 ^ 16) :
    let slot := codedBlock use xor wcode ratio vlen crc s b ++ fill
    (bytesAt slot 0 1 = 0xA5 ∧ bytesAt slot 1 1 = 0x10 + use * 4 + b2n xor * 2 ∧ bytesAt slot 2 1 = wcode ∧ bytesAt slot 3 1 = ratio) ∧
    (bytesAt slot 4 2 = vlen ∧ bytesAt slot 6 2 = (payloadOf (blockModes (2 ^ wcode) xor b)).length ∧ bytesAt slot 8 4 = crc ∧
      bytesAt slot 12 4 = s) ∧
    bytesAt slot 16 24 = modeBits (2 ^ wcode) xor b ∧
    (slot.drop 40).take (payloadOf (blockModes (2 ^ wcode) xor b)).length = payloadOf (blockModes (2 ^ wcode) xor b) := by
  intro slot
  have hdvd : 2 ^ wcode ∣ 4096 := by interval_cases wcode <;> decide
  have hmodes := (modeBits_spec xor b hdvd).1
  have hx : b2n xor ≤ 1 := by cases xor <;> decide
  have hpay : slot.drop 40 = payloadOf (blockModes (2 ^ wcode) xor b) ++ fill := by
    simp [slot, codedBlock, List.drop_append, List.drop_eq_nil_of_le, length_blockHeader, length_leBytes]
  simp only [slot, codedBlock_fields, List.append_assoc] at hpay ⊢
  refine ⟨?_, ?_, ?_, ?_⟩
  · simp (disch := omega) only [bytesAt_leBytes_skip, Nat.reduceSub, bytesAt_leBytes_append, and_self]
  · simp (disch := omega) only [bytesAt_leBytes_skip, Nat.reduceSub, bytesAt_leBytes_append, and_self]
  · simp (disch := omega) only [bytesAt_leBytes_skip, Nat.reduceSub, bytesAt_leBytes_append _ hmodes]
  · rw [hpay, List.take_left]

/-- A block whose CRC is the one of its USE decodes to its valid bytes, whatever fills the slot behind it. -/
theorem decodeSlot_codedBlock {use : Nat} {xor : Bool} {wcode ratio vlen s : Nat} {b : List Byte} (fill : List Byte) (seq : Option Nat)
    (hb : b.length = 4096) (hu : use < 3) (hw : wcode < 3) (hr : ratio < 256) (h1 : 1 ≤ vlen) (hv : vlen ≤ 4096) (hs : s < 2 ^ 32)
    (hfit : 40 + (payloadOf (blockModes (2 ^ wcode) xor b)).length ≤ 4096 / ratio) (hseq : ∀ q, seq = some q → q = s) :
    decodeSlot (codedBlock use xor wcode ratio vlen (blockCrc use xor wcode ratio vlen s b) s b ++ fill) ratio seq =
      .bytes (b.take vlen) := by
  have hdvd : 2 ^ wcode ∣ 4096 := by interval_cases wcode <;> decide
  obtain ⟨hver, hbit0, huse⟩ := blockFlags_spec xor hu
  have hplen : (payloadOf (blockModes (2 ^ wcode) xor b)).length < 2 ^ 16 := by have := Nat.div_le_self 4096 ratio; omega
  have hcrc := blockCrc_lt use xor wcode ratio vlen s b
  obtain ⟨⟨fmagic, fflags, fwcode, fratio⟩, ⟨fvlen, fplen, fcrc, fseq⟩, fmodes, fpay⟩ :=
    codedBlock_reads xor b fill hu hw hr hv hcrc hs hplen
  have htake := List.take_left' (l₂ := fill) (length_codedBlock use xor wcode ratio vlen (blockCrc use xor wcode ratio vlen s b) s b)
  have hself : ¬ (use = 0 ∧ crc32c (codedBlock use xor wcode ratio vlen 0 s b) ≠ blockCrc use xor wcode ratio vlen s b) := by
    rintro ⟨h0, h⟩
    rw [blockCrc, if_pos h0] at h
    exact h rfl
  have hbytes : ¬ (use ≠ 0 ∧ crc32c (b.take vlen) ≠ blockCrc use xor wcode ratio vlen s b) := by
    rintro ⟨h0, h⟩
    rw [blockCrc, if_neg h0] at h
    exact h rfl
  have hshape : ¬ ((0x10 + use * 4 + b2n xor * 2) % 2 = 1 ∨ use = 3 ∨ 3 ≤ wcode ∨ ratio ≠ ratio ∨ vlen = 0 ∨ 4096 < vlen) := by
    rw [hbit0]
    omega
  simp only [decodeSlot, fmagic, fflags, fwcode, fratio, fvlen, fplen, fcrc, fseq, fmodes, fpay, htake, hver, huse, zeros_four,
    patch_codedBlock, nbit_blockFlags, unGranules_blockModes xor b hdvd,
    rebuild_codedPlanes xor hw hb (blockGranules_spec xor b hdvd).2.2]
  rw [if_neg (by decide), if_neg (by decide), if_neg (by decide), if_neg (by decide), if_neg hshape, if_neg hself, if_neg (not_lt.2 hfit),
    if_neg hbytes]
  cases seq with
  | none => rfl
  | some q =>
    have hq : decide (s ≠ q % 2 ^ 32) = false := decide_eq_false (by rw [hseq q rfl, Nat.mod_eq_of_lt hs]; exact not_not_intro rfl)
    simp only [hq, Bool.false_eq_true, if_false]

/-! ### The encoder -/

theorem padTo_of_le {n : Nat} {l : List Byte} (h : l.length ≤ n) : padTo n l = l ++ zeros (n - l.length) := by
  rw [padTo, List.take_of_length_le (by simp [zeros]; omega)]

/-- The encoder, its choice of the XOR flag made (R198, R202, R203). -/
theorem encodeBlock_eq (inp : List Byte) (vlen wcode use ratio xmode seq : Nat) :
    let xor := xorChosen inp vlen wcode xmode
    let b := padTo 4096 (inp.take vlen)
    let blk := codedBlock use xor wcode ratio vlen (blockCrc use xor wcode ratio vlen seq b) seq b
    encodeBlock inp vlen wcode use ratio xmode seq =
      if 4096 / ratio < 40 + plenUnder inp vlen wcode xor then .incompressible
      else if use = 0 ∧ decodeSlot blk ratio none ≠ .bytes (b.take vlen) then .selfcheckFail
      else .slot (padTo (4096 / ratio) blk) (plenUnder inp vlen wcode xor) := by
  intro xor b blk
  have hmodes := ite_xorChosen (fun x => blockModes (2 ^ wcode) x (padTo 4096 (inp.take vlen))) inp vlen wcode xmode
  unfold plenUnder at hmodes
  have hcrc : patch (codedBlock use xor wcode ratio vlen 0 seq b) 8 (leBytes 4 (if use = 0 then crc32c (codedBlock use xor wcode ratio vlen 0 seq b)
      else crc32c (b.take vlen))) = blk := patch_codedBlock ..
  unfold codedBlock at hcrc
  simp only [encodeBlock, hmodes, List.append_assoc]
  rw [← hcrc]
  rfl

/-- Settles O58: the encoder writes the coded block of its input, and a coded block whose CRC is right decodes to its valid bytes, by the
self-check, from the padded slot, and with the SEQ of the block. -/
theorem codecRoundTrip : Obligations.CodecRoundTrip := by
  unfold Obligations.CodecRoundTrip
  intro inp vlen wcode use ratio xmode seq h1 hv hin hw hu hr _ hs
  have hratio : ratio < 256 := by omega
  have hvalid : (padTo 4096 (inp.take vlen)).take vlen = inp.take vlen := by
    rw [padTo, List.take_take, Nat.min_eq_left hv, List.take_append_of_le_length (by rw [List.length_take]; omega), List.take_take,
      Nat.min_self]
  have hlen : (padTo 4096 (inp.take vlen)).length = 4096 := by simp [padTo, zeros]; omega
  have henc := encodeBlock_eq inp vlen wcode use ratio xmode seq
  dsimp only at henc
  by_cases hlong : 4096 / ratio < 40 + plenUnder inp vlen wcode (xorChosen inp vlen wcode xmode)
  · rw [if_pos hlong] at henc
    exact ⟨by rw [henc]; exact nofun, fun slot plen h => nomatch henc.symm.trans h⟩
  · have hfit := not_lt.1 hlong
    have hdec (fill : List Byte) (q : Option Nat) (hq : ∀ n, q = some n → n = seq) :=
      decodeSlot_codedBlock fill q hlen hu hw hratio h1 hv hs hfit hq
    rw [hvalid] at hdec
    have hself := hdec [] none nofun
    rw [List.append_nil] at hself
    rw [if_neg hlong, hvalid, if_neg fun h => h.2 hself] at henc
    refine ⟨by rw [henc]; exact nofun, fun slot plen h => ?_⟩
    obtain ⟨rfl, rfl⟩ := Encoded.slot.inj (henc.symm.trans h)
    rw [padTo_of_le ((length_codedBlock _ _ _ _ _ _ _ _).trans_le hfit)]
    refine ⟨?_, hfit, hdec _ none nofun, hdec _ (some seq) fun _ h => (Option.some.inj h).symm⟩
    rw [List.length_append, zeros, List.length_replicate, length_codedBlock]
    exact Nat.add_sub_cancel' hfit

end Sys2Proof.Machine

/-! PROOFS. A Tally splits: the CRC registers are linear, accumulations combine associatively, and units append (R219-R226). -/

namespace Sys2Proof.Machine

/-! ### The CRC-64 registers (R225) -/

/-- One shift of a register is linear. -/
theorem crc64Step_xor (poly a b : Nat) :
    (if (a ^^^ b) % 2 = 1 then (a ^^^ b) / 2 ^^^ poly else (a ^^^ b) / 2) =
      (if a % 2 = 1 then a / 2 ^^^ poly else a / 2) ^^^ (if b % 2 = 1 then b / 2 ^^^ poly else b / 2) := by
  have hhalf : (a ^^^ b) / 2 = a / 2 ^^^ b / 2 := by
    simpa [Nat.shiftRight_eq_div_pow] using Nat.shiftRight_xor_distrib (a := a) (b := b) (i := 1)
  have hodd : (a ^^^ b) % 2 = (a % 2 + b % 2) % 2 := Nat.xor_mod_two_eq.trans (Nat.add_mod a b 2)
  rw [hhalf]
  rcases Nat.mod_two_eq_zero_or_one a with ha | ha <;> rcases Nat.mod_two_eq_zero_or_one b with hb | hb <;>
    simp [hodd, ha, hb, Nat.xor_comm, Nat.xor_left_comm]

theorem crc64Bits_xor (poly n a b : Nat) : crc64Bits poly n (a ^^^ b) = crc64Bits poly n a ^^^ crc64Bits poly n b := by
  induction n generalizing a b with
  | zero => rfl
  | succ n ih => rw [crc64Bits, crc64Bits, crc64Bits, crc64Step_xor, ih]

theorem crc64Zeros_xor (poly n a b : Nat) : crc64Zeros poly n (a ^^^ b) = crc64Zeros poly n a ^^^ crc64Zeros poly n b := by
  induction n generalizing a b with
  | zero => rfl
  | succ n ih => rw [crc64Zeros, crc64Zeros, crc64Zeros, crc64Bits_xor, ih]

theorem crc64Zeros_add (poly m n c : Nat) : crc64Zeros poly (m + n) c = crc64Zeros poly n (crc64Zeros poly m c) := by
  induction m generalizing c with
  | zero => rw [Nat.zero_add, crc64Zeros]
  | succ m ih => rw [Nat.succ_add, crc64Zeros, ih, crc64Zeros]

theorem crc64Zeros_zero (poly n : Nat) : crc64Zeros poly n 0 = 0 := by
  have h := crc64Zeros_xor poly n 0 0
  rwa [Nat.xor_self, Nat.xor_self] at h

theorem crc64Run_nil (poly c : Nat) : crc64Run poly c [] = c := rfl

/-- The equation of a byte; `delta` keeps the check from unfolding the eight shifts of a symbolic register. -/
theorem crc64Run_cons (poly c : Nat) (b : Byte) (r : List Byte) :
    crc64Run poly c (b :: r) = crc64Run poly (crc64Bits poly 8 (c ^^^ b.toNat)) r := by
  delta crc64Run
  rfl

/-- What stands in a register before bytes is shifted past them. -/
theorem crc64Run_xor (poly c d : Nat) (l : List Byte) :
    crc64Run poly (c ^^^ d) l = crc64Zeros poly l.length c ^^^ crc64Run poly d l := by
  induction l generalizing c d with
  | nil => rw [crc64Run_nil, crc64Run_nil, List.length_nil, crc64Zeros]
  | cons b r ih => rw [crc64Run_cons, crc64Run_cons, Nat.xor_assoc, crc64Bits_xor, ih, List.length_cons, crc64Zeros]

/-- The register of a stream from those of its two parts (R226). -/
theorem crc64Run_append (poly : Nat) (a b : List Byte) :
    crc64Run poly 0 (a ++ b) = crc64Zeros poly b.length (crc64Run poly 0 a) ^^^ crc64Run poly 0 b := by
  have hsplit (c : Nat) : crc64Run poly c (a ++ b) = crc64Run poly (crc64Run poly c a) b := by
    induction a generalizing c with
    | nil => rw [List.nil_append, crc64Run_nil]
    | cons x r ih => rw [List.cons_append, crc64Run_cons, crc64Run_cons, ih]
  rw [hsplit, ← crc64Run_xor, Nat.xor_zero]

/-! ### Extremes (R220) -/

/-- The better of two under an order, the first among equals. -/
def better (lt : Extreme → Extreme → Bool) : Option Extreme → Option Extreme → Option Extreme
  | none, b => b
  | a, none => a
  | some a, some b => if lt b a then some b else some a

/-- Under a strict weak order the better of three does not depend on how they are paired. -/
theorem better_assoc (lt : Extreme → Extreme → Bool) (htrans : ∀ a b c, lt a b = true → lt b c = true → lt a c = true)
    (hneg : ∀ a b c, lt a b = false → lt b c = false → lt a c = false) (a b c : Option Extreme) :
    better lt (better lt a b) c = better lt a (better lt b c) := by
  cases a with
  | none => cases b <;> rfl
  | some a =>
    cases b with
    | none => cases c <;> rfl
    | some b =>
      cases c with
      | none => cases hba : lt b a <;> simp [better, hba]
      | some c =>
        cases hba : lt b a <;> cases hcb : lt c b
        · simp [better, hba, hcb, hneg c b a hcb hba]
        · simp [better, hba, hcb]
        · simp [better, hba, hcb]
        · simp [better, hba, hcb, htrans c b a hcb hba]

/-- The order of the least extreme: by place, then by index. -/
def lessExt (a b : Extreme) : Bool := decide (a.key < b.key ∨ (a.key = b.key ∧ a.index < b.index))

/-- The order of the greatest extreme: by place from above, then by index. -/
def moreExt (a b : Extreme) : Bool := decide (b.key < a.key ∨ (a.key = b.key ∧ a.index < b.index))

theorem minExt_assoc (a b c : Option Extreme) : minExt (minExt a b) c = minExt a (minExt b c) := by
  have hmin : minExt = better lessExt := by
    funext x y
    cases x <;> cases y <;> simp [minExt, better, lessExt]
  rw [hmin]
  exact better_assoc _ (by simp only [lessExt, decide_eq_true_eq]; omega) (by simp only [lessExt, decide_eq_false_iff_not]; omega) a b c

theorem maxExt_assoc (a b c : Option Extreme) : maxExt (maxExt a b) c = maxExt a (maxExt b c) := by
  have hmax : maxExt = better moreExt := by
    funext x y
    cases x <;> cases y <;> simp [maxExt, better, moreExt]
  rw [hmax]
  exact better_assoc _ (by simp only [moreExt, decide_eq_true_eq]; omega) (by simp only [moreExt, decide_eq_false_iff_not]; omega) a b c

/-! ### Accumulations combine (R226) -/

theorem zipWith_add_assoc (a b c : List Nat) :
    List.zipWith (· + ·) (List.zipWith (· + ·) a b) c = List.zipWith (· + ·) a (List.zipWith (· + ·) b c) := by
  induction a generalizing b c with
  | nil => simp
  | cons x a ih => cases b <;> cases c <;> simp [ih, Nat.add_assoc]

theorem mergeAcc_assoc (a b c : TallyAcc) : mergeAcc (mergeAcc a b) c = mergeAcc a (mergeAcc b c) := by
  simp only [mergeAcc, minExt_assoc, maxExt_assoc, zipWith_add_assoc, crc64Zeros_xor, ← crc64Zeros_add, Nat.add_assoc, Int.add_assoc,
    Nat.xor_assoc]

/-- The histogram has its 64 bins (R224). -/
def Binned (a : TallyAcc) : Prop := a.hist.length = 64

theorem zipWith_zeros_add (n : Nat) (h : List Nat) (hn : h.length = n) : List.zipWith (· + ·) (List.replicate n 0) h = h := by
  subst hn
  induction h with
  | nil => rfl
  | cons x r ih => simp [List.replicate_succ, ih]

theorem zipWith_add_zeros (n : Nat) (h : List Nat) (hn : h.length = n) : List.zipWith (· + ·) h (List.replicate n 0) = h := by
  rw [List.zipWith_comm_of_comm (fun x y => Nat.add_comm x y), zipWith_zeros_add n h hn]

theorem mergeAcc_empty_left {a : TallyAcc} (h : Binned a) : mergeAcc {} a = a := by
  simp only [mergeAcc, Nat.zero_add, Int.zero_add, crc64Zeros_zero, Nat.zero_xor, zipWith_zeros_add 64 a.hist h]
  cases a
  rfl

theorem mergeAcc_empty_right {a : TallyAcc} (h : Binned a) : mergeAcc a {} = a := by
  have hmin : minExt a.min none = a.min := by cases a.min <;> rfl
  have hmax : maxExt a.max none = a.max := by cases a.max <;> rfl
  simp only [mergeAcc, Nat.add_zero, Int.add_zero, crc64Zeros, Nat.xor_zero, zipWith_add_zeros 64 a.hist h, hmin, hmax]

theorem binned_empty : Binned {} := List.length_replicate

theorem Binned.merge {a b : TallyAcc} (ha : Binned a) (hb : Binned b) : Binned (mergeAcc a b) := by
  unfold Binned at *
  rw [mergeAcc, List.length_zipWith, ha, hb, Nat.min_self]

theorem binned_elemAcc (f : Nat) (uns : Bool) (index bits scale : Nat) : Binned (elemAcc f uns index bits scale) := by
  unfold elemAcc Binned
  dsimp only
  split <;> simp

theorem binned_codesAcc (f : Nat) (uns : Bool) (scale i : Nat) (cs : List Nat) : Binned (codesAcc f uns scale i cs) := by
  induction cs generalizing i with
  | nil => exact binned_empty
  | cons c r ih => exact (binned_elemAcc ..).merge (ih _)

theorem binned_unitAcc (f : Nat) (uns : Bool) (i : Nat) (u : List Byte) (s : Option Byte) : Binned (unitAcc f uns i u s) :=
  binned_codesAcc ..

/-! ### Units -/

/-- What the scale bytes give to the next unit. -/
def nextScale (f : Nat) (ss : List Byte) : Option Byte := if isMx f then some (ss.headD 0) else none

/-- Whole units add to what came before what they add to nothing. -/
theorem unitsAcc_eq_merge (f : Nat) (uns : Bool) (i : Nat) (us : List (List Byte)) (ss : List Byte) {a : TallyAcc} (ha : Binned a) :
    Binned (unitsAcc f uns i us ss a) ∧ unitsAcc f uns i us ss a = mergeAcc a (unitsAcc f uns i us ss {}) := by
  induction us generalizing i ss a with
  | nil => exact ⟨ha, (mergeAcc_empty_right ha).symm⟩
  | cons u r ih =>
    have hu := binned_unitAcc f uns i u (nextScale f ss)
    obtain ⟨hb, h1⟩ := ih (i + unitElems f) ss.tail (ha.merge hu)
    obtain ⟨-, h2⟩ := ih (i + unitElems f) ss.tail (binned_empty.merge hu)
    refine ⟨hb, h1.trans ?_⟩
    rw [mergeAcc_assoc]
    congr 1
    rw [mergeAcc_empty_left hu] at h2
    exact ((congrArg _ (mergeAcc_empty_left hu)).trans h2).symm

theorem unitsAcc_cons (f : Nat) (uns : Bool) (i : Nat) (u : List Byte) (us : List (List Byte)) (ss : List Byte) :
    unitsAcc f uns i (u :: us) ss {} =
      mergeAcc (unitAcc f uns i u (nextScale f ss)) (unitsAcc f uns (i + unitElems f) us ss.tail {}) := by
  have hu := binned_unitAcc f uns i u (nextScale f ss)
  have h := (unitsAcc_eq_merge f uns (i + unitElems f) us ss.tail hu).2
  rw [← h]
  exact congrArg _ (mergeAcc_empty_left hu)

/-- A format without scale bytes does not look at them. -/
theorem unitsAcc_scales (f : Nat) (uns : Bool) (i : Nat) (us : List (List Byte)) (ss ts : List Byte) (a : TallyAcc)
    (h : isMx f = false) : unitsAcc f uns i us ss a = unitsAcc f uns i us ts a := by
  induction us generalizing i ss ts a with
  | nil => rfl
  | cons u r ih =>
    simp only [unitsAcc, h, Bool.false_eq_true, if_false]
    exact ih _ _ _ _

/-- Units after units, numbered on, with the scale bytes that are left. -/
theorem unitsAcc_append (f : Nat) (uns : Bool) (i : Nat) (us vs : List (List Byte)) (ss ts : List Byte) (hs : ss.length = us.length) :
    unitsAcc f uns i (us ++ vs) (ss ++ ts) {} =
      mergeAcc (unitsAcc f uns i us ss {}) (unitsAcc f uns (i + us.length * unitElems f) vs ts {}) := by
  induction us generalizing i ss with
  | nil =>
    obtain rfl := List.eq_nil_of_length_eq_zero hs
    have hv := (unitsAcc_eq_merge f uns i vs ts binned_empty).1
    rw [List.nil_append, List.nil_append, List.length_nil, Nat.zero_mul, Nat.add_zero, unitsAcc, mergeAcc_empty_left hv]
  | cons u r ih =>
    obtain ⟨b, q, rfl⟩ := List.exists_cons_of_length_eq_add_one hs
    have hi : i + unitElems f + r.length * unitElems f = i + (r.length + 1) * unitElems f := by ring
    rw [List.cons_append, List.cons_append, unitsAcc_cons, unitsAcc_cons, List.tail_cons, List.tail_cons,
      ih _ _ (Nat.succ.inj hs), mergeAcc_assoc, List.length_cons, hi]
    rfl

/-! ### What the counts and the digests of whole units are -/

theorem elementsOf_merge (a b : TallyAcc) : elementsOf (mergeAcc a b) = elementsOf a + elementsOf b := by
  simp only [elementsOf, finiteOf, mergeAcc]
  omega

/-- Every element falls into exactly one class (Table 7.3). -/
theorem elementsOf_elemAcc (f : Nat) (uns : Bool) (index bits scale : Nat) : elementsOf (elemAcc f uns index bits scale) = 1 := by
  unfold elemAcc
  dsimp only
  split <;> rfl

theorem elementsOf_codesAcc (f : Nat) (uns : Bool) (scale i : Nat) (cs : List Nat) : elementsOf (codesAcc f uns scale i cs) = cs.length := by
  induction cs generalizing i with
  | nil => rfl
  | cons c r ih => rw [codesAcc, elementsOf_merge, elementsOf_elemAcc, ih, List.length_cons, Nat.add_comm]

theorem length_unpackBits (k n x : Nat) : (unpackBits k n x).length = n := by
  induction n generalizing x with
  | zero => rfl
  | succ n ih => rw [unpackBits, List.length_cons, ih]

theorem elementsOf_unitAcc (f : Nat) (uns : Bool) (i : Nat) (u : List Byte) (s : Option Byte) :
    elementsOf (unitAcc f uns i u s) = unitElems f :=
  (elementsOf_codesAcc ..).trans (length_unpackBits ..)

theorem elementsOf_unitsAcc (f : Nat) (uns : Bool) (i : Nat) (us : List (List Byte)) (ss : List Byte) :
    elementsOf (unitsAcc f uns i us ss {}) = us.length * unitElems f := by
  induction us generalizing i ss with
  | nil => rw [List.length_nil, Nat.zero_mul]; rfl
  | cons u r ih => rw [unitsAcc_cons, elementsOf_merge, elementsOf_unitAcc, ih, List.length_cons, Nat.succ_mul, Nat.add_comm]

/-- The element lanes hold the CRC of the units' bytes. -/
theorem elemLanes_unitsAcc (f : Nat) (uns : Bool) (i : Nat) (us : List (List Byte)) (ss : List Byte) :
    let x := unitsAcc f uns i us ss {}
    x.elemLen = us.flatten.length ∧ x.elemA = crc64Run polyA 0 us.flatten ∧ x.elemB = crc64Run polyB 0 us.flatten := by
  induction us generalizing i ss with
  | nil => exact ⟨rfl, rfl, rfl⟩
  | cons u r ih =>
    obtain ⟨hlen, hA, hB⟩ := ih (i + unitElems f) ss.tail
    simp only [unitsAcc_cons, mergeAcc, unitAcc, hlen, hA, hB, List.flatten_cons, crc64Run_append, List.length_append, and_self]

/-- The scale lanes hold the CRC of the scale bytes, one for each unit of an MX format. -/
theorem scaleLanes_unitsAcc (f : Nat) (uns : Bool) (i : Nat) (us : List (List Byte)) (ss : List Byte) (h : isMx f = true)
    (hs : ss.length = us.length) :
    let x := unitsAcc f uns i us ss {}
    x.scaleLen = ss.length ∧ x.scaleA = crc64Run polyA 0 ss ∧ x.scaleB = crc64Run polyB 0 ss := by
  induction us generalizing i ss with
  | nil =>
    obtain rfl := List.eq_nil_of_length_eq_zero hs
    exact ⟨rfl, rfl, rfl⟩
  | cons u r ih =>
    obtain ⟨b, q, rfl⟩ := List.exists_cons_of_length_eq_add_one hs
    obtain ⟨hlen, hA, hB⟩ := ih (i + unitElems f) q (Nat.succ.inj hs)
    have hb (poly : Nat) : crc64Run poly 0 (b :: q) = crc64Zeros poly q.length (crc64Run poly 0 [b]) ^^^ crc64Run poly 0 q :=
      crc64Run_append poly [b] q
    have hnext : nextScale f (b :: q) = some b := if_pos h
    simp only [unitsAcc_cons, hnext, mergeAcc, unitAcc, List.tail_cons, hlen, hA, hB, hb, Option.map_some, Option.getD_some,
      List.length_cons, List.length_nil, Nat.add_comm, and_self]

/-! ### Ranges -/

theorem chunks_append {α : Type} {n c : Nat} (d : Nat) {a : List α} (b : List α) (h : a.length = n * c) :
    chunks n (c + d) (a ++ b) = chunks n c a ++ chunks n d b := by
  induction c generalizing a with
  | zero =>
    obtain rfl := List.eq_nil_of_length_eq_zero h
    rw [Nat.zero_add]
    rfl
  | succ c ih =>
    rw [Nat.mul_succ] at h
    rw [Nat.succ_add, chunks, chunks, List.take_append_of_le_length (by omega), List.drop_append_of_le_length (by omega),
      ih (by rw [List.length_drop]; omega), List.cons_append]

/-- A range of whole units cut in two accumulates as its parts do, the second numbered on. -/
theorem bytesAcc_append (f : Nat) (uns : Bool) (i : Nat) {a : List Byte} (b : List Byte) {sa : List Byte} (sb : List Byte)
    (ha : a.length % unitBytes f = 0) (hsa : isMx f = true → sa.length = a.length / unitBytes f) :
    bytesAcc f uns i (a ++ b) (sa ++ sb) =
      mergeAcc (bytesAcc f uns i a sa) (bytesAcc f uns (i + a.length / unitBytes f * unitElems f) b sb) := by
  have hdvd := Nat.dvd_of_mod_eq_zero ha
  have hcount : (a ++ b).length / unitBytes f = a.length / unitBytes f + b.length / unitBytes f := by
    rw [List.length_append, Nat.add_div_of_dvd_right hdvd]
  have hunits := chunks_append (b.length / unitBytes f) b (Nat.mul_div_cancel' hdvd).symm
  have hlen := length_chunks (unitBytes f) (a.length / unitBytes f) a
  have key (ss : List Byte) (h : ss.length = a.length / unitBytes f) := unitsAcc_append f uns i
    (chunks (unitBytes f) (a.length / unitBytes f) a) (chunks (unitBytes f) (b.length / unitBytes f) b) ss sb (h.trans hlen.symm)
  rw [hlen] at key
  rw [bytesAcc, hcount, hunits]
  cases hmx : isMx f with
  | true => exact key sa (hsa hmx)
  | false =>
    rw [unitsAcc_scales f uns i _ _ (zeros (a.length / unitBytes f) ++ sb) _ hmx, key (zeros _) List.length_replicate,
      unitsAcc_scales f uns i _ _ sa _ hmx]
    rfl

/-- Settles O60: units append, accumulations combine associatively, and a CRC is linear in what stood before. -/
theorem tallySplitsExactly : Obligations.TallySplitsExactly := by
  unfold Obligations.TallySplitsExactly
  refine ⟨fun f uns i a b sa sb _ _ ha _ hsa => bytesAcc_append f uns i b sb ha hsa, ?_⟩
  intro f uns i a s _ _ ha hs x
  have hflat := flatten_chunks (Nat.mul_div_cancel' (Nat.dvd_of_mod_eq_zero ha)).symm
  have hlen := length_chunks (unitBytes f) (a.length / unitBytes f) a
  have hlanes := elemLanes_unitsAcc f uns i (chunks (unitBytes f) (a.length / unitBytes f) a) s
  have hcount := elementsOf_unitsAcc f uns i (chunks (unitBytes f) (a.length / unitBytes f) a) s
  rw [hflat] at hlanes
  rw [hlen] at hcount
  obtain ⟨helem, hA, hB⟩ := hlanes
  exact ⟨helem, hA, hB, fun hmx => scaleLanes_unitsAcc f uns i _ s hmx ((hs hmx).trans hlen.symm), hcount⟩

end Sys2Proof.Machine

/-! PROOFS. Records that are held, memories that read back, and what a loss of VDBG keeps. -/

namespace Sys2Proof.Machine

/-! ### Records of a Session (R324, R340, R342) -/

theorem pagedFields_ident (m : Mach) (x : Session) :
    (pagedFields m x).sid = x.sid ∧ (pagedFields m x).port = x.port ∧ (pagedFields m x).slot = x.slot ∧
      (pagedFields m x).handle = x.handle ∧ (pagedFields m x).nextSeq = x.nextSeq := by
  unfold pagedFields
  split <;> simp [descSession]

section
variable {m : Mach} {sid : Nat} {x : Session} {rc : List W32} {event : Bool}

/-- With room and nothing held before it, a record of an open Session takes the next SEQ (R342). -/
theorem postRecord_open (hx : sessOf m sid = some x) (h6 : x.ending ≠ 6) (h7 : x.ending ≠ 7) (ho : x.open_ = true)
    (hh : x.held = []) (hl : x.lost = 0) (hr : sessRoom m (pagedFields m x) rc.length = true) :
    postRecord m sid rc event = deliver (updSess m sid (fun y => { y with nextSeq := (y.nextSeq + 1) % 2 ^ 32 }))
      (pagedFields m x) (withSeq rc x.nextSeq) x.nextSeq event := by
  obtain ⟨kopen, kending, kheld, klost⟩ := pagedFields_kept m x
  obtain ⟨-, -, -, -, kseq⟩ := pagedFields_ident m x
  simp [postRecord, hx, kopen, kending, kheld, klost, kseq, ho, h6, h7, hh, hl, hr]

/-- Behind held or lost records, or without room, a record is held (R340). -/
theorem postRecord_waits (hx : sessOf m sid = some x) (h6 : x.ending ≠ 6) (h7 : x.ending ≠ 7)
    (hw : x.held ≠ [] ∨ x.lost ≠ 0 ∨ sessRoom m (pagedFields m x) rc.length = false) :
    postRecord m sid rc event = holdRecord m (pagedFields m x) rc event := by
  obtain ⟨-, kending, kheld, klost⟩ := pagedFields_kept m x
  rcases hw with h | h | h <;> simp [postRecord, hx, kending, kheld, klost, h6, h7, h]

/-- A completion, or an event before the sixteenth, is kept by the Session once it is paged in. -/
theorem holdRecord_keeps (hs : x.sid = sid) (hk : event = false ∨ x.held.length < 16) :
    holdRecord m (pagedFields m x) rc event = updSess (pageToHold m (pagedFields m x)) sid
      (fun z => if z.ending = 7 then { z with held := [] } else { z with held := z.held ++ [rc] }) := by
  obtain ⟨-, -, kheld, -⟩ := pagedFields_kept m x
  obtain ⟨ksid, -⟩ := pagedFields_ident m x
  have hfull : (event && decide (16 ≤ (pagedFields m x).held.length)) = false := by
    rcases hk with h | h <;> simp [kheld, h]
  simp [holdRecord, hfull, ksid, hs]

theorem holdRecord_drops (hs : x.sid = sid) (he : event = true) (hf : 16 ≤ x.held.length) :
    holdRecord m (pagedFields m x) rc event =
      incIfErr (updSess m sid (fun z => { z with lost := z.lost + 1 })) R.IF_ERR_EVENTS_LOST := by
  obtain ⟨-, -, kheld, -⟩ := pagedFields_kept m x
  obtain ⟨ksid, -⟩ := pagedFields_ident m x
  simp [holdRecord, he, kheld, hf, ksid, hs]

/-- A Session of a port and a resident one need no page-in. -/
theorem pageToHold_resident (h : x.port ≠ .host ∨ x.slot.isSome = true) : pageToHold m (pagedFields m x) = m := by
  obtain ⟨-, kport, kslot, -⟩ := pagedFields_ident m x
  have hc : (x.port != .host || x.slot.isSome) = true := by simpa using h
  simp [pageToHold, kport, kslot, hc]

/-- A page-in that finds its state takes a slot and reads the descriptor (R324). -/
theorem pageToHold_pagedIn (hs : x.sid = sid) (hp : x.port = .host) (hn : x.slot = none) (h7 : x.ending ≠ 7)
    (hk : x.ending ≠ 0 ∨ pageInOk m x.handle = true) :
    pageToHold m (pagedFields m x) = updSess ((takeSlot m sid).getD m) sid
      (fun z => { descSession ((takeSlot m sid).getD m) x.handle z with ending := x.ending }) := by
  obtain ⟨-, kending, -, -⟩ := pagedFields_kept m x
  obtain ⟨ksid, kport, kslot, khandle, -⟩ := pagedFields_ident m x
  have hc : (x.ending != 0 || pageInOk m x.handle) = true := by simpa using hk
  simp [pageToHold, kport, kslot, khandle, kending, ksid, hs, hp, hn, h7, hc]

end

/-- Settles O53: what postRecord and holdRecord do, case by case. -/
theorem recordsHeldNotLost : Obligations.RecordsHeldNotLost := by
  unfold Obligations.RecordsHeldNotLost
  intro m sid x rc event hx hs h6 h7
  rw [← pagedFields_eq]
  refine ⟨?written, ?held, ?lost⟩
  case written =>
    intro ho hh hl hr
    exact postRecord_open hx h6 h7 ho hh hl hr
  case held =>
    intro hw hk
    refine ⟨fun hres => ?_, fun hp hn hin => ?_⟩
    · rw [postRecord_waits hx h6 h7 hw, holdRecord_keeps hs hk, pageToHold_resident hres]
    · dsimp only
      rw [postRecord_waits hx h6 h7 hw, holdRecord_keeps hs hk, pageToHold_pagedIn hs hp hn h7 hin]
  case lost =>
    intro hf he
    have hne : x.held ≠ [] := by
      rintro h
      simp [h] at hf
    rw [postRecord_waits hx h6 h7 (.inl hne), holdRecord_drops hs he hf]

/-! ### Memories -/

theorem memByte_memWrite_off (bs : List Byte) : ∀ (mem : Store Byte) (a x : Nat), x < a ∨ a + bs.length ≤ x →
    memByte (memWrite mem a bs) x = memByte mem x := by
  induction bs with
  | nil => intros; rfl
  | cons b bs ih =>
    intro mem a x h
    simp only [List.length_cons] at h
    rw [memWrite, ih _ _ _ (by omega), memByte_memPut_ne _ _ (by omega)]

theorem memRead_memWrite (bs : List Byte) : ∀ (mem : Store Byte) (a : Nat), memRead (memWrite mem a bs) a bs.length = bs := by
  induction bs with
  | nil => intros; rfl
  | cons b bs ih =>
    intro mem a
    rw [List.length_cons, memWrite, memRead, ih, memByte_memWrite_off _ _ _ _ (by omega), memByte_memPut_same]

theorem bufWrite_buffer {m : Mach} {u : Issuer} {h : W32} {b : Buffer} (off : Nat) (bs : List Byte)
    (hr : scratchRun m u.origin = none) (hp : onPort u = false) (hb : bufferOf m h = some b) :
    bufWrite m u h off bs = { m with hostMem := memWrite m.hostMem (b.addr + off) bs } := by
  simp [bufWrite, hr, hp, hb]

/-! ### A record in its ring (R333, R343) -/

/-- Slots are written within the ring. -/
theorem memByte_ringWrite_off {base slots x : Nat} (hpos : 0 < slots) (hx : x < base ∨ base + 64 * slots ≤ x) :
    ∀ (n i : Nat) (bytes : List Byte) (mem : Store Byte), memByte (ringWrite mem base slots i bytes n) x = memByte mem x := by
  intro n
  induction n with
  | zero => intros; rfl
  | succ n ih =>
    intro i bytes mem
    have hslot : i % slots < slots := Nat.mod_lt _ hpos
    have hlen : (bytes.take 64).length ≤ 64 := by simp
    rw [ringWrite, ih, memByte_memWrite_off _ _ _ _ (by omega)]

/-- An interrupt changes no memory and no register window. -/
theorem signalIrq_memories (m : Mach) (s : Session) :
    (signalIrq m s).hostMem = m.hostMem ∧ (signalIrq m s).hbm = m.hbm ∧ (signalIrq m s).coreMem = m.coreMem ∧
      (signalIrq m s).hregs = m.hregs ∧ (signalIrq m s).sregs = m.sregs := by
  unfold signalIrq
  split
  · simp
  · dsimp only
    repeat' split
    all_goals simp

theorem memByte_ringRecord_off (m : Mach) {s : Session} {a : Nat} (rc : List W32) (hpos : 0 < s.eqSlots)
    (hring : a < s.eqBase ∨ s.eqBase + 64 * s.eqSlots ≤ a) (hprod : a < sessDesc m s.handle + 72 ∨ sessDesc m s.handle + 76 ≤ a) :
    memByte (ringRecord m s rc).hostMem a = memByte m.hostMem a := by
  unfold ringRecord
  dsimp only
  rw [(signalIrq_memories _ s).1, updSess_hostMem, memByte_memWrite_off _ _ _ _ (by rw [length_leBytes]; omega), memByte_ringWrite_off hpos hring]

theorem ringRecord_windows (m : Mach) (s : Session) (rc : List W32) :
    (ringRecord m s rc).hbm = m.hbm ∧ (ringRecord m s rc).coreMem = m.coreMem ∧ (ringRecord m s rc).hregs = m.hregs ∧
      (ringRecord m s rc).sregs = m.sregs :=
  (signalIrq_memories _ s).2

/-- Settles O54. -/
theorem memoryReadsBackAndKeepsRest : Obligations.MemoryReadsBackAndKeepsRest := by
  unfold Obligations.MemoryReadsBackAndKeepsRest
  refine ⟨?bytes, ?buffer, ?record⟩
  case bytes => exact fun mem a bs => ⟨memRead_memWrite bs mem a, memByte_memWrite_off bs mem a, memWrite_wf bs mem a⟩
  case buffer => exact fun m u h off bs b hr hp hb => bufWrite_buffer off bs hr hp hb
  case record => exact fun m x rc hpos => ⟨fun a => memByte_ringRecord_off m rc hpos, ringRecord_windows m x rc⟩

/-! ### What a transition that is cut short leaves (Table 14.3) -/

/-- The machine differs in nothing outside the package: host memory, what has left the block, and whether a transition runs. -/
def outsideKept (m n : Mach) : Prop := n.hostMem = m.hostMem ∧ n.out = m.out ∧ n.lcy.move = m.lcy.move

theorem outsideKept_refl (m : Mach) : outsideKept m m := ⟨rfl, rfl, rfl⟩

theorem outsideKept_trans {a b c : Mach} (h : outsideKept a b) (k : outsideKept b c) : outsideKept a c :=
  ⟨k.1.trans h.1, k.2.1.trans h.2.1, k.2.2.trans h.2.2⟩

theorem outsideKept_foldl {α : Type} (g : Mach → α → Mach) (hg : ∀ m a, outsideKept m (g m a)) (l : List α) :
    ∀ m, outsideKept m (l.foldl g m) := by
  induction l with
  | nil => exact outsideKept_refl
  | cons a l ih => exact fun m => outsideKept_trans (hg m a) (ih _)

theorem outsideKept_countMram (m : Mach) (d r : Nat) : outsideKept m (countMram m d r) := by
  simp [outsideKept, countMram]

theorem outsideKept_dieWipe (m : Mach) (d s : Nat) : outsideKept m (dieWipe m d s) := by
  unfold dieWipe
  split
  · dsimp only
    split <;> simp [outsideKept, countMram, updNote]
  · exact outsideKept_refl m

theorem outsideKept_dieKey (m : Mach) (d s : Nat) : outsideKept m (dieKey m d s) := by
  unfold dieKey
  split <;> simp [outsideKept]

theorem outsideKept_blowDie (m : Mach) (d f : Nat) : outsideKept m (blowDie m d f) := ⟨rfl, rfl, rfl⟩

/-- A die's intent fuse, its key and its wipe. -/
theorem outsideKept_dieWiped (m : Mach) (d s : Nat) :
    outsideKept m (dieWipe (dieKey (blowDie m d (intentFuse s)) d s) d s) :=
  outsideKept_trans (outsideKept_trans (outsideKept_blowDie m d _) (outsideKept_dieKey _ d s)) (outsideKept_dieWipe _ d s)

theorem outsideKept_diePhase (m : Mach) (d s : Nat) : outsideKept m (diePhase m d s) :=
  outsideKept_trans (outsideKept_dieWiped m d s) (outsideKept_blowDie _ d _)

theorem outsideKept_cutDie (m : Mach) (d s : Nat) : outsideKept m (cutDie m d s) := by
  have hdraw : outsideKept m (draw m).2 := ⟨rfl, rfl, rfl⟩
  unfold cutDie
  dsimp only
  refine outsideKept_trans hdraw ?_
  split
  · exact ⟨rfl, rfl, rfl⟩
  · exact outsideKept_blowDie _ d _
  · exact outsideKept_dieWiped _ d s
  · exact outsideKept_dieWiped _ d s
  · exact outsideKept_diePhase _ d s

theorem outsideKept_cutPkg (m : Mach) (f : Nat) : outsideKept m (cutPkg m f) := ⟨rfl, rfl, rfl⟩

theorem outsideKept_lcProgram (m : Mach) (target : Nat) (x : List Byte) : outsideKept m (lcProgram m target x) := by
  unfold lcProgram
  repeat' split
  all_goals simp [outsideKept]

theorem outsideKept_packageWipe (m : Mach) : outsideKept m (packageWipe m) := ⟨rfl, rfl, rfl⟩

/-- A loss of power that cuts a transition short ends it, and reaches nothing outside the package. -/
theorem cutShort_loss (m : Mach) :
    (cutShort m false).hostMem = m.hostMem ∧ (cutShort m false).out = m.out ∧ (cutShort m false).lcy.move = none := by
  unfold cutShort
  split
  next h => exact ⟨rfl, rfl, h⟩
  next x _ =>
    have ended (n : Mach) (h : outsideKept { m with lcy := { m.lcy with move := none } } n) :
        n.hostMem = m.hostMem ∧ n.out = m.out ∧ n.lcy.move = none := h
    apply ended
    dsimp only
    rw [if_neg Bool.false_ne_true]
    split
    · split
      · exact outsideKept_trans (outsideKept_cutPkg _ _) (outsideKept_lcProgram _ _ _)
      · exact outsideKept_cutPkg _ _
    · exact outsideKept_foldl _ (fun n d => outsideKept_cutDie n d x.target) _ _
    · split
      · exact outsideKept_trans ⟨rfl, rfl, rfl⟩ (outsideKept_packageWipe _)
      · exact ⟨rfl, rfl, rfl⟩
    · exact outsideKept_cutPkg _ _

theorem cutShort_idle {m : Mach} (h : m.lcy.move = none) (dbg : Bool) : cutShort m dbg = m := by
  simp [cutShort, h]

/-- Settles O55. -/
theorem resetKeepsAndClears : Obligations.ResetKeepsAndClears := by
  unfold Obligations.ResetKeepsAndClears
  intro s
  obtain ⟨hmem, hout, hmove⟩ := cutShort_loss s.m
  refine ⟨_, rfl, hmem, hout, hmove, ?kept, ?registers, ?serving, ?seen, rfl, rfl, rfl, rfl, rfl, rfl, rfl, rfl⟩
  case kept =>
    intro hidle
    have hserial : hget (setHf (resetMach s.m false) R.HUB_STATUS_SERVING 0) 0x28 = hget s.m 0x28 := by
      rw [hget_setHf_ne _ _ (by decide), resetMach, cutShort_idle hidle,
        hget_setHf_ne _ _ (by decide), hget_hput_same]
    refine ⟨?_, ?_, ?_, ?_, ?_, hserial⟩ <;> simp [resetMach, cutShort_idle hidle]
  case registers =>
    intro off h18 h28
    rw [hget_setHf_ne _ _ h18, resetMach, hget_setHf_ne _ _ h18, hget_hput_ne _ _ h28]
    rfl
  case serving => exact (hf_setHf_same _ _ _ _ (by decide)).trans rfl
  case seen =>
    rw [hf_setHf_ne (f := R.HUB_STATUS_SERVING) (g := R.HUB_STATUS_DBG_RESET_SEEN) _ _ rfl (by decide) (by decide), resetMach]
    exact (hf_setHf_same _ _ _ _ (by decide)).trans rfl

end Sys2Proof.Machine

/-! PROOFS. What one clock counts (R71, R85). -/

namespace Sys2Proof.Machine

theorem stn_updStn_same (m : Mach) (d : Nat) (g : Station → Station) : stn (updStn m d g) d = g (stn m d) :=
  Store.get_put_same _ _ _ _

theorem stn_updStn_ne (m : Mach) {d d' : Nat} (g : Station → Station) (h : d' ≠ d) : stn (updStn m d g) d' = stn m d' :=
  Store.get_put_ne _ _ _ _ h

/-- A change made to each Station of a list leaves the others. -/
theorem stn_eachStn_off (g : Station → Station) {d : Nat} (l : List Nat) :
    ∀ m : Mach, d ∉ l → stn (l.foldl (fun m d => updStn m d g) m) d = stn m d := by
  induction l with
  | nil => intros; rfl
  | cons a l ih =>
    intro m h
    simp only [List.mem_cons, not_or] at h
    rw [List.foldl_cons, ih _ h.2, stn_updStn_ne _ _ h.1]

/-- A change made once to each Station of a list is made to every Station in it. -/
theorem stn_eachStn_on (g : Station → Station) {d : Nat} (l : List Nat) :
    ∀ m : Mach, l.Nodup → d ∈ l → stn (l.foldl (fun m d => updStn m d g) m) d = g (stn m d) := by
  induction l with
  | nil => intro m _ h; simp at h
  | cons a l ih =>
    intro m hn h
    obtain ⟨ha, hl⟩ := List.nodup_cons.1 hn
    rw [List.foldl_cons]
    by_cases hd : d = a
    · subst hd
      rw [stn_eachStn_off g l _ ha, stn_updStn_same]
    · rw [ih _ hl ((List.mem_cons.1 h).resolve_left hd), stn_updStn_ne _ _ hd]

/-- The machines differ in no memory, Station or Tap register, command, engine, core, Session or output. -/
def countedKept (m n : Mach) : Prop :=
  n.hostMem = m.hostMem ∧ n.hbm = m.hbm ∧ n.coreMem = m.coreMem ∧ n.sregs = m.sregs ∧ n.cmds = m.cmds ∧
  n.engs = m.engs ∧ n.cores = m.cores ∧ n.host = m.host ∧ n.out = m.out

theorem countedKept_trans {a b c : Mach} (h : countedKept a b) (k : countedKept b c) : countedKept a c := by
  obtain ⟨h1, h2, h3, h4, h5, h6, h7, h8, h9⟩ := h
  obtain ⟨k1, k2, k3, k4, k5, k6, k7, k8, k9⟩ := k
  exact ⟨k1.trans h1, k2.trans h2, k3.trans h3, k4.trans h4, k5.trans h5, k6.trans h6, k7.trans h7, k8.trans h8, k9.trans h9⟩

/-- A change made to Stations leaves the rest of the machine, its time included. -/
theorem eachStn_keeps (g : Station → Station) (l : List Nat) :
    ∀ m : Mach, (l.foldl (fun m d => updStn m d g) m).time = m.time ∧ countedKept m (l.foldl (fun m d => updStn m d g) m) := by
  induction l with
  | nil => exact fun m => ⟨rfl, rfl, rfl, rfl, rfl, rfl, rfl, rfl, rfl, rfl⟩
  | cons a l ih => exact fun m => ih (updStn m a g)

/-- The GTC takes its slew step, and holdover alone counts besides (R71, R79). -/
theorem gtcClock_time (m : Mach) :
    (gtcClock m).time.ns = m.time.ns ∧
      (gtcClock m).time.gtc = m.time.gtc + BitVec.ofNat 64 (slewStep m.time.slew m.time.slewClk).1 ∧
      (gtcClock m).time.slew = (slewStep m.time.slew m.time.slewClk).2.1 ∧
      (gtcClock m).time.slewClk = (slewStep m.time.slew m.time.slewClk).2.2 := by
  unfold gtcClock
  dsimp only
  split <;> simp

theorem gtcClock_keeps (m : Mach) : (gtcClock m).stns = m.stns ∧ countedKept m (gtcClock m) := by
  unfold gtcClock countedKept
  dsimp only
  split <;> simp

theorem counterTick_keeps (m : Mach) : countedKept m (counterTick m) := by
  obtain ⟨-, hs⟩ := eachStn_keeps replicaClock (List.range 100) (gtcClock { m with time := { m.time with ns := m.time.ns + 4 } })
  obtain ⟨-, hg⟩ := gtcClock_keeps { m with time := { m.time with ns := m.time.ns + 4 } }
  exact countedKept_trans hg hs

theorem counterTick_stn (m : Mach) {d : Nat} (hd : d < 100) : stn (counterTick m) d = replicaClock (stn m d) := by
  obtain ⟨hst, -⟩ := gtcClock_keeps { m with time := { m.time with ns := m.time.ns + 4 } }
  rw [counterTick, stn_eachStn_on _ _ _ List.nodup_range (List.mem_range.2 hd), stn, hst]
  rfl

theorem counterTick_time (m : Mach) :
    (counterTick m).time.ns = m.time.ns + 4 ∧
      (counterTick m).time.gtc = m.time.gtc + BitVec.ofNat 64 (slewStep m.time.slew m.time.slewClk).1 ∧
      (counterTick m).time.slew = (slewStep m.time.slew m.time.slewClk).2.1 ∧
      (counterTick m).time.slewClk = (slewStep m.time.slew m.time.slewClk).2.2 := by
  rw [counterTick, (eachStn_keeps _ _ _).1]
  exact gtcClock_time _

/-- Settles O2: the clock's counters first, with the cases of a slew step. -/
theorem idleAdvancesTime : Obligations.IdleAdvancesTime := by
  unfold Obligations.IdleAdvancesTime
  intro s hs n
  obtain ⟨hns, hgtc, hslew, hclk⟩ := counterTick_time s.m
  refine ⟨?step, hns, ?slew, fun d hd => counterTick_stn s.m hd, counterTick_keeps s.m⟩
  case step => simp only [step, hs, idle, clockTick, n]
  case slew =>
    rw [hgtc, hslew, hclk, slewStep]
    split
    · exact ⟨rfl, rfl, rfl⟩
    · split <;> exact ⟨rfl, rfl, rfl⟩

end Sys2Proof.Machine

/-! PROOFS. The rows of the hub instances, of faults and of wear. -/

namespace Sys2Proof.Machine

/-- Settles O47: the rows act while a standby is ready, and else leave the machine. -/
theorem hubRowsComplete : Obligations.HubRowsComplete := by
  unfold Obligations.HubRowsComplete
  refine ⟨fun g s => rfl, ?lost, fun s => ⟨rfl, rfl⟩, ?ready, ?alone⟩
  case lost =>
    intro s hr
    simp only [Done, exec, execPeerLost, hr, if_true]
  case ready =>
    intro s hr
    constructor
    · simp only [Done, exec, execIsolate, hr, if_true]
    · simp only [Done, exec, execHubHeartbeatLoss, hr, if_true]
  case alone =>
    intro s hr
    refine ⟨?_, ?_, ?_⟩
    · simp [Inert, exec, execPeerLost, hr]
    · simp [Inert, exec, execIsolate, hr]
    · simp [Inert, exec, execHubHeartbeatLoss, hr]

/-! ### Faults -/

/-- An error in an array of the serving hub is counted, or has its outcome. -/
theorem execSecdedError_hub {x : Ecc} (s : State) (h : hubArray x.array = true) :
    execSecdedError x s = .next { s with m := if x.uncorrectable then fenceAll (eccUncorrected s.m x) else eccCorrected s.m none 1 } := by
  unfold execSecdedError
  cases ha : x.array <;> simp [hubArray, ha] at h ⊢

/-- An error in an array of a Station that answers is counted there, or has its outcome. -/
theorem execSecdedError_die {x : Ecc} {s : State}
    (h : x.array = .tapRegister ∧ tapOk x.die x.place = true ∨ x.array = .cutBuffer ∧ portOk x.die x.place = true ∨
      hubArray x.array = false ∧ x.array ≠ .tapRegister ∧ x.array ≠ .cutBuffer ∧ x.die < 100) (hu : stnUp s.m x.die = true) :
    execSecdedError x s =
      .next { s with m := if x.uncorrectable then fenceAll (eccUncorrected s.m x) else eccCorrected s.m (some x.die) 1 } := by
  unfold execSecdedError
  rcases h with ⟨ha, hd⟩ | ⟨ha, hd⟩ | ⟨hn, ht, hc, hd⟩
  · simp [ha, hd, hu, hubArray]
  · simp [ha, hd, hu, hubArray]
  · cases ha : x.array <;> simp [ha, hubArray] at hn ht hc ⊢ <;> simp [hd, hu]

/-- Settles O48. -/
theorem faultRowsComplete : Obligations.FaultRowsComplete := by
  unfold Obligations.FaultRowsComplete
  refine ⟨?station, ?tap, ?poll, fun x s => execSecdedError_hub s, fun x s => execSecdedError_die, fun n s => rfl, ?scrub, ?health⟩
  case station =>
    intro die s hd hu
    simp [Done, exec, execStationFault, not_le.2 hd, hu]
  case tap =>
    intro die tap s ht hu
    simp [Done, exec, execTapFault, ht, hu]
  case poll =>
    intro die dead s hd hu
    simp [Done, exec, execTapAlivePoll, not_le.2 hd, hu]
  case scrub =>
    intro d n s hd hu
    simp [Done, exec, execScrub, not_le.2 hd, hu]
  case health =>
    intro unit s hd
    refine ⟨fun hu => ⟨?_, ?_⟩, ?_, ?_⟩
    all_goals simp [Done, exec, execHealthFault, not_le.2 hd, *]

/-- Settles O49. -/
theorem wearRowsComplete : Obligations.WearRowsComplete := by
  unfold Obligations.WearRowsComplete
  refine ⟨?sample, ?fit, ?lapse, ?early⟩
  case sample =>
    intro die x s hd hu
    simp [Done, exec, execWearSample, not_le.2 hd, hu]
  case fit =>
    intro die x s hd
    simp [Done, exec, execWearFit, not_le.2 hd]
  case lapse =>
    intro s hv
    simp only [Done, exec, execCredentialExpiry, hv, if_true]
  case early =>
    intro s hv
    simp only [Inert, exec, execCredentialExpiry, hv, if_false]

end Sys2Proof.Machine

/-! PROOFS. The rows of the scan port and of the sideband. -/

namespace Sys2Proof.Machine

/-! ### The scan port (R350 to R372) -/

theorem scanRow_good {hello : Bool} {b : List Byte} {e : ScanEnd} {s : State} (f : Mach → Mach) (h : scanGood s.m hello b e = true) :
    scanRow hello b e s f = .next { s with m := f s.m } := by
  simp only [scanGood, Bool.and_eq_true, decide_eq_true_eq, bne_iff_ne, ne_eq, Bool.or_eq_true] at h
  obtain ⟨⟨⟨hopen, hlen⟩, hcrc⟩, hprobe⟩ := h
  rcases hprobe with hp | hp <;> simp [scanRow, hopen, not_lt.2 hlen, hcrc, hp]

/-- A frame that is too long, of a bad CRC, or before any probe attached is refused whatever its type (R358). -/
theorem scanRow_refused {b : List Byte} {s : State} (e : ScanEnd) (f : Mach → Mach) (h : streamOpen s.m = true) :
    (16376 < b.length → scanRow false b e s f = .next { s with m := scanNak (countRxErr s.m) 4 (expectedFseq s.m) }) ∧
    (b.length ≤ 16376 → e = .crcBad → scanRow false b e s f = .next { s with m := scanNak (countRxErr s.m) 1 (expectedFseq s.m) }) ∧
    (b.length ≤ 16376 → e = .good → s.m.scan.attached = false →
      scanRow false b e s f = .next { s with m := scanNak s.m 7 (expectedFseq s.m) }) := by
  refine ⟨fun hl => ?_, fun hl he => ?_, fun hl he ha => ?_⟩
  · simp [scanRow, h, hl]
  · simp [scanRow, h, not_lt.2 hl, he]
  · simp [scanRow, h, not_lt.2 hl, he, ha]

/-- Settles O41: the three frames are one row of the scan stream. -/
theorem scanFramesRefused : Obligations.ScanFramesRefused := by
  unfold Obligations.ScanFramesRefused
  intro n b e s hopen i hi
  simp only [List.mem_cons, List.not_mem_nil, or_false] at hi
  rcases hi with rfl | rfl | rfl
  all_goals
    dsimp only [Done, exec, execScanCmd, execScanResend, execScanBye]
    exact scanRow_refused e _ hopen

/-- Settles O40: a frame that the hub takes acts as its type says. -/
theorem scanRowsComplete : Obligations.ScanRowsComplete := by
  unfold Obligations.ScanRowsComplete
  refine ⟨?load, fun s => rfl, fun s => rfl, ?hello, ?again, ?order, ?next, ?resend, ?unkept, ?bye, ?silence, ?failover, ?header⟩
  case load =>
    intro ir s h
    simp [Done, exec, execInstructionLoad, Nat.mod_eq_of_lt h]
  case hello =>
    intro n b s h
    simp only [Done, exec, execScanHello, scanRow_good _ h]
  case again =>
    intro b s h
    simp [Done, exec, execScanCmd, scanRow_good _ h]
  case order =>
    intro n b s h hlast hnext
    simp [Done, exec, execScanCmd, scanRow_good _ h, hlast, hnext]
  case next =>
    intro b s h hlast
    refine ⟨fun hfw => ?_, fun hfw hfull => ?_, fun hfw hroom => ?_⟩
    · simp [Done, exec, execScanCmd, scanRow_good _ h, hlast, hfw]
    · simp [Done, exec, execScanCmd, scanRow_good _ h, hlast, hfw, hfull]
    · simp [Done, exec, execScanCmd, scanRow_good _ h, hlast, hfw, not_lt.2 hroom]
  case resend =>
    intro n q ws b s h hk
    simp [Done, exec, execScanResend, scanRow_good _ h, hk]
  case unkept =>
    intro n b s h hk
    have hnone : s.m.scan.kept.find? (fun k => k.1 == n) = none := by simpa using hk
    simp [Done, exec, execScanResend, scanRow_good _ h, hnone]
  case bye =>
    intro n b s h
    simp only [Done, exec, execScanBye, scanRow_good _ h]
  case silence =>
    intro s ha hms hdue
    simp [Done, exec, execKeepaliveExpiry, ha, hms, hdue]
  case failover =>
    intro s t hd ht
    simp [Done, exec, execFailoverHelloTimeout, hd, ht]
  case header =>
    intro b s hopen hbad
    have hknown : ([1, 4, 5, 6].contains (bytesAt b 2 1) && decide (bytesAt b 6 2 ≤ 16376)) = false := by
      rcases hbad with h | h
      · rw [h, Bool.false_and]
      · rw [decide_eq_false (not_le.2 h), Bool.and_false]
    dsimp only [Done, exec, execBadHeaderFrame]
    rw [hopen, hknown]
    rfl

/-! ### I3C (R373, R374) -/

theorem i3cRead_addressed {s : State} (f : Mach → List Byte) (ha : s.m.side.addr.isSome = true) (hi : s.m.peer.isolated = false) :
    i3cRead s f = .next { s with m := emit s.m (.i3c (f s.m)) } := by
  simp [i3cRead, ha, hi]

/-- Settles O42. -/
theorem i3cRowsComplete : Obligations.I3cRowsComplete := by
  unfold Obligations.I3cRowsComplete
  refine ⟨?entdaa, fun s => rfl, fun e s => rfl, ?disec, ?reads, ?set, ?short⟩
  case entdaa =>
    intro a s hs ha
    simp [Done, exec, execEntdaa, hs, Nat.mod_eq_of_lt ha]
  case disec =>
    intro e s
    refine ⟨_, rfl, rfl, fun k => ?_, rfl⟩
    simp only [nbit_eq_testBit, testBit_sub_land]
  case reads =>
    intro s ha hi
    have read (f : Mach → List Byte) := i3cRead_addressed f ha hi
    refine ⟨?_, ?_, ?_, ?_, ?_, ?_⟩
    · simp only [Done, exec, execGetpid, read]
    · simp only [Done, exec, execGetbcr, read]
    · simp only [Done, exec, execGetdcr, read]
    · simp only [Done, exec, execGetmwl, read]
    · simp only [Done, exec, execGetmrl, read]
    · simp [Done, exec, execGetstatus, ha, hi]
  case set =>
    intro n s hlo hhi
    constructor
    · simp [Done, exec, execSetmwl, not_lt.2 hlo, Nat.mod_eq_of_lt hhi]
    · simp [Done, exec, execSetmrl, not_lt.2 hlo, Nat.mod_eq_of_lt hhi]
  case short =>
    intro n s hn
    constructor
    · simp [Inert, exec, execSetmwl, hn]
    · simp [Inert, exec, execSetmrl, hn]

/-! ### MCTP (R375 to R378) -/

/-- Settles O43: what the endpoint takes is answered as its control message says. -/
theorem mctpRowsComplete : Obligations.MctpRowsComplete := by
  unfold Obligations.MctpRowsComplete
  intro h s ht
  have takes (f : Mach → Mach) : mctpRow h s f = .next { s with m := f s.m } := mctpRow_takes ht
  refine ⟨?set, ?length, ?reserved, ?version, ?selector, ?endpoint, ?base, ?types, ?vendor, ?unsupported, ?command⟩
  case set =>
    intro op eid hop hlo hhi
    have hb : bytesAt [BitVec.ofNat 8 op, BitVec.ofNat 8 eid] 0 1 = op := by simp [bytesAt, leNat]; omega
    have he : bytesAt [BitVec.ofNat 8 op, BitVec.ofNat 8 eid] 1 1 = eid := by simp [bytesAt, leNat]; omega
    have hf : nfld op 0 2 = op := by simp [nfld]; omega
    dsimp only [Done, exec, execSetEndpointId]
    rw [takes]
    rw [hb, he, hf]
    simp [show ¬ 1 < op by omega, show eid ≠ 0 by omega, show eid ≠ 255 by omega]
  case length =>
    intro data hl
    simp [Done, exec, execSetEndpointId, takes, hl]
  case reserved =>
    intro a b hbad
    have he : bytesAt [a, b] 1 1 = b.toNat := by simp [bytesAt, leNat]
    dsimp only [Done, exec, execSetEndpointId]
    rw [takes]
    rw [he]
    rcases hbad with hop | rfl | rfl <;> simp [*]
  case version =>
    intro ty h0 h255
    simp [Done, exec, execGetMctpVersionSupport, takes, h0, h255]
  case selector =>
    intro n hn
    simp [Done, exec, execGetVendorDefinedMessageSupport, takes, hn]
  case endpoint => simp only [Done, exec, execGetEndpointId, takes]
  case types => simp only [Done, exec, execGetMessageTypeSupport, takes]
  case vendor => simp only [Done, exec, execGetVendorDefinedMessageSupport, takes, if_true]
  case unsupported =>
    intro code
    simp only [Done, exec, execErrorUnsupportedCmd, takes]
  case base =>
    intro ty hty
    simp [Done, exec, execGetMctpVersionSupport, takes, hty.symm]
  case command =>
    intro data hid hkind hfw
    simp [Done, exec, execMctpCommand, takes, hid, hkind, hfw]

end Sys2Proof.Machine

/-! PROOFS. The rows of starts, of recovery and of control tokens. -/

namespace Sys2Proof.Machine

/-- Settles O44. -/
theorem startRowsComplete : Obligations.StartRowsComplete := by
  unfold Obligations.StartRowsComplete
  refine ⟨?power, ?dbg, ?warm, ?done, fun s => rfl, ?holdup⟩
  case power =>
    intro e s
    simp only [Done, exec, execPowerOnReset]
  case dbg =>
    intro e s
    simp only [Done, exec, execDbgReset]
  case warm =>
    intro e s hserve hid henv
    simp [Done, exec, execWarmStart, hserve, hid, henv]
  case done =>
    intro e s x hx hrung hwait
    dsimp -zeta only [Done, exec, execWarmDone]
    rw [hx]
    dsimp -zeta only
    generalize zeroCtx s.m = n
    exact if_pos ⟨hrung, by simp [hwait]⟩
  case holdup =>
    intro s
    by_cases h : hf s.m R.LCY_STATE_IN_TRANSITION = 1
    · refine ⟨setHf { s.m with pins := { s.m.pins with holdupOk := false } } R.LCY_STATE_HOLDUP_DROP 1, ?_, rfl, fun _ => ?_, ?_⟩
      · dsimp only [Done, exec, execHoldupDrop]
        rw [if_pos (by exact h)]
      · exact (hf_setHf_same _ _ _ _ (by decide)).trans rfl
      · intro h0
        rw [h] at h0
        exact absurd h0 (by decide)
    · refine ⟨{ s.m with pins := { s.m.pins with holdupOk := false } }, ?_, rfl, fun h1 => absurd h1 h, fun _ => rfl⟩
      dsimp only [Done, exec, execHoldupDrop]
      rw [if_neg (by exact h)]

/-! ### Recovery (R420 to R434) -/

/-- Settles O45. -/
theorem recoveryRowsComplete : Obligations.RecoveryRowsComplete := by
  unfold Obligations.RecoveryRowsComplete
  refine ⟨?drain, ?late, ?rung, ?bound, ?within, ?runs, ?expired, ?epoch, ?power⟩
  case drain =>
    intro part s x hx hrung hwait hdrained hts hbound
    simp [Done, exec, execDrainEnd, hx, hrung, hwait, hdrained, hts, not_le.2 hbound]
  case late =>
    intro part s x hx hrung hwait hdrained hbound
    have hts : x.ts ≤ gtcNow s.m := by omega
    simp only [Done, exec, execDrainEnd, hx, hrung, hwait, hdrained, hts, hbound, Bool.not_false, and_self, decide_true, if_true]
  case rung =>
    intro part s x hx hwait hwhich
    simp only [Done, exec, execRungEnd, hx, hwait, Bool.not_false, true_and]
    rw [if_pos hwhich]
  case bound =>
    intro part s x hx hwait hlo hhi hdue
    simp [Done, exec, execRungBound, hx, hwait, hlo, hhi, hdue]
  case within =>
    intro part s x hx hearly
    simp [Inert, exec, execRungBound, hx, not_le.2 hearly]
  case runs =>
    intro die entry s hd he hrun
    dsimp only [Inert, exec, execWatchdogExpired]
    rw [if_neg (by omega), if_neg]
    rintro ⟨hperiod, hexp, hsince, hleft⟩
    rcases hrun with h | h | h | h
    · exact hperiod h
    · simp [h] at hexp
    · simp [h] at hsince
    · exact h hleft
  case expired =>
    intro die entry s hd he hperiod hexp hsince hleft
    dsimp only [Done, exec, execWatchdogExpired]
    rw [if_neg (by omega), if_pos ⟨hperiod, by simp [hexp], hsince, hleft⟩]
  case epoch =>
    intro die recv part epoch s hd hr hp hu hb cur d
    refine ⟨fun hlo hhi => ?_, fun hcur => ?_⟩
    · dsimp only [Done, exec, execEpochArrivalDrop]
      rw [if_neg (by omega), if_pos ⟨hu, hb, hlo, hhi⟩]
    · dsimp only [Inert, exec, execEpochArrivalDrop]
      rw [if_neg (by omega), if_neg]
      rintro ⟨-, -, hlo, hhi⟩
      rcases hcur with h | h
      · exact absurd hlo (by omega)
      · exact absurd hhi (by omega)
  case power =>
    intro s t hdue ht
    simp [Done, exec, execPwrCycleAssert, hdue, ht]

/-! ### Control tokens (R436 to R443) -/

section
variable {die port ty : Nat} {b : List Byte} {s : State} {t : Token} {g : Mach → Token → Mach}

/-- The port lies on the fabric. -/
theorem tokenRow_port (hd : die < 100) (hp : port < portsOf die) (hf : farEnd die port = none) :
    ¬ (100 ≤ die ∨ portsOf die ≤ port ∨ (farEnd die port).isSome = true) := by
  simp only [hf, Option.isSome_none, Bool.false_eq_true, or_false]
  omega

theorem tokenRow_damaged (hd : die < 100) (hp : port < portsOf die) (hf : farEnd die port = none) (hs : hubStopped s.m = false)
    (hb : tokenOf b = none) : tokenRow die port b ty s g = .next { s with m := incHf s.m R.RCV_JOB_BAD } := by
  unfold tokenRow
  rw [if_neg (tokenRow_port hd hp hf), if_neg (by simp [hs]), hb]

theorem tokenRow_seen (hd : die < 100) (hp : port < portsOf die) (hf : farEnd die port = none) (hb : tokenOf b = some t)
    (hseen : s.m.rcv.seen.contains (t.origin, t.seq) = true) : tokenRow die port b ty s g = .next s := by
  unfold tokenRow
  rw [if_neg (tokenRow_port hd hp hf), hb]
  simp only [hseen, Bool.or_true, if_true, ite_self]

theorem tokenRow_arrives (h : tokenArrives s.m die port b ty t) :
    tokenRow die port b ty s g = .next { s with m := g (tokenTaken s.m t) t } := by
  obtain ⟨hd, hp, hf, hs, hb, ht, hn⟩ := h
  exact tokenRow_new hd hp hf hs hb ht hn

end

/-- Settles O46: a token meets its row's checks, and acts by its type. -/
theorem tokenRowsComplete : Obligations.TokenRowsComplete := by
  unfold Obligations.TokenRowsComplete
  refine ⟨?damaged, ?seen, ?abort, ?command, ?result, ?noPacket, ?back⟩
  case damaged =>
    intro die port b s hd hp hf hs hb i hi
    simp only [List.mem_cons, List.not_mem_nil, or_false] at hi
    rcases hi with rfl | rfl | rfl
    all_goals
      dsimp only [Done, exec, execAbortToken, execJobCmdToken, execResultToken]
      exact tokenRow_damaged hd hp hf hs hb
  case seen =>
    intro die port b s t hd hp hf hb hseen i hi
    simp only [List.mem_cons, List.not_mem_nil, or_false] at hi
    rcases hi with rfl | rfl | rfl
    all_goals
      dsimp only [Inert, exec, execAbortToken, execJobCmdToken, execResultToken]
      exact tokenRow_seen hd hp hf hb hseen
  case abort =>
    intro die port b s t h
    dsimp only [Done, exec, execAbortToken]
    rw [tokenRow_arrives h]
  case command =>
    intro die port op p b s t h hpkt
    dsimp only [Done, exec, execJobCmdToken]
    rw [tokenRow_arrives h]
    simp only [hpkt]
  case result =>
    intro die port sid b s t j tt ck h m rc hsent
    dsimp only [Done, exec, execResultToken]
    rw [tokenRow_arrives h, hsent]
  case noPacket =>
    intro die port b s t h hpkt
    dsimp only [Done, exec, execJobCmdToken]
    rw [tokenRow_arrives h]
    simp only [hpkt]
  case back =>
    intro die port b s t h m ck hsent
    refine ⟨fun j tt k d q harr => ?_, fun harr => ?_⟩
    all_goals
      dsimp only [Done, exec, execResultToken]
      rw [tokenRow_arrives h, hsent, harr]

end Sys2Proof.Machine

/-! PROOFS. The rows of time and of frames at Stations. -/

namespace Sys2Proof.Machine

/-! ### Time (R71 to R88) -/

/-- A reference that was there is lost (R78). -/
theorem loseReference_present {m : Mach} {f : Fld} (h : hf m f = 1) :
    loseReference m f = enterHoldover
      { setHf (setHf m f 0) R.GTC_STATUS_LOCKED 0 with
        time := { (setHf (setHf m f 0) R.GTC_STATUS_LOCKED 0).time with ppsGood := 0 } } := by
  rw [loseReference, if_neg (by simp [h])]

theorem loseReference_absent {m : Mach} {f : Fld} (h : hf m f = 0) : loseReference m f = m := by
  rw [loseReference, if_pos h]

theorem enterHoldover_running {m : Mach} (h : hf m R.GTC_STATUS_HOLDOVER = 1) : enterHoldover m = m := by
  rw [enterHoldover, if_pos (.inl h)]

/-- Without the PPS, holdover begins where none runs (R79). -/
theorem enterHoldover_begins {m : Mach} (h : hf m R.GTC_STATUS_HOLDOVER = 0) (hp : hf m R.GTC_STATUS_PPS_OK = 0) :
    enterHoldover m = promiseSync (gtcEvent
      { setHf (setHf m R.GTC_STATUS_HOLDOVER 1) R.GTC_STATUS_HOLD_MS 0 with
        time := { (setHf (setHf m R.GTC_STATUS_HOLDOVER 1) R.GTC_STATUS_HOLD_MS 0).time with holdTicks := 0 } }
      EvCode.gtcHoldover) := by
  rw [enterHoldover, if_neg (by simp [h, hp])]

/-- Settles O22. -/
theorem timeRowsComplete : Obligations.TimeRowsComplete := by
  unfold Obligations.TimeRowsComplete
  refine ⟨fun s => rfl, ?refLost, ?refGone, ?ppsKept, ?ppsLost, fun s => rfl, ?void, ?valid, ?sync, ?early, ?frame, ?request, ?response,
    ?calibration⟩
  case refLost =>
    intro s h
    dsimp only [Done, exec, execRefLoss]
    rw [loseReference_present h]
  case refGone =>
    intro s h
    dsimp only [Done, exec, execRefLoss]
    rw [loseReference_absent h]
  case ppsKept =>
    intro s h
    dsimp only [Inert, exec, execPpsLoss]
    split
    next hdue => rw [loseReference_absent (h.resolve_left (not_lt.2 hdue))]
    next => rfl
  case ppsLost =>
    intro s hdue hp m n
    have hlost : Done .ppsLoss s (enterHoldover n) := by
      dsimp only [Done, exec, execPpsLoss]
      rw [if_pos hdue, loseReference_present hp]
    refine ⟨fun hold => ?_, fun hold => ?_⟩
    · rwa [enterHoldover_running hold] at hlost
    · have hpps : hf n R.GTC_STATUS_PPS_OK = 0 := by
        change hf (setHf (setHf s.m R.GTC_STATUS_PPS_OK 0) R.GTC_STATUS_LOCKED 0) R.GTC_STATUS_PPS_OK = 0
        rw [hf_setHf_ne (f := R.GTC_STATUS_LOCKED) (g := R.GTC_STATUS_PPS_OK) _ _ rfl (by decide) (by decide),
          hf_setHf_same _ _ _ _ (by decide)]
        rfl
      rwa [enterHoldover_begins hold hpps] at hlost
  case void =>
    intro s hhold hms hvoid
    dsimp only [Done, exec, execGtcVoid]
    rw [if_pos ⟨hhold, hms, hvoid⟩]
  case valid =>
    intro s h
    dsimp only [Inert, exec, execGtcVoid]
    rw [if_neg]
    rintro ⟨hhold, hms, hvoid⟩
    omega
  case sync =>
    intro s h
    dsimp only [Done, exec, execSyncSend]
    rw [if_neg (not_lt.2 h)]
  case early =>
    intro s h
    dsimp only [Inert, exec, execSyncSend]
    rw [if_pos h]
  case frame =>
    intro die f x s h
    dsimp only [Done, exec, execSyncFrame]
    rw [rxRow_good h]
  case request =>
    intro die f n s hd hu ht hp
    dsimp only [Done, exec, execEchoReq]
    rw [if_neg (not_le.2 hd), if_pos (by simp [hu, ht, hp])]
  case response =>
    intro die f t4 s hd hu ht hp hdest m
    dsimp only [Done, exec, execEchoRsp]
    rw [if_neg (not_le.2 hd), if_pos (by simp [hu, ht, hp, hdest])]
    refine ⟨fun h => ?_, fun hopen hclosed => ?_⟩
    · rw [if_neg]
      rintro ⟨hopen, hclosed⟩
      exact h.elim hopen (absurd hclosed)
    · rw [if_pos ⟨hopen, hclosed⟩]
  case calibration =>
    intro ring s hr hup last
    have hdue : (nbit (hf s.m R.SPN_STATUS_RING_UP) ring && (last == 0 || decide (last - 1 + second ≤ gtcNow s.m))) = true ↔
        last = 0 ∨ last - 1 + second ≤ gtcNow s.m := by
      rw [hup, Bool.true_and, Bool.or_eq_true, beq_iff_eq, decide_eq_true_eq]
    refine ⟨fun h => ?_, fun hlast hearly => ?_⟩
    · dsimp only [Done, exec, execCalibration]
      rw [if_neg (not_le.2 hr), if_pos (hdue.2 h)]
    · dsimp only [Inert, exec, execCalibration]
      rw [if_neg (not_le.2 hr), if_neg (fun h => (hdue.1 h).elim hlast (not_le.2 hearly))]

/-! ### Frames at a Station (R45 to R48, R62) -/

section
variable {die ty : Nat} {f : Frame} {s : State} {g : Mach → Mach}

theorem rxRow_live (e : FrameEnd) (hd : die < 100) (hl : stnLive s.m die = true) (ht : f.ftype = ty) :
    rxRow die f e ty s g = .next { s with m := rxFrame s.m die f e g } := by
  rw [rxRow, if_neg (not_le.2 hd), if_neg (by simp [hl, ht])]

/-- A frame of the row's type that is damaged, misdirected, or at the end of its way does not act. -/
theorem rxRow_unacted (hd : die < 100) (hl : stnLive s.m die = true) (ht : f.ftype = ty) :
    (rxRow die f .crcBad ty s g =
      .next { s with m := passOn (incSf (noteEnd s.m die f .crcBad) die R.STN_SPN_ERR_CRC_ERR) die f .eofBad }) ∧
    (rxRow die f .eofBad ty s g = .next { s with m := passOn (noteEnd s.m die f .eofBad) die f .eofBad }) ∧
    (destReserved f = true →
      rxRow die f .good ty s g = .next { s with m := incSf (noteEnd s.m die f .good) die R.STN_SPN_ERR_BAD_TYPE }) ∧
    (destReserved f = false → posOf die = 0 → f.wrapped = true → isGather f = false →
      rxRow die f .good ty s g = .next { s with m := noteEnd s.m die f .good }) ∧
    (destReserved f = false → posOf die ≠ 0 ∨ f.wrapped = false ∨ isGather f = true →
      addressed (noteEnd s.m die f .good) die f = false →
      rxRow die f .good ty s g = .next { s with m := passOn (noteEnd s.m die f .good) die f .good }) := by
  refine ⟨rxRow_live _ hd hl ht, rxRow_live _ hd hl ht, fun hres => ?_, fun hres hpos hw hgath => ?_, fun hres hway haddr => ?_⟩
  · rw [rxRow_live _ hd hl ht]
    simp only [rxFrame, hres, if_true, badType]
  · rw [rxRow_live _ hd hl ht]
    simp [rxFrame, hres, hpos, hw, hgath]
  · have hgo : (decide (posOf die = 0) && f.wrapped && !isGather f) = false := by
      rcases hway with h | h | h <;> simp [h]
    rw [rxRow_live _ hd hl ht]
    simp only [rxFrame, hres, hgo, haddr, Bool.not_false, Bool.false_eq_true, if_false, if_true]

end

/-- Settles O23: every frame row is the one row of a Station, which acts on nothing else. -/
theorem damagedFramesOnlyCount : Obligations.DamagedFramesOnlyCount := by
  unfold Obligations.DamagedFramesOnlyCount
  intro die f x s g hd hl hg ht
  have hgather : (g = fun e => (.gather die f e, 6)) → f.ftype ≠ 10 := by
    rintro rfl
    simp [ht]
  rcases hg with rfl | rfl | rfl | rfl | rfl | rfl | rfl | rfl | rfl
  all_goals dsimp only [Done, exec, execRdReq, execWrReq, execBcastWr, execGather, execSyncFrame, execArmFrame, execArmStitch, execCancel,
    execBulkFrame]
  case inr.inr.inr.inl =>
    rw [if_neg (hgather rfl), if_neg (hgather rfl), if_neg (hgather rfl)]
    exact rxRow_unacted hd hl ht
  all_goals exact rxRow_unacted hd hl ht

/-! ### Requests (R51, R53) -/

/-- A request is answered again as it was the first time (R51). -/
theorem takeRequest_repeat {m : Mach} {d : Nat} {f : Frame} {x : Dup} (write : Bool) (hl : lostSilent m d f = false)
    (hx : (stn m d).dups.find? (fun y => y.src == f.src && y.tag == f.tag) = some x) :
    takeRequest m d f write = stnSend (incSf m d R.STN_SPN_ERR_DUP_TAG) d true x.rsp .good := by
  simp [takeRequest, hl, hx]

theorem takeRequest_read {m : Mach} {d : Nat} {f : Frame} (hl : lostSilent m d f = false)
    (hx : (stn m d).dups.find? (fun y => y.src == f.src && y.tag == f.tag) = none) :
    takeRequest m d f false =
      if requestStatus m d f (targetOf m d f) false = 0 then
        respond (stationRead m d f (targetOf m d f)).2 d f (responseFrame d f 3 0 (stationRead m d f (targetOf m d f)).1)
      else stnSend m d true (responseFrame d f 3 (requestStatus m d f (targetOf m d f) false) []) .good := by
  by_cases h : requestStatus m d f (targetOf m d f) false = 0 <;> simp [takeRequest, hl, hx, h]

theorem takeRequest_write {m : Mach} {d : Nat} {f : Frame} (hl : lostSilent m d f = false)
    (hx : (stn m d).dups.find? (fun y => y.src == f.src && y.tag == f.tag) = none) :
    takeRequest m d f true =
      if requestStatus m d f (targetOf m d f) true = 0 then
        respond (stationWrite m d f (targetOf m d f)).1 d f
          (responseFrame d f 4 (if (stationWrite m d f (targetOf m d f)).2 then 5 else 0) [])
      else stnSend m d true (responseFrame d f 4 (requestStatus m d f (targetOf m d f) true) []) .good := by
  by_cases h : requestStatus m d f (targetOf m d f) true = 0 <;> simp [takeRequest, hl, hx, h]

/-- Settles O24. -/
theorem requestsComplete : Obligations.RequestsComplete := by
  unfold Obligations.RequestsComplete
  refine ⟨?readAgain, ?writeAgain, ?read, ?write⟩
  case readAgain =>
    intro die f x s h m hl hx
    dsimp only [Done, exec, execRdReq]
    rw [rxRow_good h, takeRequest_repeat false hl hx]
  case writeAgain =>
    intro die f x s h m hl hx
    dsimp only [Done, exec, execWrReq]
    rw [rxRow_good h, takeRequest_repeat true hl hx]
  case read =>
    intro die f s h m st r hl hx
    dsimp only [Done, exec, execRdReq]
    rw [rxRow_good h, takeRequest_read hl hx]
    rfl
  case write =>
    intro die f s h m st r rsp hl hx
    dsimp only [Done, exec, execWrReq]
    rw [rxRow_good h, takeRequest_write hl hx]
    rfl

/-! ### Broadcasts, gathers and bulk frames -/

/-- A gather with a payload is no heartbeat. -/
theorem execGather_payload {die : Nat} {f : Frame} {s : State} (h : rxGood s.m die f 6 = true) :
    execGather die f .good s = .next { s with m := takeGatherHere (rxTaken s.m die f) die f } := by
  have ht : f.ftype = 6 := by
    simp only [rxGood, Bool.and_eq_true, beq_iff_eq] at h
    exact h.1.1.1.2
  rw [execGather, if_neg (by simp [ht]), rxRow_good h]

/-- Settles O25. -/
theorem stationFramesComplete : Obligations.StationFramesComplete := by
  unfold Obligations.StationFramesComplete
  refine ⟨?cast, ?notHere, ?joins, ?turned, ?badGather, ?notebook, ?chunk, ?reserved⟩
  case cast =>
    intro die f s h m r hkind halign hl
    dsimp only [Done, exec, execBcastWr]
    rw [rxRow_good h, if_pos (by simp [hkind, halign]; exact hl)]
    rfl
  case notHere =>
    intro die f s h m hoff
    dsimp only [Done, exec, execBcastWr]
    rw [rxRow_good h, if_neg]
    simp only [Bool.and_eq_true, beq_iff_eq, Bool.not_eq_true']
    rintro ⟨⟨hkind, halign⟩, hl⟩
    rcases hoff with k | k | k
    · exact Bool.false_ne_true (k.symm.trans hkind)
    · exact k halign
    · exact Bool.false_ne_true (hl.symm.trans k)
  case joins =>
    intro die f s h hgood hw m joined
    change execGather die f .good s = _
    rw [execGather_payload h]
    simp [takeGatherHere, hgood, hw, setVisited, m, joined]
  case turned =>
    intro die f s h hgood hw
    change execGather die f .good s = _
    rw [execGather_payload h]
    simp [takeGatherHere, hgood, hw]
  case badGather =>
    intro die f s h hbad
    change execGather die f .good s = _
    rw [execGather_payload h]
    simp [takeGatherHere, hbad, badType]
  case notebook =>
    intro die f s h hlo hhi m
    dsimp only [Done, exec, execBulkFrame]
    rw [rxRow_good h, if_pos ⟨hlo, hhi⟩]
  case chunk =>
    intro die f s h hout seq a m parts gone hd hn hlen
    dsimp only [Done, exec, execBulkFrame]
    rw [rxRow_good h, if_neg (by omega), takeBoot]
    dsimp only
    rw [if_neg (by omega)]
  case reserved =>
    intro die f s hd hl hr
    dsimp only [Done, exec, execBadTypeFrame]
    rw [if_neg (not_le.2 hd), if_pos (by simp [hl, hr])]
    rfl

end Sys2Proof.Machine

/-! PROOFS. Waypoint frames, frames at the hub, rings and trunks. -/

namespace Sys2Proof.Machine

/-! ### Waypoints at a Station (R89 to R96, R108) -/

theorem insertBy_ne_nil {α : Type} (lt : α → α → Bool) (x : α) (l : List α) : insertBy lt x l ≠ [] := by
  cases l with
  | nil => simp [insertBy]
  | cons y r =>
    rw [insertBy]
    split <;> simp

/-- Sorting empties no list. -/
theorem sortBy_eq_nil_iff {α : Type} (lt : α → α → Bool) (l : List α) : sortBy lt l = [] ↔ l = [] := by
  have fold_ne : ∀ (l : List α) (acc : List α), acc ≠ [] → l.foldl (fun acc x => insertBy lt x acc) acc ≠ [] := by
    intro l
    induction l with
    | nil => exact fun acc h => h
    | cons x l ih => exact fun acc _ => ih _ (insertBy_ne_nil lt x acc)
  cases l with
  | nil => simp [sortBy]
  | cons x l =>
    have h : sortBy lt (x :: l) ≠ [] := fold_ne l _ (insertBy_ne_nil lt x [])
    simp [h]

/-- An arm with an ACTION of Table 3.3 is held, acts, or is late by its T (R94, R525). -/
theorem takeArm_new {m : Mach} {d : Nat} {a : Arm} (hlo : 1 ≤ a.action) (hhi : a.action < 13) (hn : armHeld m d a = false) :
    takeArm m d a =
      if a.t = 0 then settled (fireArm (noteArm m d a.armId) d a)
      else if a.t ≤ repNow m d then settled (noteArm (lateArm m d a) d a.armId)
      else if 16 ≤ (stn m d).wpts.length then m
      else holdArm m d a := by
  rw [takeArm, if_neg (by omega), if_neg (by simp [hn])]

theorem takeArm_held {m : Mach} {d : Nat} {a : Arm} (hlo : 1 ≤ a.action) (hhi : a.action < 13) (hn : armHeld m d a = true) :
    takeArm m d a = m := by
  rw [takeArm, if_neg (by omega), if_pos hn]

/-- A CANCEL before T withdraws its arm (R96). -/
theorem takeCancel_before {m : Mach} {d id : Nat} {a : Arm} (ha : (stn m d).wpts.find? (fun x => x.armId == id) = some a)
    (ht : repNow m d < a.t) :
    takeCancel m d id =
      let w := setWpts m d ((stn m d).wpts.filter (fun x => x.armId != a.armId))
      settled (armGone (if a.stitch then cancelStitch w d a else w) a.armId d) := by
  have hid : a.armId = id := by simpa using List.find?_some ha
  subst hid
  rw [takeCancel, ha]
  dsimp only
  rw [if_neg (not_le.2 ht)]

theorem takeCancel_after {m : Mach} {d id : Nat} (h : ∀ a, (stn m d).wpts.find? (fun x => x.armId == id) = some a → a.t ≤ repNow m d) :
    takeCancel m d id = m := by
  rw [takeCancel]
  split
  · rfl
  next a ha => rw [if_pos (h a ha)]

/-- Settles O26. -/
theorem waypointFramesComplete : Obligations.WaypointFramesComplete := by
  unfold Obligations.WaypointFramesComplete
  refine ⟨?arm, ?again, ?cancel, ?cancelStitch, ?afterT, ?stitch, ?stitchLate, ?strobe, ?countdown, ?fire⟩
  case arm =>
    intro die f s h hp hlen m a hlo hhi hn
    dsimp only [Done, exec, execArmFrame]
    rw [rxRow_good h, if_pos ⟨hp, hlen⟩, takeArm_new hlo hhi hn]
  case again =>
    intro die f s h hp hlen m a hlo hhi hn
    dsimp only [Done, exec, execArmFrame]
    rw [rxRow_good h, if_pos ⟨hp, hlen⟩, takeArm_held hlo hhi hn]
  case cancel =>
    intro die f a s h hp m ha ht hs
    dsimp only [Done, exec, execCancel]
    rw [rxRow_good h, if_pos hp, takeCancel_before ha ht]
    simp only [hs, Bool.false_eq_true, if_false, m]
  case cancelStitch =>
    intro die f a s h hp m ha ht hs
    dsimp only [Done, exec, execCancel]
    rw [rxRow_good h, if_pos hp, takeCancel_before ha ht]
    simp only [hs, if_true, m]
  case afterT =>
    intro die f s h hp m ha
    dsimp only [Done, exec, execCancel]
    rw [rxRow_good h, if_pos hp, takeCancel_after ha]
  case stitch =>
    intro die f s h hlen m a hs hk hn ht m'
    have hnew : (!a.stitch || f.payload.length != 48 || decide (8 ≤ a.action) || armHeld m die a) = false := by
      simp [hs, hlen, hn, not_le.2 hk]
    dsimp only [Done, exec, execArmStitch]
    rw [rxRow_good h, if_neg (by rw [hnew]; simp), if_neg (not_le.2 ht)]
  case stitchLate =>
    intro die f s h hlen m a hs hk hn ht m'
    have hnew : (!a.stitch || f.payload.length != 48 || decide (8 ≤ a.action) || armHeld m die a) = false := by
      simp [hs, hlen, hn, not_le.2 hk]
    dsimp only [Done, exec, execArmStitch]
    rw [rxRow_good h, if_neg (by rw [hnew]; simp), if_pos ht]
    split
    next q hq => rw [if_pos (by simp [m', m, a, hq])]
    next hq => rw [if_neg (by simp [m', m, a, hq])]
  case strobe =>
    intro die s a hd hu ha hlo hhi
    dsimp only [Done, exec, execHaltStrobe]
    rw [if_neg (not_le.2 hd), ha]
    dsimp only
    rw [if_pos ⟨hu, hlo, hhi⟩]
  case countdown =>
    intro die tap s a ht hu ha hlate reason h
    dsimp only [Done, exec, execTapCountdown]
    rw [if_neg (by simp [ht]), ha]
    dsimp only
    rw [if_pos ⟨hu, hlate⟩]
  case fire =>
    intro die s hd hu hany
    have hdue : (sortBy (fun a b : Arm => decide (a.t < b.t))
        ((stn s.m die).wpts.filter (fun a => decide (a.t ≤ repNow s.m die)))).isEmpty = false := by
      rw [List.isEmpty_eq_false_iff, Ne, sortBy_eq_nil_iff, List.filter_eq_nil_iff]
      simpa using hany
    dsimp only [Done, exec, execWaypointFire]
    rw [if_neg (not_le.2 hd), if_neg (by simp [hu]), if_neg (by rw [hdue]; simp)]

/-! ### Frames at the hub (R51 to R65) -/

theorem hubRow_damaged {die ty : Nat} {f : Frame} {e : FrameEnd} {s : State} {g : Mach → Mach} (hd : die < 100) (ht : f.ftype = ty)
    (hs : f.src = die) (he : e ≠ .good) :
    hubRow die f e ty s g = .next { s with m := incHf s.m R.SPN_RING_ERR_CRC_ERR 1 (ringOf die) } := by
  cases e with
  | good => exact absurd rfl he
  | crcBad => simp [hubRow, not_le.2 hd, ht, hs]
  | eofBad => simp [hubRow, not_le.2 hd, ht, hs]

/-- Settles O27. -/
theorem hubFramesComplete : Obligations.HubFramesComplete := by
  unfold Obligations.HubFramesComplete
  refine ⟨?read, ?write, ?damaged, ?gather, ?gatherDamaged, ?request, ?lostGather, ?beat, ?event, ?share⟩
  case read =>
    intro die f s hd ht hs
    dsimp only [Done, exec, execRdRsp]
    exact hubRow_good hd ht hs
  case write =>
    intro die f s hd ht hs
    dsimp only [Done, exec, execWrRsp]
    exact hubRow_good hd ht hs
  case damaged =>
    intro die f e s hd hs he
    refine ⟨fun ht => ?_, fun ht => ?_⟩
    · dsimp only [Done, exec, execRdRsp]
      exact hubRow_damaged hd ht hs he
    · dsimp only [Done, exec, execWrRsp]
      exact hubRow_damaged hd ht hs he
  case gather =>
    intro ring f s hr ht
    simp [Done, exec, execGatherReturn, not_le.2 hr, ht]
  case gatherDamaged =>
    intro ring f e s hr ht he
    simp [Done, exec, execGatherReturn, not_le.2 hr, ht, he]
  case request =>
    intro ring tag s r hr hreq hdue hwait
    dsimp only [Done, exec, execResponseTimeout]
    rw [if_neg (not_le.2 hr), hreq]
    dsimp only
    rw [if_pos ⟨hdue, by simp [hwait]⟩]
  case lostGather =>
    intro ring tag s g hr hreq hgather hdue hwait
    dsimp only [Done, exec, execResponseTimeout]
    rw [if_neg (not_le.2 hr), hreq, hgather]
    dsimp only
    rw [if_pos ⟨hdue, by simp [hwait]⟩]
  case beat =>
    intro ring alive s hr hup hhold hbeat
    dsimp only [Done, exec, execHeartbeat]
    rw [if_neg (not_le.2 hr), if_neg (by simp [hup, hhold, hbeat])]
  case event =>
    intro die s e r hd he harr
    dsimp only [Done, exec, execEventFrame]
    rw [if_neg (not_le.2 hd), he]
    dsimp only
    rw [if_pos harr]
  case share =>
    intro ring dir s hr hdir hheld hhold hroom
    dsimp only [Done, exec, execShareRelease]
    rw [if_neg (by omega), if_neg]
    simp only [hheld, hhold, Bool.not_true, Bool.false_eq_true, false_or, not_le]
    exact hroom

/-! ### Segments and trunks (R60, R64, R88) -/

theorem breakSegment_up {m : Mach} {k p : Nat} (lo hi : Nat) (h : m.spine.down.contains (k, p) = false) :
    breakSegment m k p lo hi =
      let w := syncStations { m with spine := { m.spine with
        down := m.spine.down ++ [(k, p)], retrained := m.spine.retrained.filter (fun x => x != (k, p)) } } k
      segEvent (segEvent w k p p lo) k ((p + 1) % 25) p hi := by
  rw [breakSegment, if_neg (by rw [h]; simp)]

theorem breakSegment_down {m : Mach} {k p : Nat} (lo hi : Nat) (h : m.spine.down.contains (k, p) = true) :
    breakSegment m k p lo hi = m := by
  rw [breakSegment, if_pos h]

/-- Settles O28. -/
theorem ringEventsComplete : Obligations.RingEventsComplete := by
  unfold Obligations.RingEventsComplete
  refine ⟨?breaks, ?broken, ?fourth, ?trunk, ?restored, ?trains, ?failed⟩
  case breaks =>
    intro ring pos lo hi s hr hp hup
    dsimp only [Done, exec, execSegmentDown]
    rw [if_neg (by omega), breakSegment_up lo hi hup]
  case broken =>
    intro ring pos lo hi s hr hp hdown
    dsimp only [Inert, exec, execSegmentDown]
    rw [if_neg (by omega), breakSegment_down lo hi hdown]
  case fourth =>
    intro m d f h m'
    simp [noteEnd, h, m']
  case trunk =>
    intro trunk s ht hup
    dsimp only [Done, exec, execTrunkDown]
    rw [if_neg (not_le.2 ht), if_neg (by simp [hup])]
  case restored =>
    intro trunk s ht hup henv
    have hnone : s.m.bup.env.isNone = false := by simpa using henv
    dsimp only [Done, exec, execTrunkRestored]
    rw [if_neg (not_le.2 ht), if_neg (by simp [hup, hnone])]
  case trains =>
    intro ring pos s hr hp hdown hnew hends
    have halive : [pos, (pos + 1) % 25].all (fun p => posPresent s.m ring p && !nbit s.m.hth.faulted (dieAt ring p)) = true := by
      rw [List.all_eq_true]
      intro p hp
      obtain ⟨hpresent, hfault⟩ := hends p hp
      rw [hpresent, hfault]
      rfl
    dsimp only [Done, exec, execRetrain]
    rw [if_neg (by omega), if_pos]
    rw [halive, hdown, hnew]
    rfl
  case failed =>
    intro ring pos s hr hp
    dsimp only [Inert, exec, execRetrain]
    rw [if_neg (by omega), if_neg (by simp)]

end Sys2Proof.Machine

/-! PROOFS. The rows of engines, of breakpoints, of completions and of the Composer. -/

namespace Sys2Proof.Machine

/-! ### Engines and cores (R100 to R120) -/

/-- Settles O29: each row acts by the state of its engine. -/
theorem engineRowsComplete : Obligations.EngineRowsComplete := by
  unfold Obligations.EngineRowsComplete
  refine ⟨?boundary, ?stopped, ?atomic, ?limit, ?entry, ?noEntry, ?sleeps, ?wish, ?wakes⟩
  case boundary =>
    intro die tap e b s hok hstop x
    refine ⟨fun h1 hel => ?_, fun h1 hel => ?_, fun h4 hmode hnext => ?_, fun h4 hmode => ?_, fun h0 => ?_, fun hst => ?_⟩
    · simp [Done, exec, execEngineBoundary, hok, hstop, h1, x, show boundaryEligible (eng s.m die tap e) b = true from hel]
    · simp [Done, exec, execEngineBoundary, hok, hstop, h1, show boundaryEligible (eng s.m die tap e) b = false from hel]
    · simp [Done, exec, execEngineBoundary, hok, hstop, h4, x, show (eng s.m die tap e).stepMode ≠ 3 from hmode,
        show (eng s.m die tap e).stopNext = true from hnext]
    · have hon : ¬ ((eng s.m die tap e).stepMode ≠ 3 ∧ (eng s.m die tap e).stopNext = true) := by
        rintro ⟨hm, hn⟩
        rcases hmode with h | h
        · exact hm h
        · exact Bool.false_ne_true (h.symm.trans hn)
      dsimp only [Done, exec, execEngineBoundary]
      rw [if_neg (by simp [hok]), if_neg (by simp [hstop]), h4, if_neg hon]
      cases b.inSequence <;> simp [x]
    · simp [Done, exec, execEngineBoundary, hok, hstop, h0]
    · simp only [List.mem_cons, List.not_mem_nil, or_false] at hst
      rcases hst with h | h | h | h <;> simp [Inert, exec, execEngineBoundary, hok, hstop, h]
  case stopped =>
    intro die tap e b s hok hstop m
    dsimp only [Done, exec, execEngineBoundary]
    rw [if_neg (by simp [hok]), if_pos hstop]
  case atomic =>
    intro die tap e s hok h1
    refine ⟨fun hdue => ?_, fun hearly => ?_⟩
    · simp [Done, exec, execAtomicBound, hok, h1, hdue]
    · simp [Inert, exec, execAtomicBound, hok, h1, not_le.2 hearly]
  case limit =>
    intro die tap e s hok h4 hmode hnext hdue m
    dsimp only [Done, exec, execStepLimit]
    rw [if_neg (by simp [hok]), if_pos ⟨h4, hmode, by simp [hnext], hdue⟩]
  case entry =>
    intro die tap e more s hok hst
    have hrun : engState s.m die tap e = 0 ∨ engState s.m die tap e = 1 ∨ engState s.m die tap e = 4 := by simpa using hst
    dsimp only [Done, exec, execEntryCompleted]
    rw [if_neg (by simp [hok]), if_pos hrun]
  case noEntry =>
    intro die tap e more s hok hst
    dsimp only [Inert, exec, execEntryCompleted]
    rw [if_neg (by simp [hok]), if_neg]
    simp only [List.mem_cons, List.not_mem_nil, or_false] at hst
    omega
  case sleeps =>
    intro die tap s hok hall hhalt
    have hnone : ((List.range 4).any (fun e => decide (1 ≤ engState s.m die tap e) && decide (engState s.m die tap e ≤ 4)) ||
        haltHere s.m die tap) = false := by
      rw [hhalt, Bool.or_false, List.any_eq_false]
      intro e he
      simp [hall e (List.mem_range.1 he)]
    have hrun : (List.range 4).all (fun e => engState s.m die tap e == 0) = true := by
      rw [List.all_eq_true]
      exact fun e he => beq_iff_eq.2 (hall e (List.mem_range.1 he))
    dsimp only [Done, exec, execCoreSleep]
    rw [if_neg (by simp [hok]), if_neg (by rw [hnone]; simp), if_pos hrun, sleepCore]
  case wish =>
    intro die tap s hok hbusy
    have hany : ((List.range 4).any (fun e => decide (1 ≤ engState s.m die tap e) && decide (engState s.m die tap e ≤ 4)) ||
        haltHere s.m die tap) = true := by
      rw [Bool.or_eq_true, List.any_eq_true]
      exact hbusy.imp_left fun ⟨e, he, hlo, hhi⟩ => ⟨e, List.mem_range.2 he, by simp [hlo, hhi]⟩
    dsimp only [Done, exec, execCoreSleep]
    rw [if_neg (by simp [hok]), if_pos hany]
  case wakes =>
    intro die tap s hok hasleep
    have hany : (List.range 4).any (fun e => engState s.m die tap e == 5 || engState s.m die tap e == 6) = true := by
      rw [List.any_eq_true]
      obtain ⟨e, he, hst⟩ := hasleep
      exact ⟨e, List.mem_range.2 he, by simpa using hst⟩
    dsimp only [Done, exec, execCoreWake]
    rw [if_neg (by simp [hok])]
    exact if_neg (by rw [hany]; simp)

/-! ### Breakpoints and watchpoints (R121 to R123) -/

/-- A slot that has matches to skip counts one. -/
theorem slotMatch_skips {m : Mach} {d p slot skip : Nat} (h : Store.get 0 (core_ m d p).brkSkip slot < skip) :
    slotMatch m d p slot skip =
      (false, updCore m d p (fun c => { c with brkSkip := Store.put 0 c.brkSkip slot (Store.get 0 (core_ m d p).brkSkip slot + 1) })) := by
  rw [slotMatch, if_pos h]

theorem slotMatch_acts {m : Mach} {d p slot skip : Nat} (h : skip ≤ Store.get 0 (core_ m d p).brkSkip slot) :
    slotMatch m d p slot skip = (true, m) := by
  rw [slotMatch, if_neg (not_lt.2 h)]

/-- Settles O30. -/
theorem breakRowsComplete : Obligations.BreakRowsComplete := by
  unfold Obligations.BreakRowsComplete
  refine ⟨?passes, ?hits, ?match_, ?off, ?skips, ?acts, ?watch, ?watched, ?watchSlot⟩
  case passes =>
    intro die tap e clid entry s hok hpass hclid hentry hmid
    simp [Done, exec, execEntryBreakpoint, hok, standsBefore, hpass, hclid, hentry, hmid]
  case hits =>
    intro die tap e clid entry s hok hstand
    simp [Done, exec, execEntryBreakpoint, hok, hstand]
  case match_ =>
    intro m die tap e clid entry b
    simp only [breakHits, List.mem_filter, List.mem_range, Bool.and_eq_true, beq_iff_eq, and_assoc]
  case off =>
    intro die tap e clid entry s hok hpass hoff
    have hnone : breakHits s.m die tap e clid entry = [] := by
      rw [breakHits, List.filter_eq_nil_iff]
      intro b hb
      simp [hoff b (List.mem_range.1 hb)]
    simp [Inert, exec, execEntryBreakpoint, hok, standsBefore, hpass, hnone]
  case skips =>
    intro m die tap e clid entry b h
    simp [breakSlot, slotMatch_skips h]
  case acts =>
    intro m die tap e clid entry b h trig
    refine ⟨fun ha => ?_, fun ha => ?_, fun ha => ?_⟩
    · simp [breakSlot, slotMatch_acts h, ha, trig]
    · simp [breakSlot, slotMatch_acts h, ha, trig]
    · simp [breakSlot, slotMatch_acts h, not_lt.2 ha, show tf m die tap R.TAP_BRK_CTL_ACTION b ≠ 1 by omega, trig]
  case watch =>
    intro die tap e addr ty priv s hok
    simp [Done, exec, execWatchpoint, hok]
  case watched =>
    intro m die tap e addr ty w priv
    simp only [watchHits, List.mem_filter, List.mem_range, Bool.and_eq_true, beq_iff_eq, decide_eq_true_eq, Bool.or_eq_true,
      Bool.not_eq_true', and_assoc]
    cases priv <;> simp
  case watchSlot =>
    intro m0 die tap e addr w m n h trig
    refine ⟨fun hskip => ?_, fun hgo => ⟨fun ha => ?_, fun ha => ?_, fun ha => ?_⟩⟩
    · dsimp only [watchSlot]
      rw [slotMatch_skips hskip]
      rfl
    all_goals
      dsimp only [watchSlot]
      rw [slotMatch_acts hgo]
      simp only [Bool.not_true, Bool.false_eq_true, if_false]
    · rw [show tf m die tap R.TAP_WP_CTL_ACTION w = 0 from ha]
      rfl
    · rw [show tf m die tap R.TAP_WP_CTL_ACTION w = 1 from ha]
      rfl
    · have h2 : ¬ tf m die tap R.TAP_WP_CTL_ACTION w < 2 := not_lt.2 ha
      have h1 : tf m die tap R.TAP_WP_CTL_ACTION w ≠ 1 := by omega
      rw [if_neg h2, if_neg h1]

/-! ### Completions and orphans -/

theorem noArms_of_forall {l : List HubArm} {cmd : Nat} (h : ∀ a ∈ l, a.cmd ≠ cmd) : l.any (fun a => a.cmd == cmd) = false := by
  rw [List.any_eq_false]
  exact fun a ha => by simpa using h a ha

/-- Settles O31. -/
theorem runCompletionsComplete : Obligations.RunCompletionsComplete := by
  unfold Obligations.RunCompletionsComplete
  refine ⟨?halt, ?step, ?orphan, ?early⟩
  case halt =>
    intro cmd s c hc hop ht harms
    dsimp only [Done, exec, execHaltCompletion]
    rw [hc]
    dsimp only
    rw [if_pos ⟨hop, ht, by rw [noArms_of_forall harms]; rfl⟩]
  case step =>
    intro cmd s c hc hop hmode ht hhung harms hung m
    have hne : (s.m.engs.filter (fun x => x.2.stepCmd == cmd)).isEmpty = false := by
      rw [List.isEmpty_eq_false_iff, Ne, List.filter_eq_nil_iff]
      simpa using hhung
    dsimp only [Done, exec, execStepStuck]
    rw [hc]
    dsimp only
    rw [if_pos ⟨hop, hmode, ht, by rw [hne]; rfl, by rw [noArms_of_forall harms]; rfl⟩]
  case orphan =>
    intro k s o ho hdue hfree
    dsimp only [Done, exec, execOrphanPolicy]
    rw [ho]
    dsimp only
    rw [if_neg]
    rintro (h | ⟨hpol, hany⟩)
    · exact absurd h (not_lt.2 hdue)
    · obtain ⟨c, hc, hover⟩ := List.any_eq_true.1 hany
      exact Bool.false_ne_true ((hfree hpol c hc).symm.trans hover)
  case early =>
    intro k s o ho hearly
    simp [Inert, exec, execOrphanPolicy, ho, hearly]

/-! ### The Composer (R29 to R33) -/

/-- Settles O32. -/
theorem composerRowsComplete : Obligations.ComposerRowsComplete := by
  unfold Obligations.ComposerRowsComplete
  refine ⟨?bind, ?refused, ?noUnit, ?other, ?sameOwner, ?owner, ?fabric, ?fabricWaits, ?add, ?full, ?change, ?remove, ?last⟩
  case bind =>
    intro b s d inst hu hpkg was hcause
    dsimp only [Done, exec, execBindMsg]
    rw [hu]
    dsimp only
    rw [if_neg (by simp [hpkg]), show bindCause s.m b d inst (boundNow s.m d inst) = 0 from hcause]
    rfl
  case refused =>
    intro b s d inst hu hpkg was hcause
    dsimp only [Done, exec, execBindMsg]
    rw [hu]
    dsimp only
    rw [if_neg (by simp [hpkg])]
    split
    next h => exact absurd h hcause
    next => rfl
  case noUnit =>
    intro b s hu
    dsimp only [exec, execBindMsg]
    rw [hu]
  case other =>
    intro b s d inst hu hpkg
    dsimp only [Inert, exec, execBindMsg]
    rw [hu]
    dsimp only
    rw [if_pos hpkg]
  case sameOwner =>
    intro part digest port s h
    dsimp only [Inert, exec, execOwnerMsg]
    rw [if_pos h]
  case owner =>
    intro part digest port s new h m
    dsimp only [Done, exec, execOwnerMsg]
    rw [if_neg h]
  case fabric =>
    intro pkg joined s h
    simp [Done, exec, execFabricMsg, h]
  case fabricWaits =>
    intro pkg joined s h
    simp [Done, exec, execFabricMsg, h]
  case add =>
    intro job ps s hp hnew hroom
    have hnone : s.m.comp.jobs.any (fun j => j.1 == job) = false := by
      rw [List.any_eq_false]
      exact fun j hj => by simpa using hnew j hj
    dsimp only [Done, exec, execJobMsg]
    rw [if_neg hp, if_neg (by rw [hnone]; simp), if_neg (not_le.2 hroom)]
  case full =>
    intro job ps s hp hnew hfull
    have hnone : s.m.comp.jobs.any (fun j => j.1 == job) = false := by
      rw [List.any_eq_false]
      exact fun j hj => by simpa using hnew j hj
    dsimp only [Done, exec, execJobMsg]
    rw [if_neg hp, if_neg (by rw [hnone]; simp), if_pos hfull]
  case change =>
    intro job ps s hp hheld
    have hany : s.m.comp.jobs.any (fun j => j.1 == job) = true := by
      rw [List.any_eq_true]
      exact hheld.imp fun j ⟨hj, he⟩ => ⟨hj, beq_iff_eq.2 he⟩
    dsimp only [Done, exec, execJobMsg]
    rw [if_neg hp, if_pos hany]
    simp only [beq_iff_eq]
  case remove =>
    intro job s h
    dsimp only [Done, exec, execJobMsg]
    rw [if_pos rfl]
    split
    next hnil hdue => exact absurd hnil (h.resolve_left (by simp [hdue]))
    next => rfl
  case last =>
    intro job pkg joined s hdue hnil
    dsimp only [Done, exec, execJobMsg]
    rw [if_pos rfl, hnil, hdue]

end Sys2Proof.Machine

/-! PROOFS. The rows of the cut, of a Stitch, of Tally and Sentinel, and of trace. -/

namespace Sys2Proof.Machine

/-! ### The cut and the capture (R139 to R164) -/

/-- Settles O33. -/
theorem cutRowsComplete : Obligations.CutRowsComplete := by
  unfold Obligations.CutRowsComplete
  refine ⟨?point, ?record, ?between, ?marker, ?deadline, ?captured⟩
  case point =>
    intro die s hd hu
    simp [Done, exec, execCutPoint, not_le.2 hd, hu]
  case record =>
    intro die port bytes vc err s hok hu hne hlen h0 h5 b r
    have htakes : ¬ ((!stnUp s.m die) = true ∨ bytes.isEmpty = true ∨ 65536 ≤ bytes.length ∨
        (cutState s.m die port = 0 ∧ (!(decide (96 ≤ die) && (farEnd die port).isNone && dieInCut s.m die)) = true) ∨
        cutState s.m die port = 5) := by
      simp [hu, hne, not_le.2 hlen, h0, h5]
    refine ⟨fun hfull => ?_, fun hfull h1 hroom => ?_, fun hfull h1 hroom => ?_, fun hfull h1 => ?_⟩
    all_goals
      dsimp only [Done, exec, execCutBufferRecord]
      rw [if_neg (by simp [hok]), if_neg htakes]
    · rw [if_pos hfull]
    · rw [if_neg hfull, if_pos h1, if_pos hroom]
    · rw [if_neg hfull, if_pos h1, if_neg (not_le.2 hroom)]
    · rw [if_neg hfull, if_neg h1]
  case between =>
    intro die port bytes vc err s hok hu hne hlen h0 hfull b r
    refine ⟨fun hanchor hfar hcut => ?_, fun hno => ?_⟩
    · have htakes : ¬ ((!stnUp s.m die) = true ∨ bytes.isEmpty = true ∨ 65536 ≤ bytes.length ∨
          (cutState s.m die port = 0 ∧ (!(decide (96 ≤ die) && (farEnd die port).isNone && dieInCut s.m die)) = true) ∨
          cutState s.m die port = 5) := by
        simp [hu, hne, not_le.2 hlen, h0, hanchor, hfar, hcut]
      dsimp only [Done, exec, execCutBufferRecord]
      rw [if_neg (by simp [hok]), if_neg htakes, if_neg hfull, if_neg (by omega), h0]
    · have hheld : (decide (96 ≤ die) && (farEnd die port).isNone && dieInCut s.m die) = false := by
        rcases hno with h | h | h
        · simp [not_le.2 h]
        · simp [h]
        · simp [h]
      dsimp only [Inert, exec, execCutBufferRecord]
      rw [if_neg (by simp [hok]), if_pos (.inr (.inr (.inr (.inl ⟨h0, by rw [hheld]; rfl⟩))))]
  case marker =>
    intro die port s x hok hu h1 hfull hcap hfired hmark
    dsimp only [Done, exec, execCutMarker]
    rw [if_neg (by simp [hok]), if_pos ⟨hu, h1, hfull, by simp [hcap, hfired, hmark]⟩]
  case deadline =>
    intro die s hd hu
    simp [Done, exec, execCutDeadline, not_le.2 hd, hu]
  case captured =>
    intro die s hd hu
    simp [Done, exec, execCaptureDone, not_le.2 hd, hu]

/-! ### A Stitch at the hub -/

/-- A list in which one element gives anything gives what that one does. -/
theorem flatMap_only {α β : Type} {f : α → List β} {a : α} : ∀ {l : List α}, a ∈ l → l.Nodup → (∀ b ∈ l, b ≠ a → f b = []) →
    l.flatMap f = f a
  | [], h, _, _ => absurd h List.not_mem_nil
  | b :: l, h, hn, hf => by
    obtain ⟨hb, hl⟩ := List.nodup_cons.1 hn
    rw [List.flatMap_cons]
    by_cases hba : b = a
    · subst hba
      rw [List.flatMap_eq_nil_iff.2 fun c hc => hf c (List.mem_cons_of_mem _ hc) (fun h => hb (h ▸ hc)), List.append_nil]
    · rw [hf b List.mem_cons_self hba, List.nil_append]
      exact flatMap_only ((List.mem_cons.1 h).resolve_left (Ne.symm hba)) hl fun c hc => hf c (List.mem_cons_of_mem _ hc)

/-- Settles O34. -/
theorem stitchRowsComplete : Obligations.StitchRowsComplete := by
  unfold Obligations.StitchRowsComplete
  refine ⟨?progress, ?between, ?deadline, ?before, ?unheld, ?claim⟩
  case progress =>
    intro slot s x c hx hbusy hdue due m1 m
    refine ⟨fun hc => ?_, fun hc hg => ?_, fun hc hg => ?_⟩
    all_goals
      dsimp only [Done, exec, execStitchProgress]
      rw [hx]
      dsimp only
      rw [if_pos ⟨hbusy, hdue⟩, hc]
    · have hnone : m.spine.gathers.any (fun g => g.cmd == c.id) = false := by
        rw [List.any_eq_false]
        exact fun g hm => by simpa using hg g hm
      dsimp only
      rw [if_neg (by rw [hnone]; simp)]
    · have hany : m.spine.gathers.any (fun g => g.cmd == c.id) = true := by
        rw [List.any_eq_true]
        exact hg.imp fun g ⟨hm, he⟩ => ⟨hm, beq_iff_eq.2 he⟩
      dsimp only
      rw [if_pos hany]
  case between =>
    intro slot s x hx hbusy hearly
    simp [Inert, exec, execStitchProgress, hx, not_le.2 hearly]
  case deadline =>
    intro slot s x hx hbusy hdue
    simp [Done, exec, execStitchDeadline, hx, hbusy, hdue]
  case before =>
    intro slot s x hx hbusy hearly
    simp [Inert, exec, execStitchDeadline, hx, not_le.2 hearly]
  case unheld =>
    intro stack folio s hs hf hdone
    dsimp only [Inert, exec, execHamperClaim]
    rw [if_neg (by omega), List.flatMap_eq_nil_iff.2]
    · rfl
    intro k hk
    split
    next x hx =>
      split
      next hbusy =>
        rw [List.map_eq_nil_iff, List.filter_eq_nil_iff]
        intro q hq htaken
        simp only [Bool.and_eq_true, beq_iff_eq, decide_eq_true_eq] at htaken
        obtain ⟨⟨⟨hst, hlo⟩, hhi⟩, hopen⟩ := htaken
        have hd := hdone k (List.mem_range.1 hk) x hx hbusy q hq hst hlo hhi
        cases hc : cap s.m q.die k with
        | none => simp [hc] at hopen
        | some c => simp [hc, hd c hc] at hopen
      next => rfl
    next => rfl
  case claim =>
    intro stack folio k s x q c hs hf hk hothers hx hbusy hq hst hlo hhi hc hdone n m
    dsimp only [Done, exec, execHamperClaim]
    rw [if_neg (by omega), flatMap_only (List.mem_range.2 hk) List.nodup_range]
    · rw [hx]
      simp only [hbusy, if_true, hq]
      rw [List.filter_cons_of_pos (by simp [hst, hlo, hhi, hc, hdone])]
      simp only [List.filter_nil, List.map_cons, List.map_nil, List.foldl_cons, List.foldl_nil, hc]
      rfl
    · intro j hj hne
      rw [hothers j (List.mem_range.1 hj) hne]

/-! ### Tally and Sentinel (R226 to R243) -/

/-- The lower of a match and what was lowest before it. -/
theorem lowestHit_append (l : List (Nat × Element)) (x : Nat × Element) :
    lowestHit (l ++ [x]) = some (match lowestHit l with
      | none => x
      | some b => if x.2.addr.toNat < b.2.addr.toNat then x else b) := by
  rw [lowestHit, List.foldl_append, List.foldl_cons, List.foldl_nil, ← lowestHit]
  cases lowestHit l with
  | none => rfl
  | some b =>
    dsimp only
    split <;> rfl

theorem lowestHit_least (l : List (Nat × Element)) :
    ∀ x, lowestHit l = some x → x ∈ l ∧ ∀ y ∈ l, x.2.addr.toNat ≤ y.2.addr.toNat := by
  induction l using List.reverseRecOn with
  | nil => intro x h; cases h
  | append_singleton l z ih =>
    intro x h
    rw [lowestHit_append] at h
    cases hl : lowestHit l with
    | none =>
      have hnil : l = [] := by
        rcases List.eq_nil_or_concat l with h | ⟨l', a, rfl⟩
        · exact h
        · rw [List.concat_eq_append, lowestHit_append] at hl
          cases hl
      obtain rfl : z = x := by simpa [hl] using h
      simp [hnil]
    | some b =>
      obtain ⟨hb, hmin⟩ := ih b hl
      rw [hl] at h
      dsimp only at h
      simp only [List.mem_append, List.mem_singleton]
      split at h
      next hlt =>
        obtain rfl := Option.some.inj h
        exact ⟨.inr rfl, fun y hy => hy.elim (fun hy => le_trans (le_of_lt hlt) (hmin y hy)) (fun hy => hy ▸ le_refl _)⟩
      next hge =>
        obtain rfl := Option.some.inj h
        exact ⟨.inl hb, fun y hy => hy.elim (hmin y) (fun hy => hy ▸ not_lt.1 hge)⟩

/-- A match that comes with any other leaves a lowest. -/
theorem lowestHit_isSome {l : List (Nat × Element)} (h : l ≠ []) : ∃ x, lowestHit l = some x := by
  obtain ⟨l', a, rfl⟩ := (List.eq_nil_or_concat l).resolve_left h
  exact ⟨_, by rw [List.concat_eq_append, lowestHit_append]⟩

/-- Settles O35. -/
theorem tallyRowsComplete : Obligations.TallyRowsComplete := by
  unfold Obligations.TallyRowsComplete
  refine ⟨?part, ?sentinel, ?lowest, ?collect⟩
  case part =>
    intro cmd part readErr s r p hr hp
    refine ⟨fun hact hend hans => ?_, fun hnot => ?_⟩
    all_goals
      dsimp only [Done, exec, execTallyPartEnd]
      rw [hr]
      dsimp only
      rw [hp]
      dsimp only
    · rw [if_pos ⟨hact, by simp [hend], hans⟩]
    · rw [if_neg]
      rintro ⟨hact, hend, hans⟩
      rcases hnot with h | h | h
      · exact Bool.false_ne_true (h.symm.trans hact)
      · simp [h] at hend
      · exact Bool.false_ne_true (h.symm.trans hans)
  case sentinel =>
    intro die tap e w s hok he hits m
    have hrow : ¬ ((!engOk die tap e) = true ∨ (!decide (e = 1 ∨ e = 2)) = true) := by simp [hok, he]
    refine ⟨fun hnil => ?_, fun hne hvalid => ?_, fun kind x hlow hclear => ?_⟩
    · dsimp only [Inert, exec, execSentinelMatch]
      rw [if_neg hrow, show sentinelHits s.m die tap (e - 1) w = [] from hnil]
      rfl
    · obtain ⟨⟨kind, x⟩, hlow⟩ := lowestHit_isSome hne
      dsimp only [Done, exec, execSentinelMatch]
      rw [if_neg hrow, hlow]
      dsimp only
      rw [if_pos hvalid]
    · dsimp only [Done, exec, execSentinelMatch]
      rw [if_neg hrow, hlow]
      dsimp only
      rw [if_neg hclear]
  case lowest => exact fun l kind x h => lowestHit_least l (kind, x) h
  case collect =>
    intro die s hd hu m
    dsimp only [Done, exec, execFirstFaultCollect]
    rw [if_neg (not_le.2 hd), if_pos hu]

/-! ### Trace (R253 to R279) -/

/-- Settles O36. -/
theorem traceRowsComplete : Obligations.TraceRowsComplete := by
  unfold Obligations.TraceRowsComplete
  refine ⟨?sample, ?outside, ?header, ?horizon, ?spill, ?discard⟩
  case sample =>
    intro die tap k x y s hok t hk hy hscope hpass m0 m
    refine ⟨fun hskip => ?_, fun htake => ?_⟩
    all_goals
      dsimp only [Done, exec, execTapTraceRecord]
      rw [if_neg (by simp [hok]), hk]
      dsimp only
      rw [hy]
      dsimp only
      rw [if_neg (by simp [hscope, hpass])]
    · rw [if_pos (bne_iff_ne.2 hskip)]
    · rw [if_neg (by rw [bne_iff_ne, not_not]; exact htake)]
  case outside =>
    intro die tap x s hok hout
    dsimp only [Inert, exec, execTapTraceRecord]
    rw [if_neg (by simp [hok])]
    split
    next => rfl
    next k hk =>
      rw [if_pos]
      cases hy : stream s.m k with
      | none => simp
      | some y => rcases hout k y hk hy with h | h <;> simp [h]
  case header =>
    intro die port x s hd hp k hen hrec hdir hvc
    dsimp only [Done, exec, execLinkTraceRecord]
    rw [if_neg (by omega), if_neg]
    simp only [hen, hdir, hvc, show records s.m die (sf s.m die R.STN_TRC_LINK_SLOT port) (repNow s.m die) = true from hrec]
    simp
  case horizon =>
    intro die slot h s hd hh
    refine ⟨fun hpass => ?_, fun hwait => ?_⟩
    · simp [Done, exec, execHorizonClose, not_le.2 hd, hh, hpass]
    · simp [Inert, exec, execHorizonClose, not_le.2 hd, hh, hwait]
  case spill =>
    intro die slot x s hd hx hmode hspill hans
    have hcan : (x.mode == 2 || (x.mode == 3 && hostRoom s.m x)) && !(spillable s.m die slot).isEmpty && stnAnswers s.m die := by
      simpa [hspill, hans] using hmode
    refine ⟨fun hdue => ?_, fun hgap => ?_⟩
    · dsimp only [Done, exec, execSpillBurst]
      rw [if_neg (not_le.2 hd), hx]
      dsimp only
      rw [if_pos (by rw [hcan, hdue]; rfl)]
    · dsimp only [Inert, exec, execSpillBurst]
      rw [if_neg (not_le.2 hd), hx]
      dsimp only
      rw [if_neg (by rw [hgap]; simp)]
  case discard =>
    intro slot s x g hx hg hpresent hnone hdue
    have hbusy : s.m.cmds.any (fun c => c.op == 0x0604 && c.aux.head? == some slot) = false := by
      rw [List.any_eq_false]
      intro c hc h
      simp only [Bool.and_eq_true, beq_iff_eq] at h
      exact hnone c hc h.1 h.2
    simp [Done, exec, execMergeDiscard, hx, hg, hpresent, hbusy, hdue]

end Sys2Proof.Machine

/-! PROOFS. The steps of Routines, the triggers and the Sessions' events. -/

namespace Sys2Proof.Machine

/-! ### Steps of Routines (R290 to R301) -/

/-- Settles O37: a step at its boundary is counted and acts by its opcode. -/
theorem routineStepsComplete : Obligations.RoutineStepsComplete := by
  unfold Obligations.RoutineStepsComplete
  refine ⟨?command, ?peek, ?trace, ?end_, ?wait, ?waited, ?set, ?dec, ?skip, ?jump, ?event, ?bcast, ?done⟩
  case command =>
    intro s run op r y x hlo hhi h hn
    have hop : [2, 3, 4, 5, 6, 7, 8, 9, 10].contains op = true := by
      simp only [List.contains_eq_mem, List.mem_cons, List.not_mem_nil, or_false, decide_eq_true_eq]
      omega
    dsimp only [Done, exec, execRoutineCommandStep]
    exact stepRow_taken h hop hn
  case peek =>
    intro s run r y x h hn
    dsimp only [Done, exec, execPeekToScratch]
    exact stepRow_taken h rfl hn
  case trace =>
    intro s run r y x h hn
    dsimp only [Done, exec, execTraceCtl]
    exact stepRow_taken h rfl hn
  case end_ =>
    intro s run r y x h hn
    dsimp only [Done, exec, execRtnEnd]
    exact stepRow_taken h rfl hn
  case wait =>
    intro s run r y x h hn
    dsimp only [Done, exec, execWaitTick]
    exact stepRow_taken h rfl hn
  case waited =>
    intro s run t r hr hw ht
    simp [Done, exec, execWaitTickDone, hr, hw, ht]
  case set =>
    intro s run r y x h hn
    dsimp only [Done, exec, execSetCounter]
    exact stepRow_taken h rfl hn
  case dec =>
    intro s run r y x h hn
    dsimp only [Done, exec, execDecSkip]
    exact stepRow_taken h rfl hn
  case skip =>
    intro s run r y x h hn
    dsimp only [Done, exec, execSkipIf]
    exact stepRow_taken h rfl hn
  case jump =>
    intro s run r y x h hn
    dsimp only [Done, exec, execJump]
    exact stepRow_taken h rfl hn
  case event =>
    intro s run r y x h hn
    dsimp only [Done, exec, execRoutineEvent]
    exact stepRow_taken h rfl hn
  case bcast =>
    intro s run r y x h sc hdark hlevel hmoved hn
    have hst : firstStatus [(scopeDark (stepTaken s.m run x) sc, St.unitDark),
        (!scopeLevel (stepTaken s.m run x) (stepIssuer (runTaken r x)) sc 2, St.notAuthorised),
        (scopeMoved (stepTaken s.m run x) sc, St.bindingMoved)] St.ok = 0 := by
      rw [hdark, hlevel, hmoved]
      rfl
    dsimp only [Done, exec, execBcastWrite]
    rw [stepRow_taken h rfl hn, hst, if_pos rfl, if_pos rfl]
  case done =>
    intro s run st detail r y hr hres hy x
    have row (h : ¬ (x.op = 11 ∧ bcastWaits s.m r = true)) : Done (.routineStepDone run) s
        (endStep (if x.op == 12 && st == 0 then
            updRoutine s.m r.routine r.sid (fun y => scratchWrite y (x.b % 2 ^ 16) (wordsBytes detail)) else s.m) run st
          (if x.op == 12 then [] else wordsBytes detail) x.cont (some (r.pc + 1))) := by
      dsimp only [Done, exec, execRoutineStepDone]
      rw [hr]
      dsimp only
      rw [hres, hy]
      dsimp only
      rw [if_neg h]
    refine ⟨fun h11 h12 => ?_, fun h11 hleft => ?_, fun h11 hwait => ?_, fun h12 hst => ?_, fun h12 hst => ?_⟩
    · simpa [h12] using row (fun h => h11 h.1)
    · simpa [h11] using row (fun h => Bool.false_ne_true (hleft.symm.trans h.2))
    · dsimp only [Inert, exec, execRoutineStepDone]
      rw [hr]
      dsimp only
      rw [hres, hy]
      dsimp only
      rw [if_pos ⟨h11, hwait⟩]
    · simpa [h12, hst] using row (fun h => by omega)
    · simpa [h12, hst] using row (fun h => by omega)

/-! ### Triggers and runs -/

theorem nbit_setBit_same (v i : Nat) : nbit (setBit v i) i = true := by
  rw [nbit_eq_testBit, setBit, Nat.testBit_or, Nat.one_shiftLeft, Nat.testBit_two_pow_self, Bool.or_true]

/-- A queued run whose Routine has its room begins, or ends where its page-in fails. -/
theorem execRoutineRunStart_paged {s : State} {m : Mach} {r : Run} {y : Routine}
    (hr : s.m.rtn.runs.find? (fun r => !r.executing &&
      !(s.m.rtn.runs.any (fun x => x.executing && x.routine == r.routine && x.sid == r.sid))) = some r)
    (hn : (s.m.rtn.runs.filter (fun x => x.executing)).length < 8) (hy : routineOf s.m r.routine r.sid = some y)
    (hm : (if y.resident then some s.m else makeRoom s.m) = some m) :
    Done .routineRunStart s
      (if (pageRoutine m y).1 then beginRun (pageRoutine m y).2 r else finishRun (pageRoutine m y).2 r St.malformed) := by
  dsimp only [Done, exec, execRoutineRunStart]
  rw [hr]
  dsimp only
  rw [if_neg (not_le.2 hn), hy]
  dsimp only
  rw [hm]

/-- Settles O38. -/
theorem triggerRowsComplete : Obligations.TriggerRowsComplete := by
  unfold Obligations.TriggerRowsComplete
  refine ⟨?resident, ?absent, ?kept, ?periodic, ?link, ?level, ?edge, ?rise, ?fall⟩
  case resident =>
    intro s r y hr hn hy hres
    exact execRoutineRunStart_paged hr hn hy (by rw [if_pos hres])
  case absent =>
    intro s r hr hn
    refine ⟨fun hgone => ?_, fun y hy hres => ⟨fun m hm => ?_, fun hm => ?_⟩⟩
    · dsimp only [Done, exec, execRoutineRunStart]
      rw [hr]
      dsimp only
      rw [if_neg (not_le.2 hn), hgone]
    · exact execRoutineRunStart_paged hr hn hy (by rw [hres]; exact hm)
    · dsimp only [Inert, exec, execRoutineRunStart]
      rw [hr]
      dsimp only
      rw [if_neg (not_le.2 hn), hy]
      dsimp only
      rw [hres, if_neg Bool.false_ne_true, hm]
  case kept =>
    intro n stamp source s t ht hp hb
    simp [Done, exec, execPendingFiring, ht, hp, hb]
  case periodic =>
    intro n s t ht hsrc hahead hdue
    dsimp only [Done, exec, execPeriodicFiring]
    rw [ht]
    dsimp only
    rw [if_neg (not_le.2 hahead)]
    dsimp only
    rw [if_pos ⟨hsrc, hdue⟩]
  case link =>
    intro die port s hd hp
    dsimp only [Done, exec, execLinkLayerError]
    rw [if_neg (by omega)]
  case level =>
    intro pin s hp
    simp [Inert, exec, execTrigIn, not_le.2 hp]
  case edge =>
    intro pin level s hp hlevel key lv
    have hmoved : ¬ (nbit s.m.pins.trigIn pin == level) = true := by
      rw [hlevel]
      cases level <;> simp
    refine ⟨fun hfar => ?_, fun hnear => ?_⟩
    · have hnone : s.m.pins.lastEdge.any (fun e => e.1 == 2 * pin + b2n level && decide (gtcNow s.m - 8 < e.2 + 100)) = false := by
        rw [List.any_eq_false]
        intro e he h
        simp only [Bool.and_eq_true, beq_iff_eq, decide_eq_true_eq] at h
        exact absurd (hfar e he h.1) (not_le.2 h.2)
      dsimp only [Done, exec, execTrigIn]
      rw [if_neg (not_le.2 hp), if_neg hmoved, hnone]
      rfl
    · have hany : s.m.pins.lastEdge.any (fun e => e.1 == 2 * pin + b2n level && decide (gtcNow s.m - 8 < e.2 + 100)) = true := by
        rw [List.any_eq_true]
        obtain ⟨e, he, hk, ht⟩ := hnear
        exact ⟨e, he, by simp only [Bool.and_eq_true, beq_iff_eq, decide_eq_true_eq]; exact ⟨hk, ht⟩⟩
      dsimp only [Done, exec, execTrigIn]
      rw [if_neg (not_le.2 hp), if_neg hmoved, hany]
      rfl
  case rise =>
    intro pin s hp hiso hdue
    have hne : (s.m.pins.trigStart.filter (fun x => x.1 == pin && decide (x.2 ≤ gtcNow s.m))).isEmpty = false := by
      rw [List.isEmpty_eq_false_iff, Ne, List.filter_eq_nil_iff]
      simpa using hdue
    refine ⟨{ s.m with pins := { s.m.pins with
      trigOut := setBit s.m.pins.trigOut pin,
      trigEnd := Store.put 0 s.m.pins.trigEnd pin
        ((s.m.pins.trigStart.filter (fun x => x.1 == pin && decide (x.2 ≤ gtcNow s.m))).foldl
          (fun a x => Nat.max a (x.2 + 1000)) (Store.get 0 s.m.pins.trigEnd pin)),
      trigStart := s.m.pins.trigStart.filter (fun x => !(x.1 == pin && decide (x.2 ≤ gtcNow s.m))) } },
      ?_, nbit_setBit_same _ _, rfl⟩
    dsimp only [Done, exec, execTrigOutStart]
    rw [if_neg (not_le.2 hp), if_neg (by rw [hne, hiso]; simp)]
  case fall =>
    intro pin s hp hout hend
    simp [Done, exec, execTrigOutEnd, not_le.2 hp, hout, hend]

/-! ### Sessions (R338 to R343, R508) -/

/-- Settles O39. -/
theorem sessionEventsComplete : Obligations.SessionEventsComplete := by
  unfold Obligations.SessionEventsComplete
  refine ⟨?silent, ?inTime, ?retry, ?coalesced, ?access, fun h s => rfl, ?record⟩
  case silent =>
    intro port h s x t hx ht hopen hend hdue
    simp [Done, exec, execSessionTimeout, hx, ht, hopen, hend, hdue]
  case inTime =>
    intro port h s x t hx ht hearly
    simp [Inert, exec, execSessionTimeout, hx, ht, not_le.2 hearly]
  case retry =>
    intro h s
    dsimp only [Done, exec, execEqRetry, List.foldl_cons, List.foldl_nil]
  case coalesced =>
    intro h s x t hx hdue ht
    simp [Done, exec, execCoalesceEnd, hx, hdue, ht]
  case access =>
    intro h s c hc
    simp only [Done, exec, execDmaFailure, hc]
  case record =>
    intro h s hx
    simp [Done, exec, execDmaFailure, hx]

end Sys2Proof.Machine

/-! PROOFS. Register accesses. -/

namespace Sys2Proof.Machine

/-! ### Writes of the hub's window (R9 to R11, R34 to R37) -/

section
variable {s : State} (hi : s.m.peer.isolated = false) {off : Nat} (v : W64) (hlt : off < 65536) (hal : off % 8 = 0)
  (h1 : off ≠ 0x0418) (h2 : off ≠ 0x0458) (h3 : off ≠ 0x0D18)
include hi hlt hal h1 h2 h3

theorem registerWrite_whole : Done (.registerWrite off 8 v) s (hubStore (setCaptured s.m off none) off v.toNat (2 ^ 64 - 1)) := by
  have hb : off - off % 8 = off := by omega
  have hw : accessWidthOk off 8 = true := by simp [accessWidthOk, hlt, hal]
  have h := registerWrite_stores v hi hw (by rwa [hb]) (by rwa [hb]) (by rwa [hb])
  rwa [hb, writtenBits_whole v hal, show accessMask off 8 = 2 ^ 64 - 1 from rfl] at h

theorem registerWrite_low :
    Done (.registerWrite off 4 v) s (hubStore (setCaptured s.m off none) off (v.toNat &&& (2 ^ 32 - 1)) (2 ^ 32 - 1)) := by
  have hb : off - off % 8 = off := by omega
  have hw : accessWidthOk off 4 = true := by
    simp [accessWidthOk, hlt]
    omega
  have hm : accessMask off 4 = 2 ^ 32 - 1 := by simp [accessMask, hal]
  have h := registerWrite_stores v hi hw (by rwa [hb]) (by rwa [hb]) (by rwa [hb])
  rwa [hb, writtenBits, if_pos hal, hm] at h

theorem registerWrite_high :
    Done (.registerWrite (off + 4) 4 v) s
      (hubStore (setCaptured s.m off none) off (v.toNat * 2 ^ 32 &&& (2 ^ 64 - 2 ^ 32)) (2 ^ 64 - 2 ^ 32)) := by
  have hb : off + 4 - (off + 4) % 8 = off := by omega
  have hodd : ¬ (off + 4) % 8 = 0 := by omega
  have hw : accessWidthOk (off + 4) 4 = true := by
    simp [accessWidthOk]
    omega
  have hm : accessMask (off + 4) 4 = 2 ^ 64 - 2 ^ 32 := by simp [accessMask, hodd]
  have h := registerWrite_stores v hi hw (by rwa [hb]) (by rwa [hb]) (by rwa [hb])
  rwa [hb, writtenBits, if_neg hodd, hm] at h

end

/-- The three offsets whose write acts: IF_CTL, the doorbell and RTN_DOORBELL. -/
theorem registerWrite_acts (v : W64) {s : State} (hi : s.m.peer.isolated = false) :
    execRegisterWrite 0x0418 8 v s = execIfCtlEnable v { s with m := setCaptured s.m 0x0418 none } ∧
    execRegisterWrite 0x0458 8 v s = execDoorbell 8 v { s with m := setCaptured s.m 0x0458 none } ∧
    execRegisterWrite 0x0D18 8 v s = execRtnDoorbell v { s with m := setCaptured s.m 0x0D18 none } := by
  have hx : BitVec.ofNat 64 (v.toNat &&& (2 ^ 64 - 1)) = v := by
    rw [Nat.and_two_pow_sub_one_of_lt_two_pow v.isLt, BitVec.ofNat_toNat, BitVec.setWidth_eq]
  refine ⟨?_, ?_, ?_⟩
  · rw [execRegisterWrite, if_neg (by simp [hi]), if_neg (by decide)]
    exact (if_pos (by decide)).trans (congrArg (execIfCtlEnable · _) hx)
  · rw [execRegisterWrite, if_neg (by simp [hi]), if_neg (by decide)]
    exact (if_neg (by decide)).trans (if_pos (by decide))
  · rw [execRegisterWrite, if_neg (by simp [hi]), if_neg (by decide)]
    exact (if_neg (by decide)).trans ((if_neg (by decide)).trans ((if_pos (by decide)).trans (congrArg (execRtnDoorbell · _) hx)))

/-! ### The doorbell and the enable (R321, R335) -/

section
variable {s : State} (hi : s.m.peer.isolated = false) (v : W64)
include hi

theorem doorbell_disabled (he : hf s.m R.IF_STATUS_ENABLED = 0) : Done (.doorbell 8 v) s (fenceAll s.m) := by
  simp [Done, exec, execDoorbell, hi, he]

theorem doorbell_stale (he : hf s.m R.IF_STATUS_ENABLED ≠ 0) (hh : handleCurrent s.m 0 (BitVec.ofNat 32 (fld v 0 32)) = false) :
    Done (.doorbell 8 v) s (fenceAll (incIfErr s.m R.IF_ERR_BAD_DOORBELL)) := by
  simp [Done, exec, execDoorbell, hi, he, hh, badDoorbell]

theorem doorbell_width {size : Nat} (h : size ≠ 8) : Done (.doorbell size v) s (fenceAll (incIfErr s.m R.IF_ERR_BAD_DOORBELL)) := by
  simp [Done, exec, execDoorbell, hi, h]

theorem doorbell_known {x : Session} (he : hf s.m R.IF_STATUS_ENABLED ≠ 0)
    (hh : handleCurrent s.m 0 (BitVec.ofNat 32 (fld v 0 32)) = true)
    (hx : s.m.host.sessions.find? (fun y => y.sid == sidOf .host (BitVec.ofNat 32 (fld v 0 32))) = some x) :
    Done (.doorbell 8 v) s (fenceAll (knownDoorbell s.m x (fld v 32 32))) := by
  simp [Done, exec, execDoorbell, hi, he, hh, hx]

theorem doorbell_first (he : hf s.m R.IF_STATUS_ENABLED ≠ 0) (hh : handleCurrent s.m 0 (BitVec.ofNat 32 (fld v 0 32)) = true)
    (hx : s.m.host.sessions.find? (fun y => y.sid == sidOf .host (BitVec.ofNat 32 (fld v 0 32))) = none) :
    Done (.doorbell 8 v) s (fenceAll (firstDoorbell s.m (BitVec.ofNat 32 (fld v 0 32)) (fld v 32 32))) := by
  simp [Done, exec, execDoorbell, hi, he, hh, hx]

end

/-- Settles O21. -/
theorem registerAccessesComplete : Obligations.RegisterAccessesComplete := by
  unfold Obligations.RegisterAccessesComplete
  refine ⟨?isolated, ?read, ?badRead, ?badWrite, ?write, ?acting, ?disabled, ?stale, ?width, ?known, ?first, ?enable, ?disable, ?tod,
    ?routine, ?clear, ?kept, ?mark⟩
  case isolated =>
    intro off size v s hi i hmem
    simp only [List.mem_cons, List.not_mem_nil, or_false] at hmem
    rcases hmem with rfl | rfl | rfl | rfl | rfl | rfl
    all_goals
      dsimp only [Inert, exec, execRcRead, execRegisterWrite, execDoorbell, execIfCtlEnable, execTodArm, execRtnDoorbell]
      exact if_pos hi
  case read =>
    intro off size s hi hw
    dsimp only [Done, exec, execRcRead]
    rw [if_neg (by simp [hi]), if_pos hw]
  case badRead =>
    intro off size s hi hw
    dsimp only [Done, exec, execRcRead]
    rw [if_neg (by simp [hi]), if_neg (by simp [hw])]
  case badWrite => exact fun off size v s hi hw => registerWrite_badAccess v hi hw
  case write =>
    exact fun off v s hi hlt hal h1 h2 h3 => ⟨registerWrite_whole hi v hlt hal h1 h2 h3, registerWrite_low hi v hlt hal h1 h2 h3,
      registerWrite_high hi v hlt hal h1 h2 h3⟩
  case acting =>
    intro v s hi
    dsimp only [exec]
    exact registerWrite_acts v hi
  case disabled => exact fun v s hi he => doorbell_disabled hi v he
  case stale => exact fun v s hi he hh => doorbell_stale hi v he hh
  case width => exact fun size v s hi h => doorbell_width hi v h
  case known => exact fun v s x hi he hh hx => doorbell_known hi v he hh hx
  case first => exact fun v s hi he hh hx => doorbell_first hi v he hh hx
  case enable =>
    intro v s hi hwas hset hrsvd m a r hroot
    dsimp only [Done, exec, execIfCtlEnable]
    rw [if_neg (by simp [hi]), if_pos hrsvd, if_pos ⟨hwas, hset⟩, hset]
    rw [if_pos hroot]
  case disable =>
    intro v s hi hwas hset hrsvd m
    dsimp only [Done, exec, execIfCtlEnable]
    rw [if_neg (by simp [hi]), if_pos hrsvd, if_neg (by omega), if_pos ⟨hwas, hset⟩, hset]
  case tod =>
    intro v s hi
    dsimp only [Done, exec, execTodArm]
    rw [if_neg (by simp [hi])]
  case routine =>
    intro v s hi
    dsimp only [Done, exec, execRtnDoorbell]
    exact if_neg (by simp [hi])
  case clear =>
    intro die tap j v s ht hj hv
    simp [Done, exec, execTapSntFirstClear, ht, not_le.2 hj, hv]
  case kept =>
    intro die tap j v s ht hj hv
    simp [Inert, exec, execTapSntFirstClear, ht, not_le.2 hj, hv]
  case mark =>
    intro die tap v s ht
    simp [Done, exec, execTapTrcMark, ht, writeMark]

end Sys2Proof.Machine

/-! PROOFS. Host commands: how a command at the front of its lane completes; the health commands. -/

namespace Sys2Proof.Machine

/-- A host row at the front of its lane completes as its effect on the machine from which its packet was taken. -/
theorem hostRow_completes {op : Nat} {p : Pkt} {s : State} {f : Mach → Issuer → Mach} {n : Mach} (h : hostFront op p s.m = true)
    (hn : f (hostTaken s.m p) (hostIssuer p) = n) : hostRow op p s f = .next { s with m := hostAfter n p } := by
  rw [hostRow_front h, hn]

/-! ### Health (R495) -/

/-- A list of records whose buffer passes its checks, for an issuer that observes some partition, is answered. -/
theorem doHealthList_ok {m : Mach} {u : Issuer} {op size : Nat} {p : Pkt} {record : Nat → List Byte} {head : List W32}
    (hlen : p.body.length = 5) (hfirst : (wAt p.body 4).toNat ≤ 99)
    (hbuf : listBuf m u (wAt p.body 0) (w64At p.body 1) (wAt p.body 3).toNat false = 0) (hobs : observesAny m u = true) :
    doHealthList m u op p size record head =
      listReply m u op p (wAt p.body 0) (w64At p.body 1) (wAt p.body 3).toNat size
        (((List.range 100).drop (wAt p.body 4).toNat).map record) St.ok
        (fun n => head ++ w1 n ++ w1 ((wAt p.body 4).toNat + n)) := by
  have hform : (p.body.length != 5 || decide (99 < (wAt p.body 4).toNat)) = false := by simp [hlen, hfirst]
  unfold doHealthList
  dsimp only
  rw [hform, hbuf, hobs]
  rfl

/-- Settles O20. -/
theorem healthCommandsComplete : Obligations.HealthCommandsComplete := by
  unfold Obligations.HealthCommandsComplete
  constructor
  · intro p s h hlen hfirst hbuf hobs
    dsimp only [HostDone, Done, exec, execHealthRead]
    exact hostRow_completes h (doHealthList_ok hlen hfirst hbuf hobs)
  · intro p s h hlen hfirst hbuf hobs
    dsimp only [HostDone, Done, exec, execEolRead]
    refine hostRow_completes h ?_
    dsimp only [doEolRead]
    rw [doHealthList_ok hlen hfirst hbuf hobs]

end Sys2Proof.Machine

/-! PROOFS. Host commands: Sessions, run control and inspection. -/

namespace Sys2Proof.Machine

/-- The Session found under a number after an update that keeps numbers and closure is the one found before, or its update. -/
theorem sessOf_updSess {g : Session → Session} (m : Mach) (a b : Nat)
    (hg : ∀ x : Session, (g x).sid = x.sid ∧ (g x).closed = x.closed) :
    sessOf (updSess m a g) b = (sessOf m b).map (fun x => if x.sid == a && !x.closed then g x else x) := by
  have hkey : ((fun x : Session => x.sid == b && !x.closed) ∘ fun x => if x.sid == a && !x.closed then g x else x) =
      fun x => x.sid == b && !x.closed := by
    funext x
    dsimp only [Function.comp]
    split
    · rw [(hg x).1, (hg x).2]
    · rfl
  dsimp only [sessOf, updSess]
  rw [List.find?_map, hkey]

/-- Taking a packet from its lane opens no Session and closes none. -/
theorem sessOf_hostTaken_open (m : Mach) (p : Pkt) (sid : Nat) :
    (sessOf (hostTaken m p) sid).map (fun x => x.open_) = (sessOf m sid).map (fun x => x.open_) := by
  unfold hostTaken
  split
  · rfl
  · rw [sessOf_updSess m _ _ (by intro x; exact ⟨rfl, rfl⟩), Option.map_map]
    congr 1
    funext x
    dsimp only [Function.comp]
    split <;> rfl

/-- The issuer of a packet that did not come from the firmware is its Session. -/
theorem hostIssuer_of_ne {p : Pkt} (h : p.port ≠ .firmware) :
    hostIssuer p = { origin := .session (pktSid p), sess := pktSid p, port := p.port } := if_neg h

/-! ### Sessions (Table 10.9) -/

/-- OPEN_SESSION through a ring whose Session is not open opens it. -/
theorem doOpen_ring {m : Mach} {i : Issuer} {p : Pkt} (hlen : p.body.length = 9) (hport : onPort i = false)
    (hopen : ((sessOf m i.sess).map (fun x => x.open_)).getD false = false) :
    doOpen m i p = answer (openRing m i.sess (wAt p.body 8).toNat (openGrants m i.port (partMapAt p.body 0))) i 0x0101 p.cookie St.ok
      (leWords 8 (grantMap (openGrants m i.port (partMapAt p.body 0))).toNat) := by
  unfold doOpen
  rw [if_neg (by simp [hlen]), if_neg (by simp [hport, hopen])]
  dsimp only
  rw [if_neg (by simp [hport])]

/-- OPEN_SESSION on a port with no Session opens one under the port's next handle. -/
theorem doOpen_port {m : Mach} {i : Issuer} {p : Pkt} (hlen : p.body.length = 9) (hport : onPort i = true)
    (hnone : portSess m i.port = none) (hopen : ((sessOf m i.sess).map (fun x => x.open_)).getD false = false) :
    doOpen m i p =
      postRecord (openPort m i.port (wAt p.body 8).toNat (openGrants m i.port (partMapAt p.body 0))) (sidOf i.port (nextHandle m i.port))
        (completion (openPort m i.port (wAt p.body 8).toNat (openGrants m i.port (partMapAt p.body 0))) (nextHandle m i.port) 0x0101
          p.cookie St.ok (leWords 8 (grantMap (openGrants m i.port (partMapAt p.body 0))).toNat)) false := by
  unfold doOpen
  rw [if_neg (by simp [hlen]), if_neg (by simp [hport, hopen, hnone])]
  dsimp only
  rw [if_pos hport]

/-- A query of an object that is found and not denied answers its kind, state and slot. -/
theorem doQuery_object {m : Mach} {i : Issuer} {p : Pkt} {kind st slot : Nat} {h : W32} (hkind : kind ≤ 4)
    (hbody : p.body = [BitVec.ofNat 32 (2 + kind * 2 ^ 16), h]) (hobj : queryObject m i kind h = some (st, slot))
    (hden : queryDenied m i kind h = false) :
    doQuery m i p = answer m i 0x0105 p.cookie St.ok (w1 kind ++ w1 st ++ w1 slot) := by
  have hw0 : wAt p.body 0 = BitVec.ofNat 32 (2 + kind * 2 ^ 16) := by rw [hbody]; rfl
  have hw1 : wAt p.body 1 = h := by rw [hbody]; rfl
  have hcode : wfld (BitVec.ofNat 32 (2 + kind * 2 ^ 16)) 0 16 = 2 := by interval_cases kind <;> decide
  have hk : wfld (BitVec.ofNat 32 (2 + kind * 2 ^ 16)) 16 3 = kind := by interval_cases kind <;> decide
  have hres : wfld (BitVec.ofNat 32 (2 + kind * 2 ^ 16)) 19 13 = 0 := by interval_cases kind <;> decide
  unfold doQuery
  rw [hw0, hw1]
  dsimp only
  rw [hcode, hk, hres, if_neg (by simp [hbody, hkind]), hobj]
  dsimp only
  rw [hden]
  rfl

/-- Settles O8. -/
theorem sessionCommandsComplete : Obligations.SessionCommandsComplete := by
  unfold Obligations.SessionCommandsComplete
  refine ⟨?_, ?_, ?_, ?_, ?_, ?_, ?_, ?_⟩
  · intro p s h hport hlen hclosed
    have hissuer := hostIssuer_of_ne (p := p) (by rw [hport]; decide)
    have hopen : ((sessOf (hostTaken s.m p) (pktSid p)).map (fun x => x.open_)).getD false = false := by
      rw [sessOf_hostTaken_open]
      cases hs : sessOf s.m (pktSid p) with
      | none => rfl
      | some x =>
        rw [hs] at hclosed
        simpa using hclosed
    dsimp only [HostDone, Done, exec, execOpenSession]
    refine hostRow_completes h ?_
    rw [hissuer, doOpen_ring hlen (by rw [hport]; rfl) hopen, hport]
  · intro p s h hport hlen hnone hclosed
    have hissuer := hostIssuer_of_ne (p := p) (by rcases hport with hp | hp <;> rw [hp] <;> decide)
    have hopen : ((sessOf (hostTaken s.m p) (pktSid p)).map (fun x => x.open_)).getD false = false := by
      cases hs : sessOf (hostTaken s.m p) (pktSid p) with
      | none => rfl
      | some x =>
        rw [hs] at hclosed
        simpa using hclosed
    dsimp only [HostDone, Done, exec, execOpenSession]
    refine hostRow_completes h ?_
    rw [hissuer, doOpen_port hlen (by rcases hport with hp | hp <;> rw [hp] <;> rfl) hnone hopen]
  · intro p s h hbody
    dsimp only [HostDone, Done, exec, execCloseSession]
    refine hostRow_completes h ?_
    dsimp only [doClose]
    rw [if_neg (by simp [hbody])]
  · intro p s h hbody
    dsimp only [HostDone, Done, exec, execFence]
    refine hostRow_completes h ?_
    dsimp only [doFence]
    rw [if_neg (by simp [hbody]), hbody]
  · intro p s h hbody
    dsimp only [HostAnswers, HostDone, Done, exec, execNopCmd]
    refine hostRow_completes h ?_
    dsimp only [doNop]
    rw [if_neg (by simp [hbody])]
  · intro p s h hbody
    have hw : wAt p.body 0 = 0 ∧ wAt p.body 1 = 0 := by rw [hbody]; exact ⟨rfl, rfl⟩
    dsimp only [HostAnswers, HostDone, Done, exec, execQuery]
    refine hostRow_completes h ?_
    dsimp only [doQuery]
    rw [hw.1, hw.2, if_neg (by rw [hbody]; decide)]
    rfl
  · intro p s h hbody
    have hw : wAt p.body 0 = 1 ∧ wAt p.body 1 = 0 := by rw [hbody]; exact ⟨rfl, rfl⟩
    dsimp only [HostAnswers, HostDone, Done, exec, execQuery]
    refine hostRow_completes h ?_
    dsimp only [doQuery]
    rw [hw.1, hw.2, if_neg (by rw [hbody]; decide)]
    rfl
  · intro p s kind st slot hd h hkind hbody hobj hden
    dsimp only [HostAnswers, HostDone, Done, exec, execQuery]
    exact hostRow_completes h (doQuery_object hkind hbody hobj hden)

/-! ### Run control (Table 4.12) -/

/-- HALT that passes its checks starts its halt. -/
theorem doHalt_ok {m : Mach} {i : Issuer} {p : Pkt} (hlen : p.body.length = 7) (hscope : scopeOk m p.body 0 = true)
    (hflags : (wAt p.body 6).toNat < 8) (himm : nbit (wAt p.body 6).toNat 0 = true → (scopeAt m p.body 0).kind ≠ 6)
    (hst : waypointStatus m i (scopeAt m p.body 0) 2 (leadOf (scopeAt m p.body 0).kind)
      (if nbit (wAt p.body 6).toNat 0 then 0 else w64At p.body 4) (if nbit (wAt p.body 6).toNat 0 then 0 else 1) false false = 0) :
    doHalt m i p =
      (startHalt m i p.cookie p.body (scopeAt m p.body 0)
        (if nbit (wAt p.body 6).toNat 0 then 0 else resolveT m (leadOf (scopeAt m p.body 0).kind) (w64At p.body 4))
        (wAt p.body 6).toNat (if nbit (wAt p.body 6).toNat 0 then 6 else 5)).2 := by
  have hform : (p.body.length != 7 || !scopeOk m p.body 0 || decide (8 ≤ (wAt p.body 6).toNat) ||
      (nbit (wAt p.body 6).toNat 0 && (scopeAt m p.body 0).kind == 6)) = false := by
    simpa [hlen, hscope, hflags] using himm
  dsimp only [doHalt]
  rw [hform, hst]
  rfl

/-- RESUME that passes its checks starts its release. -/
theorem doResume_ok {m : Mach} {i : Issuer} {p : Pkt} (hlen : p.body.length = 7) (hscope : scopeOk m p.body 0 = true)
    (hflags : (wAt p.body 6).toNat < 2) (himm : nbit (wAt p.body 6).toNat 0 = true → (scopeAt m p.body 0).kind ≠ 6)
    (hstitch : stitchOverlaps m (scopeAt m p.body 0) = false)
    (hhalt : nbit (wAt p.body 6).toNat 0 = false → haltOverlaps m (scopeAt m p.body 0)
      (if nbit (wAt p.body 6).toNat 0 then 0 else resolveT m (leadOf (scopeAt m p.body 0).kind) (w64At p.body 4)) = false)
    (hst : waypointStatus m i (scopeAt m p.body 0) 2 (leadOf (scopeAt m p.body 0).kind)
      (if nbit (wAt p.body 6).toNat 0 then 0 else w64At p.body 4) (if nbit (wAt p.body 6).toNat 0 then 0 else 1) false false = 0) :
    doResume m i p =
      startResume m i p.cookie p.body (scopeAt m p.body 0)
        (if nbit (wAt p.body 6).toNat 0 then 0 else resolveT m (leadOf (scopeAt m p.body 0).kind) (w64At p.body 4)) false := by
  have hform : (p.body.length != 7 || !scopeOk m p.body 0 || decide (2 ≤ (wAt p.body 6).toNat) ||
      (nbit (wAt p.body 6).toNat 0 && (scopeAt m p.body 0).kind == 6)) = false := by
    simpa [hlen, hscope, hflags] using himm
  have hbusy : (stitchOverlaps m (scopeAt m p.body 0) || (!nbit (wAt p.body 6).toNat 0 && haltOverlaps m (scopeAt m p.body 0)
      (if nbit (wAt p.body 6).toNat 0 then 0 else resolveT m (leadOf (scopeAt m p.body 0).kind) (w64At p.body 4)))) = false := by
    rw [hstitch, Bool.false_or, Bool.and_eq_false_imp]
    intro hb
    exact hhalt (by simpa using hb)
  dsimp only [doResume]
  rw [hform, hbusy, hst]
  rfl

/-- STEP that passes its checks starts its step. -/
theorem doStep_ok {m : Mach} {i : Issuer} {p : Pkt} (hlen : p.body.length = 8) (hscope : scopeOk m p.body 0 = true)
    (hres : wfld (wAt p.body 6) 2 14 = 0)
    (hmode : wfld (wAt p.body 6) 0 2 = 0 ∧ (scopeAt m p.body 0).kind = 0 ∧ wfld (wAt p.body 6) 16 16 ≠ 0 ∨
      wfld (wAt p.body 6) 0 2 = 1 ∧ (scopeAt m p.body 0).kind = 1 ∧ wfld (wAt p.body 6) 16 16 ≠ 0 ∨
      wfld (wAt p.body 6) 0 2 = 2 ∧ (wAt p.body 7).toNat ≠ 0)
    (hstitch : stitchOverlaps m (scopeAt m p.body 0) = false)
    (hhalt : haltOverlaps m (scopeAt m p.body 0) (resolveT m (leadOf (scopeAt m p.body 0).kind) (w64At p.body 4)) = false)
    (hst : waypointStatus m i (scopeAt m p.body 0) 2 (leadOf (scopeAt m p.body 0).kind) (w64At p.body 4)
      (if wfld (wAt p.body 6) 0 2 = 2 then 2 else 1) false false = 0) :
    doStep m i p =
      startStep m i p (scopeAt m p.body 0) (resolveT m (leadOf (scopeAt m p.body 0).kind) (w64At p.body 4)) := by
  dsimp only [doStep]
  rw [hlen, hscope, hres, hstitch, hhalt]
  rcases hmode with ⟨hm, hk, hl⟩ | ⟨hm, hk, hl⟩ | ⟨hm, hn⟩
  · rw [hm] at hst ⊢
    rw [show ((scopeAt m p.body 0).kind != 0 || wfld (wAt p.body 6) 16 16 == 0) = false by simp [hk, hl]]
    exact if_neg (by rw [bne_iff_ne]; exact not_not_intro hst)
  · rw [hm] at hst ⊢
    rw [show ((scopeAt m p.body 0).kind != 1 || wfld (wAt p.body 6) 16 16 == 0) = false by simp [hk, hl]]
    exact if_neg (by rw [bne_iff_ne]; exact not_not_intro hst)
  · rw [hm] at hst ⊢
    rw [show ((wAt p.body 7).toNat == 0) = false by simpa using hn]
    exact if_neg (by rw [bne_iff_ne]; exact not_not_intro hst)

/-- HEADCOUNT that passes its checks starts its gathers. -/
theorem doHeadcount_ok {m : Mach} {i : Issuer} {p : Pkt} {routine : Bool} (hlen : p.body.length = 5)
    (hscope : scopeOk m p.body 0 = true) (hq : headcountQuery (wAt p.body 4).toNat = true)
    (hdark : scopeDark m (scopeAt m p.body 0) = false)
    (hlevel : if 0x32 ≤ (wAt p.body 4).toNat then ∃ k < 256, 1 ≤ issLevel m i k else scopeLevel m i (scopeAt m p.body 0) 1 = true)
    (hmoved : scopeMoved m (scopeAt m p.body 0) = false) :
    doHeadcount m i p routine = startHeadcount m i p (scopeAt m p.body 0) (wAt p.body 4).toNat routine := by
  have hl : (if decide (0x32 ≤ (wAt p.body 4).toNat) = true then (List.range 256).any (fun x => decide (1 ≤ issLevel m i x))
      else scopeLevel m i (scopeAt m p.body 0) 1) = true := by
    by_cases hw : 0x32 ≤ (wAt p.body 4).toNat
    · rw [if_pos hw] at hlevel
      obtain ⟨k, hk, hlev⟩ := hlevel
      rw [if_pos (decide_eq_true hw), List.any_eq_true]
      exact ⟨k, List.mem_range.mpr hk, decide_eq_true hlev⟩
    · rw [if_neg hw] at hlevel
      rw [if_neg (by simpa using hw), hlevel]
  dsimp only [doHeadcount]
  rw [hl, hscope, hq, hdark, hmoved, hlen]
  rfl

/-- Settles O9. -/
theorem runControlCommandsComplete : Obligations.RunControlCommandsComplete := by
  unfold Obligations.RunControlCommandsComplete
  refine ⟨?_, ?_, ?_, ?_⟩
  · intro p s h m sc flags imm hlen hscope hflags himm hst
    dsimp only [HostDone, Done, exec, execHaltCmd]
    exact hostRow_completes h (doHalt_ok hlen hscope hflags himm hst)
  · intro p s h m sc flags imm at_ hlen hscope hflags himm hstitch hhalt hst
    dsimp only [HostDone, Done, exec, execResumeCmd]
    exact hostRow_completes h (doResume_ok hlen hscope hflags himm hstitch hhalt hst)
  · intro p s h m sc w mode limit at_ hlen hscope hres hmode hstitch hhalt hst
    dsimp only [HostDone, Done, exec, execStepCmd]
    exact hostRow_completes h (doStep_ok hlen hscope hres hmode hstitch hhalt hst)
  · intro p s h m sc q hlen hscope hq hdark hlevel hmoved
    dsimp only [HostDone, Done, exec, execHeadcount]
    exact hostRow_completes h (doHeadcount_ok hlen hscope hq hdark hlevel hmoved)

/-! ### Inspection (Tables 4.9, 4.10, 4.12) -/

/-- PEEK and POKE that pass their checks answer at once with length 0, and else send their requests. -/
theorem doPeekPoke_ok {m : Mach} {i : Issuer} {p : Pkt} {poke routine : Bool}
    (hst : peekStatus m i p.body poke (if poke then 8 + peekLength p.body / 4 else 8) = 0) :
    doPeekPoke m i p poke routine =
      if peekLength p.body = 0 then answer m i (if poke then 0x0205 else 0x0204) p.cookie St.ok (if poke then w1 0 else [])
      else startPeek m i p poke routine := by
  dsimp only [doPeekPoke]
  rw [hst, if_neg (by decide)]

/-- SET_BREAK that passes its checks writes the images of its slot. -/
theorem doSetBreak_ok {m : Mach} {i : Issuer} {p : Pkt} {slot : Nat} (hslot : slot < 12) (hw : wAt p.body 3 = BitVec.ofNat 32 slot)
    (hlen : p.body.length = 10) (himg : imagesOk slot p.body = true) (hst : breakStatus m i p.body false = 0) :
    doSetBreak m i p =
      startWrites m i 0x0206 p (tapWrites (upDie (wAt p.body 0)) (upTap (wAt p.body 0)) (wAt p.body 1).toNat (wAt p.body 2).toNat
        (slotImages slot p.body)) := by
  have hs : (wAt p.body 3).toNat = slot := by
    rw [hw, BitVec.toNat_ofNat]
    omega
  have hform : (p.body.length != 10 || decide (11 < slot) || !imagesOk slot p.body) = false := by
    rw [hlen, himg]
    simpa using Nat.le_of_lt_succ hslot
  dsimp only [doSetBreak]
  rw [hs, hform, hst]
  rfl

/-- CLEAR_BREAK that passes its checks writes zeros to the slots of its mask. -/
theorem doClearBreak_ok {m : Mach} {i : Issuer} {p : Pkt} (hlen : p.body.length = 4) (hmask : (wAt p.body 3).toNat < 2 ^ 12)
    (hst : breakStatus m i p.body false = 0) :
    doClearBreak m i p =
      startWrites m i 0x0207 p (tapWrites (upDie (wAt p.body 0)) (upTap (wAt p.body 0)) (wAt p.body 1).toNat (wAt p.body 2).toNat
        ((bitsOf (wAt p.body 3).toNat 12).flatMap zeroImages)) := by
  have hform : (p.body.length != 4 || decide (2 ^ 12 ≤ (wAt p.body 3).toNat)) = false := by
    rw [hlen]
    simpa using hmask
  dsimp only [doClearBreak]
  rw [hform, hst]
  rfl

/-- A word of a body written from a number below 2^32 reads that number. -/
theorem wAt_toNat_of_getElem {b : List W32} {k n : Nat} (hb : b[k]? = some (BitVec.ofNat 32 n)) (hn : n < 2 ^ 32) :
    (wAt b k).toNat = n := by
  rw [wAt, hb, Option.getD_some, BitVec.toNat_ofNat, Nat.mod_eq_of_lt hn]

/-- SET_FREEZE of a mask and value of five bits each changes the hub's copy in the bits of the mask and sends it. -/
theorem doSetFreeze_ok {m : Mach} {i : Issuer} {p : Pkt} {part mask value : Nat} (hpart : part < 256) (hmask : mask < 32)
    (hvalue : value < 32)
    (hbody : p.body = [BitVec.ofNat 32 part, BitVec.ofNat 32 (epochOf m part), BitVec.ofNat 32 (mask + value * 2 ^ 8)])
    (hepoch : epochOf m part < 2 ^ 32) (hlevel : 2 ≤ issLevel m i part) :
    doSetFreeze m i p =
      startConfig (setHubCfg m part { hubCfg m part with
        freeze := ((hubCfg m part).freeze - ((hubCfg m part).freeze &&& mask)) ||| (value &&& mask) }) i 0x0208 p 1 part mask value := by
  have hlen : p.body.length = 3 := by rw [hbody]; rfl
  have hw0 : (wAt p.body 0).toNat = part := wAt_toNat_of_getElem (by rw [hbody]; rfl) (by omega)
  have hw1 : (wAt p.body 1).toNat = epochOf m part := wAt_toNat_of_getElem (by rw [hbody]; rfl) hepoch
  have hw2 : (wAt p.body 2).toNat = mask + value * 2 ^ 8 := wAt_toNat_of_getElem (by rw [hbody]; rfl) (by omega)
  have hm : nfld (mask + value * 2 ^ 8) 0 5 = mask := by
    rw [nfld, Nat.shiftRight_zero]
    omega
  have hv : nfld (mask + value * 2 ^ 8) 8 5 = value := by
    rw [nfld, Nat.shiftRight_eq_div_pow]
    omega
  dsimp only [doSetFreeze]
  rw [hw0, hw1, hw2, hm, hv, hlen, decide_eq_false (Nat.not_le.mpr hpart), decide_eq_false (Nat.not_lt.mpr hlevel),
    bne_self_eq_false (epochOf m part), bne_self_eq_false (mask + value * 2 ^ 8)]
  rfl

/-- Settles O10. -/
theorem inspectCommandsComplete : Obligations.InspectCommandsComplete := by
  unfold Obligations.InspectCommandsComplete
  refine ⟨?_, ?_, ?_, ?_, ?_⟩
  · intro p s h hst
    dsimp only [HostDone, Done, exec, execPeek]
    exact hostRow_completes h (doPeekPoke_ok hst)
  · intro p s h hst
    dsimp only [HostDone, Done, exec, execPoke]
    exact hostRow_completes h (doPeekPoke_ok hst)
  · intro p s slot h hslot hw hlen himg hst
    dsimp only [HostDone, Done, exec, execSetBreak]
    exact hostRow_completes h (doSetBreak_ok hslot hw hlen himg hst)
  · intro p s h hlen hmask hst
    dsimp only [HostDone, Done, exec, execClearBreak]
    exact hostRow_completes h (doClearBreak_ok hlen hmask hst)
  · intro p s part mask value h hpart hmask hvalue hbody hepoch hlevel
    dsimp only [HostDone, Done, exec, execSetFreeze]
    exact hostRow_completes h (doSetFreeze_ok hpart hmask hvalue hbody hepoch hlevel)

end Sys2Proof.Machine

/-! PROOFS. Host commands: dumps. -/

namespace Sys2Proof.Machine

/-- DUMP_PLAN that passes its checks answers with its plan, and with RESERVE and a slot takes the slot. -/
theorem doDumpPlan_reserve {m : Mach} {i : Issuer} {p : Pkt} {k : Nat} (hreserve : nbit (wAt p.body 5).toNat 0 = true)
    (hplan : dumpPlanPlan m i p.body = (0, [], some k)) :
    doDumpPlan m i p =
      let sc := scopeAt m p.body 0
      let pl := stitchPlan m sc (secureMap m i) (nbit (wAt p.body 5).toNat 1)
      let x : Dump := { state := 1, kind := sc.kind, part := sc.part, parts := sc.parts, sid := i.sess, handle := wAt p.body 4,
                        reserved := planReserve m k true pl, epochs := scopeEpochs m sc, job := if sc.kind = 6 then sc.unit else 0 }
      answer (setDump m k (some x)) i 0x0306 p.cookie St.ok (w1 k ++ planDetail m (dumpUse m i (wAt p.body 4)) pl) := by
  dsimp only [doDumpPlan]
  rw [hplan]
  dsimp only
  rw [if_neg (by decide), hreserve]

/-- DUMP_PLAN that passes its checks and does not reserve answers with its plan alone. -/
theorem doDumpPlan_plan {m : Mach} {i : Issuer} {p : Pkt} {k : Option Nat} (hreserve : nbit (wAt p.body 5).toNat 0 = false)
    (hplan : dumpPlanPlan m i p.body = (0, [], k)) :
    doDumpPlan m i p =
      answer m i 0x0306 p.cookie St.ok (w1 0xFFFFFFFF ++ planDetail m (dumpUse m i (wAt p.body 4))
        (stitchPlan m (scopeAt m p.body 0) (secureMap m i) (nbit (wAt p.body 5).toNat 1))) := by
  dsimp only [doDumpPlan]
  rw [hplan]
  dsimp only
  rw [if_neg (by decide), hreserve]

/-- PRESS that passes its checks presses the Quires of its dump. -/
theorem doPress_ok {m : Mach} {i : Issuer} {p : Pkt} {k : Nat} {x : Dump} {l : List W32} (hst : pressCheck m i p.body = (0, l))
    (hslot : (dumpName m i (wAt p.body 0)).slot = some k) (hx : dump m k = some x) :
    doPress m i p =
      answer (pressDump m k (wAt p.body 1).toNat x).1 i 0x0302 p.cookie St.ok
        (w1 (pressDump m k (wAt p.body 1).toNat x).2.folios ++ w1 (pressDump m k (wAt p.body 1).toNat x).2.pressed ++
          w1 (pressDump m k (wAt p.body 1).toNat x).2.overflowed ++ w1 (pressDump m k (wAt p.body 1).toNat x).2.inPlace ++
          w1 (pressDump m k (wAt p.body 1).toNat x).2.selfcheck) := by
  dsimp only [doPress]
  rw [hst, hslot, Option.bind_some, hx]
  rfl

/-- EXPORT through a ring that passes its checks writes the records that fit. -/
theorem doExport_ring {m : Mach} {i : Issuer} {p : Pkt} {l : List W32} (hst : exportCheck m i p.body = (0, l))
    (hport : onPort i = false) :
    doExport m i p =
      let fit := recsFitting (exportRoom m i p.body) ((recsFrom (w64At p.body 2) (exportOf m i p.body)).getD [])
      let bytes := fit.flatMap (fun r => r.bytes)
      answer (bufWrite (countCoded m ((dumpName m i (wAt p.body 0)).slot.getD 0) fit) i (wAt p.body 1) 0 bytes) i 0x0303 p.cookie St.ok
        (w2 (w64At p.body 2 + bytes.length) ++ w1 bytes.length ++
          w1 (b2n (w64At p.body 2 + bytes.length == sumBy (fun r => r.bytes.length) (exportOf m i p.body)))) := by
  dsimp only [doExport]
  rw [hst]
  dsimp only
  rw [if_neg (by decide), hport, if_neg (by decide)]

/-- EXPORT on a port that passes its checks answers the bytes that fit. -/
theorem doExport_port {m : Mach} {i : Issuer} {p : Pkt} {l : List W32} (hst : exportCheck m i p.body = (0, l))
    (hport : onPort i = true) :
    doExport m i p =
      let recs := exportOf m i p.body
      let bytes := ((recs.flatMap (fun r => r.bytes)).drop (w64At p.body 2)).take (exportRoom m i p.body)
      answer (countCoded m ((dumpName m i (wAt p.body 0)).slot.getD 0) recs) i 0x0303 p.cookie St.ok
        (w2 (w64At p.body 2 + bytes.length) ++ w1 bytes.length ++
          w1 (b2n (w64At p.body 2 + bytes.length == sumBy (fun r => r.bytes.length) recs)) ++
          replyData i (wAt p.body 1) bytes) := by
  dsimp only [doExport]
  rw [hst]
  dsimp only
  rw [if_neg (by decide), hport, if_pos rfl]

/-- RELEASE_HAMPER of a dump that passes its checks empties its slot. -/
theorem doReleaseHamper_slot {m : Mach} {i : Issuer} {p : Pkt} {k : Nat} (hlen : p.body.length = 1)
    (hbad : (dumpName m i (wAt p.body 0)).bad = false) (hstale : (dumpName m i (wAt p.body 0)).stale = false)
    (hdenied : (dumpName m i (wAt p.body 0)).denied = false) (hslot : (dumpName m i (wAt p.body 0)).slot = some k)
    (hx : ∀ x, dump m k = some x → dumpLevel m i x 2 = true ∧ dumpBusy x = false) :
    doReleaseHamper m i p = answer (setDump m k none) i 0x0304 p.cookie St.ok [] := by
  dsimp only [doReleaseHamper]
  rw [hbad, hstale, hdenied, hslot, Option.bind_some, hlen]
  cases hd : dump m k with
  | none => rfl
  | some x =>
    obtain ⟨hlevel, hbusy⟩ := hx x hd
    rw [Option.map_some, Option.map_some, hlevel, hbusy]
    rfl

/-- RELEASE_HAMPER of a name that holds no slot answers. -/
theorem doReleaseHamper_none {m : Mach} {i : Issuer} {p : Pkt} (hlen : p.body.length = 1)
    (hbad : (dumpName m i (wAt p.body 0)).bad = false) (hstale : (dumpName m i (wAt p.body 0)).stale = false)
    (hdenied : (dumpName m i (wAt p.body 0)).denied = false) (hslot : (dumpName m i (wAt p.body 0)).slot = none) :
    doReleaseHamper m i p = answer m i 0x0304 p.cookie St.ok [] := by
  dsimp only [doReleaseHamper]
  rw [hbad, hstale, hdenied, hslot, hlen]
  rfl

/-- Taking a packet from its lane changes no dump. -/
theorem dump_hostTaken (m : Mach) (p : Pkt) (k : Nat) : dump (hostTaken m p) k = dump m k := by
  unfold hostTaken
  split <;> rfl

/-- MIGRATE_CORE of a core that passes its checks answers the regions that it moved. -/
theorem doMigrateCore_core {m : Mach} {i : Issuer} {p : Pkt} {x : Dump} {q : Quire} {r : Mach × Nat × Nat}
    (hst : migrateStatus m i p.body = 0) (hx : (dumpName m i (wAt p.body 0)).slot.bind (dump m) = some x)
    (hq : quireOf x (wAt p.body 1) = some q) (hlevel : upLevel (wAt p.body 1) = 1)
    (hr : migrateCore m q (wAt p.body 1) (wAt p.body 2) ((wAt p.body 5).toNat == 1) = some r) :
    doMigrateCore m i p =
      answer r.1 i 0x0305 p.cookie St.ok (w1 r.2.1 ++
        w1 (q.entries.filter (fun e => (nbit e.flags 1 || nbit e.flags 2) && (e.unit == wAt p.body 1 ||
          ((wAt p.body 5).toNat == 1 && e.cls == 3 && upLevel e.unit == 1 && upCluster e.unit == upCluster (wAt p.body 1))))).length ++
        w2 r.2.2 ++ w1 0) := by
  dsimp only [doMigrateCore]
  rw [hst, hx, Option.bind_some, hq]
  refine (if_pos hlevel).trans ?_
  rw [hr]

/-- MIGRATE_CORE of a port that passes its checks answers the records that it moved. -/
theorem doMigrateCore_port {m : Mach} {i : Issuer} {p : Pkt} {x : Dump} {q : Quire} {r : Mach × Nat × Nat}
    (hst : migrateStatus m i p.body = 0) (hx : (dumpName m i (wAt p.body 0)).slot.bind (dump m) = some x)
    (hq : quireOf x (wAt p.body 1) = some q) (hlevel : upLevel (wAt p.body 1) ≠ 1)
    (hr : migratePort m q (wAt p.body 1) (wAt p.body 2) = some r) :
    doMigrateCore m i p = answer r.1 i 0x0305 p.cookie St.ok (w1 0 ++ w1 0 ++ w2 r.2.2 ++ w1 r.2.1) := by
  dsimp only [doMigrateCore]
  rw [hst, hx, Option.bind_some, hq]
  refine (if_neg hlevel).trans ?_
  rw [hr]

/-- Settles O11. -/
theorem dumpCommandsComplete : Obligations.DumpCommandsComplete := by
  unfold Obligations.DumpCommandsComplete
  refine ⟨?_, ?_, ?_, ?_, ?_, ?_, ?_, ?_, ?_⟩
  · intro p s k h hreserve hplan
    dsimp only [HostAnswers, HostDone, Done, exec, execDumpPlan]
    exact hostRow_completes h (doDumpPlan_reserve hreserve hplan)
  · intro p s k h hreserve hplan
    dsimp only [HostAnswers, HostDone, Done, exec, execDumpPlan]
    exact hostRow_completes h (doDumpPlan_plan hreserve hplan)
  · intro p s k l h hst
    dsimp only [HostDone, Done, exec, execStitch]
    refine hostRow_completes h ?_
    dsimp only [doStitch]
    rw [hst]
    rfl
  · intro p s k x l h hst hslot hx
    dsimp only [HostAnswers, HostDone, Done, exec, execPress]
    exact hostRow_completes h (doPress_ok hst hslot hx)
  · intro p s l h hport hst
    dsimp only [HostAnswers, HostDone, Done, exec, execExportDump]
    refine hostRow_completes h (doExport_ring hst ?_)
    rw [hostIssuer_of_ne (by rw [hport]; decide), hport]
    rfl
  · intro p s l h hport hst
    dsimp only [HostAnswers, HostDone, Done, exec, execExportDump]
    refine hostRow_completes h (doExport_port hst ?_)
    rw [hostIssuer_of_ne (by rw [hport]; decide), hport]
    rfl
  · intro p s u h hlen hname hbad hstale hdenied hx
    subst hname
    dsimp only [HostAnswers, HostDone, Done, exec, execReleaseHamper]
    refine hostRow_completes h ?_
    cases hslot : (dumpName (hostTaken s.m p) (hostIssuer p) (wAt p.body 0)).slot with
    | none => exact doReleaseHamper_none hlen hbad hstale hdenied hslot
    | some k =>
      refine doReleaseHamper_slot hlen hbad hstale hdenied hslot ?_
      intro x hd
      rw [dump_hostTaken] at hd
      exact hx x (by rw [hslot]; exact hd)
  · intro p s x q r h hst hx hq hlevel hr
    dsimp only [HostAnswers, HostDone, Done, exec, execMigrateCore]
    exact hostRow_completes h (doMigrateCore_core hst hx hq hlevel hr)
  · intro p s x q r h hst hx hq hlevel hr
    dsimp only [HostAnswers, HostDone, Done, exec, execMigrateCore]
    exact hostRow_completes h (doMigrateCore_port hst hx hq hlevel hr)

end Sys2Proof.Machine

/-! PROOFS. Host commands: Tally and trace. -/

namespace Sys2Proof.Machine

/-! ### Tally (Tables 7.6, 7.10) -/

/-- A list of checks whose failures have codes other than 0 and that comes to 0 has no check that fails. -/
theorem firstStatus_zero {l : List (Bool × Nat)} {d : Nat} (hcodes : ∀ x ∈ l, x.2 ≠ 0) (h : firstStatus l d = 0) :
    ∀ x ∈ l, x.1 = false := by
  induction l with
  | nil => exact fun x hx => absurd hx (List.not_mem_nil)
  | cons y r ih =>
    obtain ⟨c, st⟩ := y
    rw [List.forall_mem_cons] at hcodes ⊢
    cases c with
    | true => exact absurd h hcodes.1
    | false => exact ⟨rfl, ih hcodes.2 h⟩

/-- A Waypoint command whose checks give no status passes each of them. -/
theorem waypointStatus_passes {m : Mach} {i : Issuer} {s : Scope} {level lead t slots : Nat} {bad busy : Bool}
    (h : waypointStatus m i s level lead t slots bad busy = 0) :
    (bad || tooFar m t) = false ∧ scopeDark m s = false ∧ scopeLevel m i s level = true ∧ scopeMoved m s = false ∧
      (busy || !slotsFree m (scopeDies m s) slots) = false ∧ (!isFabric i.origin && tooEarly m lead t) = false := by
  have hall := firstStatus_zero (by simp [St.malformed, St.unitDark, St.notAuthorised, St.bindingMoved, St.busy, St.timeout]) h
  simp only [List.forall_mem_cons] at hall
  obtain ⟨hform, hdark, hlevel, hmoved, hbusy, hearly, -⟩ := hall
  exact ⟨hform, hdark, by simpa using hlevel, hmoved, hbusy, hearly⟩

/-- TALLY that passes its checks starts a run over its parts. -/
theorem doTally_ok {m : Mach} {i : Issuer} {p : Pkt} {l : List W32} {parts : List TallyPart} (hst : tallyPlan m i p.body = (0, l, parts)) :
    doTally m i p =
      startTally m i 0x0501 p (wfld (wAt p.body 0) 4 4) (wfld (wAt p.body 0) 8 1 == 1) parts
        (resolveT m (tallyLead p.body) (w64At p.body 14)) (partBit (wfld (wAt p.body 2) 0 8)) := by
  dsimp only [doTally]
  rw [hst]
  dsimp only
  rw [if_neg (by decide)]

/-- COMPARE that passes its checks starts a run over its parts. -/
theorem doCompare_ok {m : Mach} {i : Issuer} {p : Pkt} {l : List W32} {parts : List TallyPart}
    (hst : comparePlan m i p.body = (0, l, parts)) :
    doCompare m i p =
      startTally m i 0x0502 p (wfld (wAt p.body 0) 4 4) (wfld (wAt p.body 0) 8 1 == 1) parts (resolveT m 10000 (w64At p.body 7))
        ((compareEntries p.body).foldl (fun acc e => acc ||| partBit (wfld e.1 0 8)) 0) := by
  dsimp only [doCompare]
  rw [hst]
  dsimp only
  rw [if_neg (by decide)]

/-- SENTINEL_CONFIG of images of 21 bits each changes the hub's copy and sends it. -/
theorem doSentinelConfig_ok {m : Mach} {i : Issuer} {p : Pkt} {part mx vx flags : Nat} (hpart : part < 256) (hmx : mx < 2 ^ 21)
    (hvx : vx < 2 ^ 21) (hflags : flags < 2) (hepoch : epochOf m part < 2 ^ 32)
    (hbody : p.body = [BitVec.ofNat 32 part, BitVec.ofNat 32 (epochOf m part), BitVec.ofNat 32 mx, BitVec.ofNat 32 vx,
      BitVec.ofNat 32 flags])
    (hlevel : 2 ≤ issLevel m i part) :
    doSentinelConfig m i p =
      startConfig (setHubCfg m part { hubCfg m part with mx := mx, vx := vx }) i 0x0503 p 2 part mx (vx + flags * 2 ^ 32) := by
  have hlen : p.body.length = 5 := by rw [hbody]; rfl
  have hw0 : (wAt p.body 0).toNat = part := wAt_toNat_of_getElem (by rw [hbody]; rfl) (by omega)
  have hw1 : (wAt p.body 1).toNat = epochOf m part := wAt_toNat_of_getElem (by rw [hbody]; rfl) hepoch
  have hw2 : (wAt p.body 2).toNat = mx := wAt_toNat_of_getElem (by rw [hbody]; rfl) (by omega)
  have hw3 : (wAt p.body 3).toNat = vx := wAt_toNat_of_getElem (by rw [hbody]; rfl) (by omega)
  have hw4 : (wAt p.body 4).toNat = flags := wAt_toNat_of_getElem (by rw [hbody]; rfl) (by omega)
  dsimp only [doSentinelConfig]
  rw [hw0, hw1, hw2, hw3, hw4, hlen, decide_eq_false (Nat.not_le.mpr hpart), decide_eq_false (Nat.not_le.mpr hmx),
    decide_eq_false (Nat.not_le.mpr hvx), decide_eq_false (Nat.not_le.mpr hflags), decide_eq_false (Nat.not_lt.mpr hlevel),
    bne_self_eq_false (epochOf m part)]
  rfl

/-- FIRST_FAULT that passes its checks arms its collection on the Stations of its scope. -/
theorem doFirstFault_ok {m : Mach} {i : Issuer} {p : Pkt} (hlen : p.body.length = 11) (hscope : scopeOk m p.body 0 = true)
    (hflags : (wAt p.body 9).toNat < 32) (hmax : (wAt p.body 10).toNat ≤ 64) (halign : w64At p.body 7 % 8 = 0)
    (hform : bufMalformed i (wAt p.body 6) (w64At p.body 7) = false) (hstale : bufStale m i (wAt p.body 6) = false)
    (hdenied : bufDenied m i (wAt p.body 6) false true = false)
    (hshort : resultShort m i (wAt p.body 6) (w64At p.body 7) (16 + 32 * (wAt p.body 10).toNat) = 0)
    (hst : waypointStatus m i (scopeAt m p.body 0) 1 (leadOf (scopeAt m p.body 0).kind) (w64At p.body 4) 1 false false = 0) :
    doFirstFault m i p =
      let s := scopeAt m p.body 0
      let at_ := resolveT m (leadOf s.kind) (w64At p.body 4)
      let (c, m') := newCmd m i 0x0504 p.cookie p.body s
      let m' := armScope (updCmd m' c.id (fun x => { x with t := at_, flags := (wAt p.body 9).toNat })) c.id s at_ 5
        (nfld (wAt p.body 9).toNat 0 1) (nfld (wAt p.body 9).toNat 1 4) 0
      (findCmd m' c.id).elim m' (sendJobCmd m') := by
  obtain ⟨hfar, hdark, hlevel, hmoved, hslots, hearly⟩ := waypointStatus_passes hst
  rw [Bool.false_or] at hfar hslots
  dsimp only [doFirstFault]
  rw [hlen, hscope, decide_eq_false (Nat.not_le.mpr hflags), decide_eq_false (Nat.not_lt.mpr hmax), halign, hform, hstale, hdenied, hshort,
    hfar, hdark, hlevel, hmoved, hslots, hearly]
  have hpass : ∀ b : Bool, firstStatus [((11 != 11 || !true || false || false || 0 != 0 || (!b && false) || false), St.malformed),
      (false, St.unitDark), (!b && false, St.staleHandle), (!b && decide (0 < 0), St.doesNotFit), (false, St.bindingMoved),
      (!true || (!b && false), St.notAuthorised), (false, St.busy), (false, St.timeout)] St.ok = 0 := by decide
  rw [hpass, if_neg (by decide)]
  generalize armScope _ _ _ _ _ _ _ _ = n
  cases findCmd n _ <;> rfl

/-- Settles O13. -/
theorem tallyCommandsComplete : Obligations.TallyCommandsComplete := by
  unfold Obligations.TallyCommandsComplete
  refine ⟨?_, ?_, ?_, ?_⟩
  · intro p s l parts h hst
    dsimp only [HostDone, Done, exec, execTally]
    exact hostRow_completes h (doTally_ok hst)
  · intro p s l parts h hst
    dsimp only [HostDone, Done, exec, execCompare]
    exact hostRow_completes h (doCompare_ok hst)
  · intro p s part mx vx flags h hpart hmx hvx hflags hepoch hbody hlevel
    dsimp only [HostDone, Done, exec, execSentinelConfig]
    exact hostRow_completes h (doSentinelConfig_ok hpart hmx hvx hflags hepoch hbody hlevel)
  · intro p s h m u sc flags hd hlen hscope hflags hmax halign hform hstale hdenied hshort hst
    dsimp only [HostDone, Done, exec, execFirstFault]
    exact hostRow_completes h (doFirstFault_ok hlen hscope hflags hmax halign hform hstale hdenied hshort hst)

/-! ### Trace streams (Table 8.6) -/

/-- TRACE_CONFIG that passes its checks configures its stream in the slot found. -/
theorem doTraceConfig_ok {m : Mach} {i : Issuer} {p : Pkt} {l : List W32} {k : Nat} (hst : traceConfigCheck m i p.body = (0, l, some k)) :
    doTraceConfig m i p =
      let x := streamOf m i p.body
      let m' := configStream m k x
      answer m' i 0x0601 p.cookie St.ok (w1 k ++ w1 x.dies.length ++ w1 (sumBy (fun d => (streamCores m' d x.scope).length) x.dies) ++
        w1 (sumBy (fun d => (streamPorts m' d x.scope x.links).length) x.dies)) := by
  dsimp only [doTraceConfig]
  rw [hst]
  rfl

/-- TRACE_START that passes its checks arms the start of its stream. -/
theorem startTrace_ok {m : Mach} {i : Issuer} {op : Nat} {cookie : W64} {body : List W32} {h : W32} {t k : Nat} {x : Stream}
    (hname : streamNamed m i h = some (k, x)) (hst : traceStatus m i h false (fun y => !(y.state == 1 || y.state == 4)) t = 0) :
    startTrace m i op cookie body h t false =
      let at_ := resolveT m (leadOf x.scope.kind) t
      let (c, m') := newCmd m i op cookie body x.scope
      let r := armTrace (updCmd m' c.id (fun y => { y with op := 0x0602, t := at_, aux := [k] })) c.id 7 at_ k x
      traceCheck (updStream r.2 k (fun y => { y with state := 2, arm := r.1, cookie := cookie })) c.id := by
  simp only [startTrace, hst, hname]

/-- TRACE_STOP of a stream that runs arms its stop. -/
theorem stopTrace_running {m : Mach} {i : Issuer} {op : Nat} {cookie : W64} {body : List W32} {h : W32} {t flags k : Nat} {x : Stream}
    (hflags : flags < 2) (hname : streamNamed m i h = some (k, x))
    (hst : traceStatus m i h false (fun y => !(y.state == 2 || y.state == 3)) t = 0) (hstate : x.state ≠ 2) :
    stopTrace m i op cookie body h t flags false =
      let at_ := resolveT m (leadOf x.scope.kind) t
      let (c, m') := newCmd m i op cookie body x.scope
      traceCheck (armTrace (updCmd m' c.id (fun y => { y with op := 0x0603, t := at_, aux := [k] })) c.id 8 at_ k x).2 c.id := by
  dsimp only [stopTrace]
  rw [decide_eq_false (Nat.not_le.mpr hflags), Bool.false_or, hst, hname]
  exact if_neg hstate

/-- TRACE_STOP of a stream that is still armed withdraws its start. -/
theorem stopTrace_armed {m : Mach} {i : Issuer} {op : Nat} {cookie : W64} {body : List W32} {h : W32} {t flags k : Nat} {x : Stream}
    (hflags : flags < 2) (hname : streamNamed m i h = some (k, x))
    (hst : traceStatus m i h false (fun y => !(y.state == 2 || y.state == 3)) t = 0) (hstate : x.state = 2) :
    stopTrace m i op cookie body h t flags false =
      let cmds := m.cmds.map (fun c => if c.op == 0x0602 && c.aux == [k] then { c with aborted := true } else c)
      let m' := updStream (cancelArm { m with cmds := cmds } x.arm) k (fun y => { y with state := if y.horizon = 0 then 1 else 4 })
      answer (if nbit flags 0 then freeSlot m' k else m') i op cookie St.ok
        (w2 (resolveT m (leadOf x.scope.kind) t) ++ w2 0 ++ w2 0) := by
  dsimp only [stopTrace]
  rw [decide_eq_false (Nat.not_le.mpr hflags), Bool.false_or, hst, hname]
  exact if_pos hstate

/-- TRACE_DRAIN that passes its checks begins. -/
theorem doTraceDrain_ok {m : Mach} {i : Issuer} {p : Pkt} {l : List W32} {k : Nat} {x : Stream}
    (hst : drainStatus m i p.body = (0, l)) (hname : streamNamed m i (wAt p.body 0) = some (k, x)) :
    doTraceDrain m i p = startDrain m i p k x := by
  dsimp only [doTraceDrain]
  rw [hst, hname]
  rfl

/-- TRACE_DRAIN of length 0 answers at once. -/
theorem doTraceDrain_empty {m : Mach} {i : Issuer} {p : Pkt} {l : List W32} {k : Nat} {x : Stream}
    (hst : drainStatus m i p.body = (0xFFFF, l)) (hname : streamNamed m i (wAt p.body 0) = some (k, x)) :
    doTraceDrain m i p =
      answer m i 0x0604 p.cookie St.ok (w2 x.horizon ++ w1 0 ++ w1 0 ++
        w1 (b2n ((x.merge.map (fun g => !g.waiting.isEmpty)).getD false)) ++ w2 ((x.merge.map (fun g => g.lost)).getD 0)) := by
  dsimp only [doTraceDrain]
  rw [hst, hname]
  rfl

/-- Settles O14. -/
theorem traceCommandsComplete : Obligations.TraceCommandsComplete := by
  unfold Obligations.TraceCommandsComplete
  refine ⟨?_, ?_, ?_, ?_, ?_, ?_⟩
  · intro p s l k h hst
    dsimp only [HostAnswers, HostDone, Done, exec, execTraceConfig]
    exact hostRow_completes h (doTraceConfig_ok hst)
  · intro p s k x h hlen hname hst
    dsimp only [HostDone, Done, exec, execTraceStart]
    refine hostRow_completes h ?_
    rw [doTraceStart, hlen]
    exact startTrace_ok hname hst
  · intro p s k x h hlen hflags hname hst hstate
    dsimp only [HostDone, Done, exec, execTraceStop]
    refine hostRow_completes h ?_
    rw [doTraceStop, hlen]
    exact stopTrace_running hflags hname hst (by rw [hstate]; decide)
  · intro p s k x h hlen hflags hname hst hstate
    dsimp only [HostAnswers, HostDone, Done, exec, execTraceStop]
    refine hostRow_completes h ?_
    rw [doTraceStop, hlen]
    exact stopTrace_armed hflags hname hst hstate
  · intro p s l k x h hst hname
    dsimp only [HostDone, Done, exec, execTraceDrain]
    exact hostRow_completes h (doTraceDrain_ok hst hname)
  · intro p s l k x h hst hname
    dsimp only [HostAnswers, HostDone, Done, exec, execTraceDrain]
    exact hostRow_completes h (doTraceDrain_empty hst hname)

end Sys2Proof.Machine

/-! PROOFS. Host commands: Routines and triggers. -/

namespace Sys2Proof.Machine

/-- LOAD_ROUTINE that passes its checks makes its Routine resident. -/
theorem doLoadRoutine_ok {m : Mach} {i : Issuer} {p : Pkt} {l : List W32} {y : Routine} {hd : ImageHead}
    (hst : loadCheck m i p.body = (0, l, some (y, hd))) :
    doLoadRoutine m i p =
      answer (installRoutine m y) i 0x0701 p.cookie St.ok (w1 hd.steps ++ w1 hd.scopes ++ w1 hd.params ++ w1 y.crc) := by
  simp only [doLoadRoutine, hst]

/-- UNLOAD_ROUTINE of a Routine of its Session that nothing pins removes it. -/
theorem doUnloadRoutine_ok {m : Mach} {i : Issuer} {p : Pkt} {h : W32} {y : Routine} (hbody : p.body = [h])
    (howner : notOwner m i 2 h = false) (hstale : routineStale m i h = false) (hy : routineOf m h i.sess = some y)
    (hpin : routinePinned m y = false) :
    doUnloadRoutine m i p =
      answer { m with rtn := { m.rtn with routines := m.rtn.routines.filter (fun r => !(r.handle == h && r.sid == i.sess)) } } i 0x0702
        p.cookie St.ok [] := by
  have hlen : p.body.length = 1 := by rw [hbody]; rfl
  have hw : wAt p.body 0 = h := by rw [hbody]; rfl
  dsimp only [doUnloadRoutine]
  rw [hw, hlen, howner, hstale, hy, Option.map_some, hpin]
  rfl

/-- DISARM_TRIGGER of a trigger of its Session frees it, and with its flag stops the run it is in. -/
theorem doDisarmTrigger_ok {m : Mach} {i : Issuer} {p : Pkt} {n flags : Nat} {x : Trigger} (hn : n < 64) (hflags : flags < 2)
    (hbody : p.body = [BitVec.ofNat 32 n, BitVec.ofNat 32 flags]) (hx : trigger m n = some x) (hsid : x.sid = i.sess) :
    doDisarmTrigger m i p =
      answer (if nbit flags 0 then x.inRun.elim (setTrigger m n none) (stopRun (setTrigger m n none)) else setTrigger m n none) i 0x0704
        p.cookie St.ok (w2 x.fires ++ w1 x.dropped) := by
  have hlen : p.body.length = 2 := by rw [hbody]; rfl
  have hw0 : (wAt p.body 0).toNat = n := wAt_toNat_of_getElem (by rw [hbody]; rfl) (by omega)
  have hw1 : (wAt p.body 1).toNat = flags := wAt_toNat_of_getElem (by rw [hbody]; rfl) (by omega)
  have hother : (x.sid != i.sess) = false := by simp [hsid]
  dsimp only [doDisarmTrigger]
  rw [hw0, hw1, hx, hlen]
  dsimp only
  rw [hother, decide_eq_false (Nat.not_le.mpr hn), decide_eq_false (Nat.not_le.mpr hflags)]
  have hst : firstStatus [((2 != 2 || false || false), St.malformed), (false, St.notAuthorised), ((some x).isNone, St.staleHandle)]
      St.ok = 0 := rfl
  simp only [hst]
  cases x.inRun <;> rfl

/-- RUN_ROUTINE of a Routine of its Session that has no run queues one. -/
theorem doRunRoutine_ok {m : Mach} {i : Issuer} {p : Pkt} (hlen : p.body.length = 3) (howner : notOwner m i 2 (wAt p.body 0) = false)
    (hstale : routineStale m i (wAt p.body 0) = false)
    (hruns : m.rtn.runs.any (fun r => r.routine == wAt p.body 0 && r.sid == i.sess) = false) (hroom : queuedRuns m < 64) :
    doRunRoutine m i p =
      let (c, m') := newCmd m i 0x0705 p.cookie p.body noScope
      { m' with rtn := { m'.rtn with runs := m'.rtn.runs ++
        [{ index := nextRun m', routine := wAt p.body 0, sid := i.sess, cmd := some c.id, t0 := w64At p.body 1 }] } } := by
  dsimp only [doRunRoutine]
  rw [hlen, howner, hstale, hruns, decide_eq_false (Nat.not_le.mpr hroom), if_neg (by decide)]

/-- Settles O15. -/
theorem routineCommandsComplete : Obligations.RoutineCommandsComplete := by
  unfold Obligations.RoutineCommandsComplete
  refine ⟨?_, ?_, ?_, ?_, ?_⟩
  · intro p s l y hd h hst
    dsimp only [HostAnswers, HostDone, Done, exec, execLoadRoutine]
    exact hostRow_completes h (doLoadRoutine_ok hst)
  · intro p s hd y h hbody howner hstale hy hpin
    dsimp only [HostAnswers, HostDone, Done, exec, execUnloadRoutine]
    exact hostRow_completes h (doUnloadRoutine_ok hbody howner hstale hy hpin)
  · intro p s h hst
    dsimp only [HostAnswers, HostDone, Done, exec, execArmTrigger]
    refine hostRow_completes h ?_
    dsimp only [doArmTrigger]
    rw [hst]
    exact if_neg (by decide)
  · intro p s n flags x h hn hflags hbody hx hsid
    dsimp only [HostAnswers, HostDone, Done, exec, execDisarmTrigger]
    refine hostRow_completes h ((doDisarmTrigger_ok hn hflags hbody hx hsid).trans ?_)
    interval_cases flags
    · rfl
    · cases x.inRun <;> rfl
  · intro p s hd h hlen hw howner hstale hruns hroom
    subst hw
    dsimp only [HostDone, Done, exec, execRunRoutine]
    exact hostRow_completes h (doRunRoutine_ok hlen howner hstale hruns hroom)

end Sys2Proof.Machine

/-! PROOFS. Host commands: bring-up, modes and recovery. -/

namespace Sys2Proof.Machine

/-! ### Bring-up and modes (Table 11.16) -/

/-- The status of a ROLL_CALL, case by case. -/
theorem rollCallStatus_eq (wait : Bool) (fatal stale : Nat) :
    firstStatus [(wait, St.licenceInvalid), (fatal != 0, St.topologyMismatch), (stale == 1, St.trainingStale)] St.ok =
      if wait then St.licenceInvalid else if fatal ≠ 0 then St.topologyMismatch else if stale = 1 then St.trainingStale else St.ok := by
  simp [firstStatus]

/-- INSTALL_LICENCE of a valid licence that is not the one in force and not an older one puts it in place. -/
theorem doInstallLicence_ok {m : Mach} {i : Issuer} {p : Pkt} (hlen : p.body.length = 3)
    (hform : bufMalformed i (wAt p.body 0) (w64At p.body 1) = false) (hstale : bufStale m i (wAt p.body 0) = false)
    (hdenied : bufDenied m i (wAt p.body 0) true false = false) (hroom : w64At p.body 1 + 224 ≤ bufLen m i (wAt p.body 0))
    (hnew : bufRead m (wAt p.body 0) (w64At p.body 1) 224 ≠ m.bup.lic)
    (hvalid : licValid m (bufRead m (wAt p.body 0) (w64At p.body 1) 224) = true)
    (hflash : bytesAt (flashLicence m) 16 4 ≤ bytesAt (bufRead m (wAt p.body 0) (w64At p.body 1) 224) 16 4)
    (hforce : bytesAt m.bup.lic 16 4 ≤ bytesAt (bufRead m (wAt p.body 0) (w64At p.body 1) 224) 16 4) :
    doInstallLicence m i p =
      answer (putLicence m (bufRead m (wAt p.body 0) (w64At p.body 1) 224)) i 0x0802 p.cookie St.ok
        (w1 (bytesAt (bufRead m (wAt p.body 0) (w64At p.body 1) 224) 16 4) ++ w1 (hf m R.BUP_STATUS_WAIT_LICENCE)) := by
  dsimp only [doInstallLicence]
  rw [hlen, hform, hstale, hdenied, decide_eq_false (Nat.not_lt.mpr hroom), if_neg (by decide), if_neg (fun h => hnew h.1), hvalid,
    decide_eq_false (Nat.not_lt.mpr hflash), decide_eq_false (Nat.not_lt.mpr hforce), if_neg (by decide)]

/-- SAVE_TRAINING that passes its checks saves the training of the places that are up. -/
theorem doSaveTraining_ok {m : Mach} {i : Issuer} {p : Pkt} (hlen : p.body.length = 5) (hflag : (wAt p.body 4).toNat < 2)
    (hkind : (scopeAt m p.body 0).kind = 3 ∨ (scopeAt m p.body 0).kind = 5) (hscope : scopeOk m p.body 0 = true)
    (hdark : scopeDark m (scopeAt m p.body 0) = false) (hlevel : pkgLevel m i 2 = true)
    (hmoved : (scopeAt m p.body 0).kind = 3 → scopeMoved m (scopeAt m p.body 0) = false) :
    doSaveTraining m i p =
      answer (saveTraining m ((savePlaces m (scopeAt m p.body 0)).filter (placeUp m)) (nbit (wAt p.body 4).toNat 0)) i 0x0806 p.cookie St.ok
        (w1 ((savePlaces m (scopeAt m p.body 0)).filter (placeUp m)).length ++
          w1 ((savePlaces m (scopeAt m p.body 0)).length - ((savePlaces m (scopeAt m p.body 0)).filter (placeUp m)).length)) := by
  have hk : ((scopeAt m p.body 0).kind == 3 || (scopeAt m p.body 0).kind == 5) = true := by simpa using hkind
  have hm : ((scopeAt m p.body 0).kind == 3 && scopeMoved m (scopeAt m p.body 0)) = false := by
    rw [Bool.and_eq_false_imp]
    intro h
    exact hmoved (by simpa using h)
  dsimp only [doSaveTraining]
  rw [hlen, decide_eq_false (Nat.not_le.mpr hflag), hk, hscope, hdark, hlevel, hm, if_neg (by decide)]

/-- Settles O16. -/
theorem bringUpCommandsComplete : Obligations.BringUpCommandsComplete := by
  unfold Obligations.BringUpCommandsComplete
  refine ⟨?_, ?_, ?_, ?_⟩
  · intro p s h hlen hflag hst
    have hform : (p.body.length != 5 || decide (2 ≤ (wAt p.body 4).toNat)) = false := by
      rw [hlen, decide_eq_false (Nat.not_le.mpr hflag)]
      rfl
    dsimp only [HostDone, Done, exec, execRollCall]
    refine hostRow_completes h ?_
    dsimp only [doRollCall]
    rw [hform, hst, rollCallStatus_eq]
    exact if_neg (by decide)
  · intro p s h hlen hst
    dsimp only [HostDone, Done, exec, execReadLedger]
    refine hostRow_completes h ?_
    dsimp only [doReadLedger]
    rw [hlen, bne_self_eq_false, hst, if_neg (by decide)]
  · intro p s h m u l hlen hform hstale hdenied hroom hnew hvalid hflash hforce
    dsimp only [HostAnswers, HostDone, Done, exec, execInstallLicence]
    exact hostRow_completes h (doInstallLicence_ok hlen hform hstale hdenied hroom hnew hvalid hflash hforce)
  · intro p s h m sc hlen hflag hkind hscope hdark hlevel hmoved
    dsimp only [HostAnswers, HostDone, Done, exec, execSaveTraining]
    exact hostRow_completes h (doSaveTraining_ok hlen hflag hkind hscope hdark hlevel hmoved)

/-- STAGE_MODE of a class that no change is under way for stages its words, or drops them. -/
theorem doStageMode_ok {m : Mach} {i : Issuer} {p : Pkt} {cls flag : Nat} {w0 w1' : W32} (hcls : cls < 4) (hflag : flag < 2)
    (hbody : p.body = [BitVec.ofNat 32 cls, w0, w1', BitVec.ofNat 32 flag]) (hlevel : pkgLevel m i 2 = true)
    (hbusy : modeBusy m cls = false) :
    doStageMode m i p =
      let staged := if flag = 1 then none else some (w64At p.body 1, nextModeEpoch m cls)
      let dies := (answeringDies m).filter (fun d => decide (0 < modeUnits m d cls))
      answer (dies.foldl (fun m d => updMode m d cls (fun x => { x with staged := staged })) (setModeStaged m cls staged)) i 0x0804
        p.cookie St.ok (w1 (if flag = 1 then 0 else nextModeEpoch m cls) ++ w1 (sumBy (fun d => modeUnits m d cls) dies)) := by
  have hlen : p.body.length = 4 := by rw [hbody]; rfl
  have hw0 : (wAt p.body 0).toNat = cls := wAt_toNat_of_getElem (by rw [hbody]; rfl) (by omega)
  have hw3 : (wAt p.body 3).toNat = flag := wAt_toNat_of_getElem (by rw [hbody]; rfl) (by omega)
  have hc : wfld (wAt p.body 0) 0 2 = cls := by rw [wfld, hw0]; exact Nat.mod_eq_of_lt hcls
  have hf : (nbit flag 0 = true) = (flag = 1) := by
    rw [nbit, Nat.shiftRight_zero, Nat.mod_eq_of_lt hflag, beq_iff_eq]
  dsimp only [doStageMode]
  rw [hc, hw0, hw3, hlen, decide_eq_false (Nat.not_le.mpr hcls), decide_eq_false (Nat.not_le.mpr hflag), hlevel, hbusy,
    if_neg (by decide)]
  simp only [hf]

/-- COMMIT_MODE that passes its checks arms the change on the package. -/
theorem doCommitMode_ok {m : Mach} {i : Issuer} {p : Pkt} (hlen : p.body.length = 4) (hcls : (wAt p.body 0).toNat < 4)
    (hstaged : (modeStaged m (wAt p.body 0).toNat).isSome = true)
    (hepoch : (wAt p.body 1).toNat = nextModeEpoch m (wAt p.body 0).toNat) (hfar : tooFar m (w64At p.body 2) = false)
    (hlevel : pkgLevel m i 2 = true) (hbusy : modeBusy m (wAt p.body 0).toNat = false) (hslots : slotsFree m (presentDies m) 1 = true)
    (hearly : tooEarly m (leadOf 5) (w64At p.body 2) = false) :
    doCommitMode m i p =
      let (c, m') := newCmd m i 0x0805 p.cookie p.body packageScope
      let at_ := resolveT m (leadOf 5) (w64At p.body 2)
      armScope (updCmd m' c.id (fun x => { x with t := at_ })) c.id packageScope at_ 10 0 (wAt p.body 0).toNat (wAt p.body 1).toNat := by
  have hc : wfld (wAt p.body 0) 0 2 = (wAt p.body 0).toNat := by rw [wfld]; exact Nat.mod_eq_of_lt hcls
  have hform : (p.body.length != 4 || decide (4 ≤ (wAt p.body 0).toNat) || (modeStaged m (wAt p.body 0).toNat).isNone ||
      (wAt p.body 1).toNat != nextModeEpoch m (wAt p.body 0).toNat || tooFar m (w64At p.body 2)) = false := by
    rw [hlen, decide_eq_false (Nat.not_le.mpr hcls), hepoch, hfar, ← Option.not_isSome, hstaged]
    simp
  dsimp only [doCommitMode]
  rw [hc, hform, hlevel, hbusy, hslots, hearly, if_neg (by decide)]

/-- Settles O17. -/
theorem modeCommandsComplete : Obligations.ModeCommandsComplete := by
  unfold Obligations.ModeCommandsComplete
  refine ⟨?_, ?_, ?_⟩
  · intro p s cls w0 w1' flag h hcls hflag hbody hlevel hbusy
    dsimp only [HostAnswers, HostDone, Done, exec, execStageMode]
    exact hostRow_completes h (doStageMode_ok hcls hflag hbody hlevel hbusy)
  · intro p s h m cls t hlen hcls hstaged hepoch hfar hlevel hbusy hslots hearly
    dsimp only [HostDone, Done, exec, execCommitMode]
    exact hostRow_completes h (doCommitMode_ok hlen hcls hstaged hepoch hfar hlevel hbusy hslots hearly)
  · intro cmd s c hc hop hdue hgone
    have hany : (s.m.run.arms.any (fun a => a.cmd == cmd)) = false := by simpa [List.any_eq_false] using hgone
    dsimp only [Done, exec, execModeGather]
    rw [hc]
    dsimp only
    rw [if_pos ⟨hop, hdue, by rw [hany]; rfl⟩]

/-! ### Recovery (Table 12.6) -/

/-- RESET_SCOPE that passes its checks starts its rung. -/
theorem doResetScope_ok {m : Mach} {i : Issuer} {p : Pkt} (hlen : p.body.length = 5) (hscope : scopeOk m p.body 0 = true)
    (hw : (wAt p.body 4).toNat < 16) (hkind : rungKindOk (nfld (wAt p.body 4).toNat 0 3) (scopeAt m p.body 0).kind = true)
    (hdark : scopeDark m (scopeAt m p.body 0) = false) (hlevel : scopeLevel m i (scopeAt m p.body 0) 2 = true ∨ i.port = .sideband)
    (hmoved : scopeMoved m (scopeAt m p.body 0) = false) (hesc : nfld (wAt p.body 4).toNat 0 3 = 4 → esc m 256 = none) :
    doResetScope m i p =
      startReset m i p (scopeAt m p.body 0) (nfld (wAt p.body 4).toNat 0 3)
        (if nbit (wAt p.body 4).toNat 3 then nfld (wAt p.body 4).toNat 0 3 else ceilingRung m) := by
  have hauth : (!scopeLevel m i (scopeAt m p.body 0) 2 && !trayAdmits i) = false := by
    rcases hlevel with h | h
    · rw [h]
      rfl
    · rw [trayAdmits, h]
      exact Bool.and_false _
  have hhigh : (nfld (wAt p.body 4).toNat 0 3 == 4 && (esc m 256).any (fun x => !x.waitStitch)) = false := by
    rw [Bool.and_eq_false_imp]
    intro h
    rw [hesc (by simpa using h)]
    rfl
  dsimp only [doResetScope]
  rw [hlen, hscope, decide_eq_false (Nat.not_le.mpr hw), hkind, hdark, hauth, hmoved, hhigh, if_neg (by decide)]

/-- ABORT_JOB of a job that the package holds puts its token on the fabric and arms its abort. -/
theorem doAbortJob_held {m : Mach} {i : Issuer} {p : Pkt} {ps : PartMap} (hlen : p.body.length = 3) (hjob : hf m R.HUB_PKG_IN_JOB ≠ 0)
    (hfar : tooFar m (w64At p.body 1) = false) (hheld : jobParts m (wAt p.body 0) = some ps)
    (hlevel : i.port = .sideband ∨ ∀ q ∈ partsList ps, 2 ≤ issLevel m i q) (hslots : slotsFree m (presentDies m) 1 = true)
    (hearly : tooEarly m (leadOf 6) (w64At p.body 1) = false) :
    doAbortJob m i p =
      let at_ := resolveT m (leadOf 6) (w64At p.body 1)
      let (c, m') := newCmd (originate m 1 (wAt p.body 0) at_ []).2 i 0x0902 p.cookie p.body
        { kind := 6, part := 0, unit := wAt p.body 0, epoch := 0, parts := ps }
      armAbort (updCmd m' c.id (fun x => { x with t := at_ })) c.id (wAt p.body 0) at_ (pkgNum m') false := by
  have hauth : (trayAdmits i || (partsList ps).all (fun q => decide (2 ≤ issLevel m i q))) = true := by
    rcases hlevel with h | h
    · rw [trayAdmits, h]
      rfl
    · rw [List.all_eq_true.mpr (fun q hq => decide_eq_true (h q hq)), Bool.or_true]
  have hj : (hf m R.HUB_PKG_IN_JOB == 0) = false := by simpa using hjob
  dsimp only [doAbortJob]
  rw [hheld, hlen, hj, hfar, hslots, hearly]
  dsimp only
  rw [hauth, Option.isSome_some, if_neg (by decide)]

/-- ABORT_JOB over the sideband of a job that the package does not hold puts its token on the fabric and answers. -/
theorem doAbortJob_unheld {m : Mach} {i : Issuer} {p : Pkt} (hlen : p.body.length = 3) (hjob : hf m R.HUB_PKG_IN_JOB ≠ 0)
    (hfar : tooFar m (w64At p.body 1) = false) (hheld : jobParts m (wAt p.body 0) = none) (hport : i.port = .sideband)
    (hearly : tooEarly m (leadOf 6) (w64At p.body 1) = false) :
    doAbortJob m i p =
      answer (originate m 1 (wAt p.body 0) (resolveT m (leadOf 6) (w64At p.body 1)) []).2 i 0x0902 p.cookie St.ok
        (w2 (resolveT m (leadOf 6) (w64At p.body 1)) ++ w1 0 ++ w1 0) := by
  have hauth : trayAdmits i = true := by
    rw [trayAdmits, hport]
    rfl
  have hj : (hf m R.HUB_PKG_IN_JOB == 0) = false := by simpa using hjob
  dsimp only [doAbortJob]
  rw [hheld, hlen, hj, hfar, hauth, hearly, Bool.true_or, Option.isSome_none, Bool.false_and, if_neg (by decide)]

/-- SET_WATCHDOG that passes its checks changes the hub's copy of the periods and sends them. -/
theorem doSetWatchdog_ok {m : Mach} {i : Issuer} {p : Pkt} (hlen : p.body.length = 6) (hpart : (wAt p.body 0).toNat < 256)
    (hlevel : 2 ≤ issLevel m i (wAt p.body 0).toNat) (hepoch : (wAt p.body 1).toNat = epochOf m (wAt p.body 0).toNat) :
    doSetWatchdog m i p =
      startConfig (setHubCfg m (wAt p.body 0).toNat { hubCfg m (wAt p.body 0).toNat with
        periods := [(wAt p.body 2).toNat, (wAt p.body 3).toNat, (wAt p.body 4).toNat, (wAt p.body 5).toNat] })
        i 0x0903 p 3 (wAt p.body 0).toNat (w64At p.body 2) (w64At p.body 4) := by
  have hmoved : ((wAt p.body 1).toNat != epochOf m (wAt p.body 0).toNat) = false := by simpa using hepoch
  dsimp only [doSetWatchdog]
  rw [hlen, decide_eq_false (Nat.not_le.mpr hpart), decide_eq_false (Nat.not_lt.mpr hlevel), hmoved, if_neg (by decide)]

/-- REQUEST_POWER_CYCLE that passes its checks makes the request with the reason of its port. -/
theorem doRequestPowerCycle_ok {m : Mach} {i : Issuer} {p : Pkt} (hlen : p.body.length = 2) (hw : wAt p.body 0 = 1)
    (hlevel : pkgLevel m i 2 = true ∨ i.port = .sideband) :
    doRequestPowerCycle m i p =
      answer (powerRequest m (if i.port = .sideband then 3 else if i.port = .firmware then 4 else 2) (hubPath m) (wAt p.body 1).toNat) i
        0x0904 p.cookie St.ok [] := by
  have hauth : (!pkgLevel m i 2 && !trayAdmits i && i.origin != .firmware) = false := by
    rcases hlevel with h | h
    · rw [h]
      rfl
    · rw [trayAdmits, h]
      simp
  dsimp only [doRequestPowerCycle]
  rw [hlen, hw, hauth, if_neg (by decide)]
  cases i.port <;> rfl

/-- Settles O18. -/
theorem recoveryCommandsComplete : Obligations.RecoveryCommandsComplete := by
  unfold Obligations.RecoveryCommandsComplete
  refine ⟨?_, ?_, ?_, ?_, ?_⟩
  · intro p s h m u sc w rung hlen hscope hw hkind hdark hlevel hmoved hesc
    dsimp only [HostDone, Done, exec, execResetScope]
    exact hostRow_completes h (doResetScope_ok hlen hscope hw hkind hdark hlevel hmoved hesc)
  · intro p s ps h m u job t hlen hjob hfar hheld hlevel hslots hearly
    dsimp only [HostDone, Done, exec, execAbortJob]
    exact hostRow_completes h (doAbortJob_held hlen hjob hfar hheld hlevel hslots hearly)
  · intro p s h m t hlen hjob hfar hheld hport hslots hearly
    dsimp only [HostAnswers, HostDone, Done, exec, execAbortJob]
    exact hostRow_completes h (doAbortJob_unheld hlen hjob hfar hheld ((hostIssuer_port p).trans hport) hearly)
  · intro p s part h hlen hw hpart hlevel hepoch
    subst hw
    dsimp only [HostDone, Done, exec, execSetWatchdog]
    exact hostRow_completes h (doSetWatchdog_ok hlen hpart hlevel hepoch)
  · intro p s h hlen hw hlevel
    dsimp only [HostAnswers, HostDone, Done, exec, execRequestPowerCycle]
    exact hostRow_completes h (doRequestPowerCycle_ok hlen hw (by rw [hostIssuer_port]; exact hlevel))

end Sys2Proof.Machine

/-! PROOFS. Host commands: the life cycle. -/

namespace Sys2Proof.Machine

/-- AUTH_CHALLENGE that passes its checks gives its Session a challenge. -/
theorem doAuthChallenge_ok {m : Mach} {i : Issuer} {p : Pkt} {x : Session} (hlen : p.body.length = 9) (hlow : 1 ≤ (wAt p.body 0).toNat)
    (hhigh : (wAt p.body 0).toNat ≤ 4) (hparts : partMapAt p.body 1 ≠ 0)
    (hwhole : (wAt p.body 0).toNat = 4 → partMapAt p.body 1 = BitVec.allOnes 256) (hstate : lcState m < 6)
    (hroot : ∃ r, 1 ≤ r ∧ r ≤ 3 ∧ (wAt p.body 0).toNat ≤ rootCeiling m r) (hx : sessOf m i.sess = some x) :
    doAuthChallenge m i p =
      answer (giveChallenge m x (wAt p.body 0).toNat (partMapAt p.body 1)) i 0x0A01 p.cookie St.ok
        (bytesWords (challengeBlock m x (wAt p.body 0).toNat (partMapAt p.body 1))) := by
  have hform : (p.body.length != 9 || (wAt p.body 0).toNat == 0 || decide (4 < (wAt p.body 0).toNat) || partMapAt p.body 1 == 0 ||
      ((wAt p.body 0).toNat == 4 && partMapAt p.body 1 != BitVec.allOnes 256)) = false := by
    rw [hlen, beq_false_of_ne (by omega : (wAt p.body 0).toNat ≠ 0), decide_eq_false (by omega), beq_false_of_ne hparts,
      Bool.and_eq_false_imp.mpr (fun h => bne_eq_false_iff_eq.mpr (hwhole (beq_iff_eq.mp h)))]
    rfl
  have hceil : ([1, 2, 3].all (fun r => decide (rootCeiling m r < (wAt p.body 0).toNat))) = false := by
    obtain ⟨r, hr1, hr3, hr⟩ := hroot
    rw [List.all_eq_false]
    exact ⟨r, by simp; omega, by simpa using hr⟩
  dsimp only [doAuthChallenge]
  rw [hform, decide_eq_false (Nat.not_le.mpr hstate), hceil, hx]
  rfl

/-- AUTH_RESPONSE whose credentials verify takes the challenge and grants the level. -/
theorem doAuthResponse_ok {m : Mach} {i : Issuer} {p : Pkt} {t : Nat} {blk : List Byte}
    (hheld : (sessOf m i.sess).bind (fun x => x.challenge) = some (t, blk)) (hst : respStatus m (some (t, blk)) p.body = 0) :
    doAuthResponse m i p =
      answer (incHf (respGrant (updSess m i.sess (fun x => { x with challenge := none })) i.sess (bytesAt blk 5 1) (mapAt blk 32)
        (respCreds p.body (wfld (wAt p.body 0) 0 2)) (respTokens p.body (wfld (wAt p.body 0) 0 2) (wfld (wAt p.body 0) 8 6)))
        R.LCY_AUTH_GRANTS) i 0x0A02 p.cookie St.ok (leWords 8 (mapAt blk 32).toNat ++ w1 (bytesAt blk 5 1)) := by
  dsimp only [doAuthResponse]
  rw [hheld, hst, if_neg (by decide)]
  rfl

/-- A transition under way whose phase has come to its end acts by that phase. -/
theorem lcTick_due {m : Mach} {x : LcMove} (hx : m.lcy.move = some x) (hdue : x.due ≤ m.time.ns) : lcTick m = lcPhase m x := by
  simp only [lcTick, hx]
  exact if_pos hdue

/-- LC_READ without attestation answers the state and the hub's serial. -/
theorem doLcRead_state {m : Mach} {i : Issuer} {p : Pkt} (hlen : p.body.length = 13) (hw : wAt p.body 0 = 0) :
    doLcRead m i p =
      answer m i 0x0A04 p.cookie St.ok
        ([BitVec.ofNat 32 ((hget m 0x1000).toNat ||| (b2n m.pins.holdupOk <<< 16))] ++ w2 (hubSerial m)) := by
  have hbit : nbit (BitVec.toNat (0 : W32)) 7 = false := rfl
  dsimp only [doLcRead]
  rw [hw, hlen, hbit, Bool.false_and, Bool.false_and, if_neg (by decide), if_pos (by decide)]

/-- LC_READ that attests a die answers its attestation and signature as well. -/
theorem doLcRead_attest {m : Mach} {i : Issuer} {p : Pkt} {d : Nat} (hlen : p.body.length = 13) (hd : d ≤ 99)
    (hw : wAt p.body 0 = BitVec.ofNat 32 (128 + d)) (hkey : keyUsable m 5 = true) (hhidden : dieHidden m d = false)
    (htakes : dieTakes m d = true) :
    doLcRead m i p =
      answer { m with free := m.free + 1 } i 0x0A04 p.cookie St.ok
        ([BitVec.ofNat 32 ((hget m 0x1000).toNat ||| (b2n m.pins.holdupOk <<< 16))] ++ w2 (hubSerial m) ++
          bytesWords ((List.range 96).map (attestByte m d)) ++
          bytesWords ((List.range 96).map
            (Config.attestSigByte m.free (Sha.sha384 (attestMessage m d (wordsBytes (p.body.drop 1))))))) := by
  have hn : (wAt p.body 0).toNat = 128 + d := by
    rw [hw, BitVec.toNat_ofNat]
    omega
  have hdie : nfld (128 + d) 0 7 = d := by
    rw [nfld, Nat.shiftRight_zero]
    omega
  have hbit : nbit (128 + d) 7 = true := by
    rw [nbit, Nat.shiftRight_eq_div_pow, beq_iff_eq]
    omega
  dsimp only [doLcRead]
  rw [hn, hdie, hbit, hkey, hhidden, htakes, hlen, decide_eq_false (by omega : ¬256 ≤ 128 + d), decide_eq_false (by omega : ¬99 < d),
    Bool.not_true, Bool.false_and, if_neg (by decide), if_neg (by decide)]

/-- LEDGER_REVOKE that passes its checks strikes out the entries of its unit. -/
theorem doLedgerRevoke_ok {m : Mach} {i : Issuer} {p : Pkt} (hlen : p.body.length = 2) (hw : (wAt p.body 1).toNat < 512)
    (hpath : pathFields (wAt p.body 0) = true) (hlevel : [1, 3, 5, 6].contains (upLevel (wAt p.body 0)) = true)
    (hpkg : upPkg (wAt p.body 0) = 0) (hdie : upDie (wAt p.body 0) ≤ 99)
    (hcause : nbit (wAt p.body 1).toNat 8 = false → 1 ≤ nfld (wAt p.body 1).toNat 0 8 ∧ nfld (wAt p.body 1).toNat 0 8 ≤ 9)
    (hstate : lcState m = 5) (hauth : rootAuthority m i 3 = true) :
    doLedgerRevoke m i p =
      let all := nbit (wAt p.body 1).toNat 8
      let cause := nfld (wAt p.body 1).toNat 0 8
      let hits := revokeHits m (wAt p.body 0) all cause
      let n := (hits.filter (fun e => e.cause != 9)).length
      answer (revoke m (wAt p.body 0) all cause) i 0x0A05 p.cookie St.ok
        (w1 n ++ w1 (hits.length - n) ++ w1 (if stnAnswers m (upDie (wAt p.body 0)) then 0 else n)) := by
  have hc : (!nbit (wAt p.body 1).toNat 8 &&
      (nfld (wAt p.body 1).toNat 0 8 == 0 || decide (9 < nfld (wAt p.body 1).toNat 0 8))) = false := by
    rw [Bool.and_eq_false_imp]
    intro h
    obtain ⟨hlow, hhigh⟩ := hcause (by simpa using h)
    rw [beq_false_of_ne (by omega), decide_eq_false (by omega)]
    rfl
  dsimp only [doLedgerRevoke]
  rw [hlen, decide_eq_false (Nat.not_le.mpr hw), hpath, hlevel, hpkg, decide_eq_false (Nat.not_lt.mpr hdie), hc, hstate, hauth,
    if_neg (by decide)]

/-- Settles O19. -/
theorem lifeCycleCommandsComplete : Obligations.LifeCycleCommandsComplete := by
  unfold Obligations.LifeCycleCommandsComplete
  refine ⟨?_, ?_, ?_, ?_, ?_, ?_, ?_⟩
  · intro p s x h m level parts hlen hlow hhigh hparts hwhole hstate hroot hx
    dsimp only [HostAnswers, HostDone, Done, exec, execAuthChallenge]
    exact hostRow_completes h (doAuthChallenge_ok hlen hlow hhigh hparts hwhole hstate hroot hx)
  · intro p s t blk h hheld hst
    dsimp only [HostAnswers, HostDone, Done, exec, execAuthResponse]
    exact hostRow_completes h (doAuthResponse_ok hheld hst)
  · intro p s h hst
    dsimp only [HostDone, Done, exec, execLcTransition]
    refine hostRow_completes h ?_
    dsimp only [doLcTransition]
    rw [hst, if_neg (by decide)]
  · intro m x hx hdue
    rw [lcTick_due hx hdue]
    refine ⟨?_, ?_, ?_, ?_, ?_⟩
    · intro hphase
      simp only [lcPhase, hphase]
    · intro hphase
      simp only [lcPhase, hphase]
    · intro hphase
      simp only [lcPhase, hphase]
    · intro hphase htarget
      simp only [lcPhase, hphase, if_neg htarget]
    · intro hphase htarget
      simp only [lcPhase, hphase, if_pos htarget]
  · intro p s h hlen hw
    dsimp only [HostAnswers, HostDone, Done, exec, execLcRead]
    exact hostRow_completes h (doLcRead_state hlen hw)
  · intro p s d h hlen hd hw hkey hhidden htakes
    dsimp only [HostAnswers, HostDone, Done, exec, execLcRead]
    exact hostRow_completes h (doLcRead_attest hlen hd hw hkey hhidden htakes)
  · intro p s h m unit w cause all hlen hw hpath hlevel hpkg hdie hcause hstate hauth
    dsimp only [HostAnswers, HostDone, Done, exec, execLedgerRevoke]
    exact hostRow_completes h (doLedgerRevoke_ok hlen hw hpath hlevel hpkg hdie hcause hstate hauth)

end Sys2Proof.Machine
